-- ==== Sys2Proof/Word.lean ====
section
/-!
DEFINITION. The word types of the part: bytes of memory and 32-bit register words (00_scope.md,
Register conventions).
-/
namespace Sys2Proof

/-- One byte of a memory. -/
abbrev Byte := BitVec 8

/-- One 32-bit register or memory word. -/
abbrev Word := BitVec 32

end Sys2Proof
end

