-- ==== Sys2Proof/Syntax.lean ====
section
/-!
DEFINITION. The commands of the part: one constructor of Instr for each row of
spec/opcode_table.json, with its operands. A constructor's docstring names the row and the rule
that the table gives it.
-/
namespace Sys2Proof

/-- Who makes a host access: the host, or in SOLO the Postmaster (R355). -/
inductive Src where
  | host
  | postmaster
  deriving DecidableEq, Repr

/-- Who reads a register (R608): only the host and the Postmaster change state by reading. -/
inductive Reader where
  | host
  | postmaster
  | fsq
  | pe (n : Fin 16)
  deriving DecidableEq, Repr

/-- What a register access of the endpoint's side addresses (R479, R480): an offset in BAR0, in BAR4, or in configuration space. -/
inductive RegAddr where
  | bar0 (off : BitVec 20)
  | bar4 (off : BitVec 20)
  | config (off : BitVec 20)
  deriving DecidableEq, Repr

/-- How a DMA read of host memory fails (R503). -/
inductive DmaErr where
  | unsupported
  | aborted
  | poisoned
  | timeout
  deriving DecidableEq, Repr

/-- A DMA read that fails (R503): the data that came before the error, and the error. -/
structure DmaFail where
  data : List Byte
  err : DmaErr
  deriving DecidableEq, Repr

/-- The engine that executes an instruction: the Fire Sequencer or a Point Engine. -/
inductive Eng where
  | fsq
  | pe (n : Fin 16)
  deriving DecidableEq, Repr

/-- A timing path (R238, R253): a return channel, a spare, a start channel or STCS. -/
inductive Path where
  | ret (ch : Fin 512)
  | spare (k : Fin 16)
  | start (s : Fin 4)
  | stcs
  deriving DecidableEq, Repr

/-- The timing path that stamps a crossing of a channel's comparator (R93, R121, R238): the channel's own, its group's spare, or a
start path in shadow of it. -/
inductive Via where
  | own
  | spare
  | start (s : Fin 4)
  | stcs
  deriving DecidableEq, Repr

/-- The protected word that the scrubber reads: a word behind a BAR2 offset, the word that holds item i
of a stream buffer, or word w of early partial copy i (R34, R543). The last five name items of the
parity-protected stores that no scrubber reads: an upset strikes them (R535, R612). -/
inductive ScrubLoc where
  | bar2 (addr : BitVec 28)
  | buf (vc : BitVec 2) (i : Nat)
  | part (i w : Nat)
  | event (g : Fin 16) (i : Nat)
  | timed (i : Nat)
  | block (i : Nat)
  | frame (vc : BitVec 2) (i : Nat)
  | reg (e : Eng) (r : Nat)
  deriving DecidableEq, Repr

/-- The predicate field of an instruction: PN and PQ (R373). -/
structure Pred where
  neg : Bool
  q : BitVec 3
  deriving DecidableEq, Repr

/-- An immediate: in its field of w bits, or in the extension word (R379). -/
inductive Imm (w : Nat) where
  | short (v : BitVec w)
  | ext (v : Word)
  deriving DecidableEq, Repr

/-- The count of a loop instruction: a register, or the extension word (R379). -/
inductive LoopCount where
  | reg (rc : BitVec 5)
  | imm (v : Word)
  deriving DecidableEq, Repr

/-- The conditions of TSTI and CMP (R378). -/
inductive Cond where
  | eq | ne | lt | ge | ltu | geu
  deriving DecidableEq, Repr

/-- The forms of WAITT (R394). -/
inductive WaitForm where
  | relReg (ra : BitVec 6)
  | relImm (v : Word)
  | absReg (ra : BitVec 6)
  deriving DecidableEq, Repr

/-- Second operand of an ALU instruction (R397, OP 0x28 and 0x29). -/
inductive AluSrc where
  | reg (rb : BitVec 6)
  | imm6 (v : BitVec 6)
  | ext (v : Word)
  deriving DecidableEq, Repr

/-- Amount of a shift (R397, OP 0x2A and 0x2B). -/
inductive ShSrc where
  | reg (rb : BitVec 6)
  | imm6 (v : BitVec 6)
  deriving DecidableEq, Repr

/-- Source of NORM: a register or an accumulator (R397). -/
inductive NormSrc where
  | reg (ra : BitVec 6)
  | acc (an : BitVec 3)
  deriving DecidableEq, Repr

/-- Second operand of CMP (R397). -/
inductive CmpSrc where
  | reg (rb : BitVec 6)
  | ext (v : Word)
  deriving DecidableEq, Repr

/-- The channels that the Press serves (R411). -/
inductive PVc where
  | vc0
  | vc3
  deriving DecidableEq, Repr

/-- A frame as a receive lane delivers it: whether ISOF or SOF framed it, the 15 header bytes, the payload,
the CRC and PAD of its EOF, and whether its blocks kept the order of R452 and R456. -/
structure RxFrame where
  inserted : Bool
  hdr : Vector Byte 15
  payload : List Byte
  crc : Word
  pad : BitVec 3
  blocksOk : Bool
  deriving DecidableEq, Repr

/-- What wakes a sleeping unit (R529). -/
inductive WakeBy where
  | write (src : Src)
  | rxSignal
  deriving DecidableEq, Repr

/-- The commands. -/
inductive Instr where
  /-- RESET_ASSERT (R516). RESET_N goes low and the device holds its outputs in their reset states. -/
  | resetAssert
  /-- RESET_RELEASE (R517). RESET_N rises and the blocks start bring-up toward the states and times of R517. -/
  | resetRelease (cfgmode : Bool)
  /-- REGISTER_WRITE (R9). A write to a register that has no row of its own sets its fields according to their access types. -/
  | registerWrite (src : Src) (a : RegAddr) (size : Nat) (v : Word)
  /-- READ_CLEAR (R9). A read of a read-clear field returns its value and then clears it, unless the access is ignored or comes from a non-Postmaster engine. -/
  | readClear (rd : Reader) (a : RegAddr)
  /-- MONITOR_WINDOW_END (R33). The fabric rate monitor window ends, and SYS_FABRATE and SYS_FABMIN are updated. -/
  | monitorWindowEnd (count : BitVec 16)
  /-- SCRUB_READ (R39). The background scrubber reads a protected word and corrects it where needed. -/
  | scrubRead (loc : ScrubLoc) (upset : List (Fin 36 × Byte)) (passEnd : Bool)
  /-- LATE_COMMAND (R30). A timed command reaches the fire and timing logic too late; it is not executed, it is counted, and it takes the action for its kind. -/
  | lateCommand (i : Nat) (t : Nat)
  /-- TIMED_QUEUE_ENTRY_FREED (R31). An entry of the timed command queue frees and the stalled FSQ pipeline resumes. -/
  | timedQueueEntryFreed
  /-- FIRE_SLOT (R46). A queued fire command reaches its device time, and each output it names either fires or is skipped, with one journal entry per slot. -/
  | fireSlot
  /-- PULSE_TRAILING_EDGE (R45). A fire pulse ends WIDTH coarse ticks after its leading edge, and any row change waiting for it follows. -/
  | pulseTrailingEdge (n : Fin 64)
  /-- BUDGET_TOKEN_ADD (R47). Every 100 coarse ticks one token is added to the aggregate fire budget, up to 64. -/
  | budgetTokenAdd
  /-- ROW_CHANGE (R50). A queued row command acts: all rows go low and blanking starts. -/
  | rowChange
  /-- ROW_SELECT_RISE (R50). 160 coarse ticks after a row change, the new ROW output goes high. -/
  | rowSelectRise
  /-- BLANKING_END (R50). The blanking interval of a row change ends and fires may proceed. -/
  | blankingEnd
  /-- CHAIN_GO (R67). A GO copies a chain image into the chain buffer and starts sending the chain frame on EDQ. -/
  | chainGo (src : Src) (image : Fin 8) (t : Nat)
  /-- CHAIN_RESULT (R63). The EDR decode window closes and the chain frame result is recorded, with the fault action of R65 where the result is not OK. -/
  | chainResult (edr : List (Nat × Nat))
  /-- LATCH_GUARD_START (R66). 45 µs after the last falling edge of a chain frame, the latch guard begins skipping fires. -/
  | latchGuardStart
  /-- LATCH_GUARD_END (R66). 60 µs after the last falling edge of a chain frame, the latch guard ends and a new frame is allowed. -/
  | latchGuardEnd
  /-- DERATE_IMAGE_SEND (R77). A chain image named by a newly selected derating entry is sent once any frame in progress has cleared its latch guard. -/
  | derateImageSend (t : Nat)
  /-- TFLT_ASSERT (R69). TFLT_N is taken as asserted after 1 µs low; a fault record is raised and the TFACT action applies. -/
  | tfltAssert
  /-- TFLT_RELEASE (R69). TFLT_N is taken as released after 1 µs high, and the release delay of TFACT 1 starts. -/
  | tfltRelease
  /-- THERMAL_RESUME (R69). 1 ms after a release under TFACT 1, fires resume. -/
  | thermalResume
  /-- TFACT_WRITE (R607). A write to EMI_CFG.TFACT changes the thermal action at once for every later slot. -/
  | tfactWrite (src : Src) (v : Word)
  /-- DERATE_ENABLE (R72). A write of EMI_DRCFG.EN = 1 takes the converter input and starts derating from entry 0, unless it is ignored. -/
  | derateEnable (src : Src) (v : Word)
  /-- PERMIT_EDGE (R78). An edge on PERMIT_IN is judged valid or too fast; a valid edge restarts the watchdog and may set PERMOK. -/
  | permitEdge (level : Bool) (t : Nat)
  /-- PERMIT_ACK_TOGGLE (R79). PERMIT_ACK toggles 1,600 coarse ticks after a valid permit edge. -/
  | permitAckToggle (t : Nat)
  /-- PERMIT_WATCHDOG_EXPIRE (R81). No valid permit edge for 10.1 µs: fire outputs are inhibited, PTRIP is latched, PERMOK is cleared and a fault record is raised. -/
  | permitWatchdogExpire (t : Nat)
  /-- REARM (R84). A write of EMI_CTRL.REARM = 1 clears PTRIP, TFLATCH and CHFLT when its conditions hold. -/
  | rearm (src : Src) (arm : Bool)
  /-- ARM (R91). A write of EMI_CTRL.ARM = 1 arms emission when every condition holds. -/
  | arm (src : Src)
  /-- DISARM (R92). A write of EMI_CTRL.ARM = 0 disarms emission at once, letting a pulse in progress complete. -/
  | disarm (src : Src)
  /-- HARD_INHIBIT_ASSERT (R85). EMI_INH_N falls and every fire output is made inactive within 100 ns. -/
  | hardInhibitAssert
  /-- HARD_INHIBIT_RELEASE (R85). EMI_INH_N rises; only fires at least 1 µs later may fire. -/
  | hardInhibitRelease (t : Nat)
  /-- RETURN_CROSSING (R103). A comparator crossing on a return or spare channel is stamped as a Postmark, or lost to dead time. -/
  | returnCrossing (ch : Fin 512) (via : Via) (rising : Bool) (t : Nat) (f : Fin 64) (hit : Bool) (selfOk : Bool)
  /-- TOT_TIMEOUT (R101). 255 coarse ticks after a rising crossing without a fall, the word carrying the rising stamp is formed with TOT 255. -/
  | totTimeout (ch : Fin 512) (hit : Bool)
  /-- SATURATION_DETECT (R117). An input stays above its high threshold for 32 coarse ticks, the pulse takes SATB and the group's NSAT window opens. -/
  | saturationDetect (ch : Fin 512)
  /-- NSAT_WINDOW_END (R118). 56 coarse ticks after the last saturated input falls, the group's NSAT recovery window ends. -/
  | nsatWindowEnd (g : Fin 16)
  /-- RET_THR_WRITE (R97). A write to RET_THR is checked against R96 and TAUTO, and the parts it may change are made pending. -/
  | retThrWrite (src : Src) (ch : Fin 512) (v : Word)
  /-- SHOT_BOUNDARY_APPLY (R98). At a channel's shot boundary, pending thresholds, slope, coincidence settings and tables take effect. -/
  | shotBoundaryApply (ch : Fin 512)
  /-- DLL_UNLOCK (R105). A group or start-channel DLL loses lock; fine codes become invalid and the group's events are discarded. -/
  | dllUnlock (g : Fin 17)
  /-- DLL_LOCK (R105). A DLL locks; calibration starts where it is the first lock after reset. -/
  | dllLock (g : Fin 17)
  /-- START_CROSSING (R108). A rising crossing on a start input is stamped by its start channel. -/
  | startCrossing (st : Fin 4) (t : Nat) (f : Fin 64) (selfOk : Bool)
  /-- START_PAIRING (R109). Once device time reaches the crossing plus PWIN, the start crossing is given to the fire whose predicted start is nearest. -/
  | startPairing (st : Fin 4) (t : Nat)
  /-- PAIRING_WINDOW_CLOSE (R110). A shot's pairing window closes without a crossing; the shot uses its predicted start and the miss run is updated. -/
  | pairingWindowClose (slot : Nat)
  /-- PATH_FAULT_DECLARE (R533). Four self-check failures in 1,024 stamps cause the path to be declared faulted within 1 µs, with spare handover, out-of-service or spare retirement. -/
  | pathFaultDeclare (p : Path)
  /-- SPARE_SWITCHOVER (R121). At the target's first shot boundary after t0 + 160 ns, the spare's events replace the target's. -/
  | spareSwitchover (k : Fin 16) (t : Nat)
  /-- SPARE_FORCED_HANDOVER (R121). 16 µs after a replacement request without a switchover, the handover is forced and cut shots go to acquisition replay. -/
  | spareForcedHandover (k : Fin 16) (t : Nat)
  /-- SPARE_RETIRE (R127). A write of RGP_SPCk.RETIRE declares channel RCHAN faulted, unless it already has a replaced or out-of-service status. -/
  | spareRetire (src : Src) (k : Fin 16) (v : Word)
  /-- CALIBRATION_HANDBACK (R123). At the target's first shot boundary after its calibration, its own events and new tables replace the spare's and the spare returns to NONE. -/
  | calibrationHandback (k : Fin 16)
  /-- COINCIDENCE_DECISION (R162). Once the late side of its window has been delivered, a gated event passes or fails the n-of-m coincidence test. -/
  | coincidenceDecision (g : Fin 16)
  /-- EVENT_ACCUMULATE (R145). An event is assigned to its shot and context and added to its coarse bin and any fine windows, or counted as not added. -/
  | eventAccumulate (g : Fin 16)
  /-- LOSS_RECORD_REACHED (R169). The accumulator reaches a loss record and marks the overlapping contexts LOST. -/
  | lossRecordReached (g : Fin 16)
  /-- GATE_OPEN (R392). A queued gate command opens gates on the mapped channels of the masked emitters, each gate belonging to one fire slot. -/
  | gateOpen
  /-- GATE_CLOSE (R611). A gate reaches the end of its length and closes on its channel. -/
  | gateClose (ch : Fin 512) (t : Nat)
  /-- SHOT_COMPLETE (R134). A shot's gates have closed and its events have been added; SLOTS and FIRED advance and may trigger zoom, a partial copy or the close. -/
  | shotComplete (slot : Nat)
  /-- ZOOM_PLACEMENT_COMPLETE (R151). Placement completes; the windows receive events of later fired shots, or late placement is recorded. -/
  | zoomPlacementComplete (slot : Nat) (t : Nat)
  /-- CONTEXT_OPEN (R129). A queued CTXO acts and opens contexts under the map in force, or emits a SKIP mark. -/
  | contextOpen
  /-- CONTEXT_CLOSE_COMMAND (R135). A queued CTXC acts and closes the open contexts of its emitter once any shot in progress completes. -/
  | contextCloseCommand
  /-- MAP_TAKES_EFFECT (R160). A queued MAP command acts and its map comes into force for later slots. -/
  | mapTakesEffect
  /-- MARK_ACTS (R340). A queued MARK acts at its device time, advancing the context frame and column values and bringing pending changes into force at a frame mark. -/
  | markActs
  /-- LANE_PASS_START (R200). A free Decanter lane takes the next closed context, replay or early partial in the order of R42. -/
  | lanePassStart (lane : Fin 16)
  /-- CLOSE_PASS_COMPLETE (R190). A close or replay pass completes and hands its candidate block to the Point Engine dispatch. -/
  | closePassComplete (lane : Fin 16)
  /-- EARLY_PASS_COMPLETE (R193). An early pass completes and hands on an EARLY block only when the confidence test passes and candidates are found. -/
  | earlyPassComplete (lane : Fin 16)
  /-- LANE_CHECK_FAIL (R203). A lane's residue shadow mismatches; the pass is abandoned and the lane is retired. -/
  | laneCheckFail (lane : Fin 16)
  /-- DEC_CHECK (R196). A write of DEC_CHECK.GO validates a Decanter set and publishes its group delay and noise gain. -/
  | decCheck (src : Src) (v : Word)
  /-- DEC_SEL (R197). A write to DEC_SEL makes a valid set pending for the next frame mark. -/
  | decSel (src : Src) (v : Word)
  /-- DISPATCH_STAGE (R349). The dispatcher fills an empty staging slot with the next block in order and reads its budget. -/
  | dispatchStage
  /-- DISPATCH_START (R350). An engine whose current dispatch has ended starts its staged dispatch with the state of R350. -/
  | dispatchStart (n : Fin 16)
  /-- BACKGROUND_SLICE_START (R349). An idle engine with no dispatch waiting starts a background slice at the BACKGROUND entry. -/
  | backgroundSliceStart (n : Fin 16)
  /-- BUDGET_CUT (R212). A kernel or background slice would exceed its budget and is cut, with fallback emission for a pixel. -/
  | budgetCut (n : Fin 16)
  /-- ZONE_RECORD (R232). The zone monitor processes a record against the zone map and updates zone states, outputs and ZTRIP or ZCLEAR records. -/
  | zoneRecord (t : Nat)
  /-- ZONE_HOLD_EXPIRE (R234). A zone output's hold time runs out; FIRM zones clear with EXPIRED and the output may deassert. -/
  | zoneHoldExpire (n : Fin 4) (t : Nat)
  /-- ZONE_MAP_SELECT (R230). A write to PNT_ZSEL names the zone map to come into force at the next frame mark. -/
  | zoneMapSelect (src : Src) (v : Word)
  /-- FINE_TABLE_CANDIDATE (R239). A path gathers 640,000 qualifying events and forms a candidate fine table, which is rejected or adopted. -/
  | fineTableCandidate (p : Path)
  /-- SWEEP_DWELL_END (R244). A threshold sweep step ends, and the sweep moves on, succeeds or fails. -/
  | sweepDwellEnd (ch : Fin 512)
  /-- SWEEP_RETRY (R244). 1.024 s after a failed sweep, the sweep is repeated. -/
  | sweepRetry (ch : Fin 512)
  /-- RATE_WINDOW_END (R245). A RET_RATE window ends; RET_RATE, the threshold servo, ZNOW, the stale test and the stuck test are updated. -/
  | rateWindowEnd (p : Path) (temp : BitVec 16)
  /-- ZERO_WRITE (R250). A write of CAL_ZWR.GO sets Z0 and TZ of a channel and recomputes ZNOW. -/
  | zeroWrite (src : Src) (v : Word)
  /-- CAL_LOAD (R257). A write of CAL_CTRL.LOAD merges the staged calibration records, sets LOADED and sets CAL_EPOCH. -/
  | calLoad (src : Src)
  /-- UNCALIBRATED_TIMEOUT (R260). 2 s after DLL lock without a fine table, a channel becomes UNCALIBRATED. -/
  | uncalibratedTimeout (ch : Fin 512)
  /-- RECAL_START (R262). A queued recalibration of a stale start, spare or trim path starts once its conditions hold. -/
  | recalStart (p : Path) (t : Nat)
  /-- START_RECAL_REQUEST (R263). A CAL_REQ write with START = 1 requests recalibration of a start path, or is ignored. -/
  | startRecalRequest (src : Src) (v : Word) (t : Nat)
  /-- START_RECAL_SWITCH (R263). With no pairing window open, or at t0 + 16 µs, STCS takes the start input and the start channel is connected to the donor. -/
  | startRecalSwitch (t : Nat)
  /-- START_RECAL_HANDBACK (R263). After adoption, and with no pairing window open, the input returns to its start channel and STCS is released. -/
  | startRecalHandback (t : Nat)
  /-- RECAL_TIMEOUT (R267). A start or trim recalibration reaches its 2 s limit without adoption and is handed back with its old table. -/
  | recalTimeout (p : Path)
  /-- RECAL_REQUEUE (R263). 1.024 s after a timed-out start recalibration, the recalibration is queued again. -/
  | recalRequeue (st : Fin 4)
  /-- TRIM_RECAL_REQUEST (R266). A CAL_REQ write with TRIM = 1 requests a trim recalibration of a channel, or is ignored. -/
  | trimRecalRequest (src : Src) (v : Word) (t : Nat)
  /-- TRIM_PASS_END (R267). A trim pass of 160,000 events ends and each out-of-range tap trim moves one step toward nominal. -/
  | trimPassEnd (ch : Fin 512)
  /-- AXIS_ENABLE (R301). A write of AXS_CTRLa.EN = 1 enables the axis and takes its converter input and slots, unless it is ignored. -/
  | axisEnable (src : Src) (a : Fin 4) (v : Word)
  /-- AXIS_DISABLE (R301). A write of EN = 0 sends one SAFE frame and stops the axis. -/
  | axisDisable (src : Src) (a : Fin 4) (v : Word)
  /-- AXIS_CLEAR (R300). A write of AXS_CTRLa.CLR clears the fault at the next sample instant and the axis restarts. -/
  | axisClear (src : Src) (a : Fin 4) (v : Word)
  /-- AXIS_SAMPLE (R270). At a sample instant, the axis sensor is sampled, the limiter plans two periods ahead and the drive frame of the period is requested. -/
  | axisSample (a : Fin 4) (t : Nat)
  /-- LAW_COMPUTE (R278). When the sample code is available, the law engine computes the drive word, region schedule and crossing times of the period. -/
  | lawCompute (a : Fin 4)
  /-- LAW_DEADLINE (R274). 64 coarse ticks before the next sample the law has not completed; the previous word repeats and the overrun is counted. -/
  | lawDeadline (a : Fin 4) (t : Nat)
  /-- DRIVE_FRAME (R304). A requested drive frame starts on the first free DRVCLK falling edge and is sent. -/
  | driveFrame (t : Nat)
  /-- DRIVE_ACK (R308). An acknowledgement received on DRVACK acknowledges the oldest frame or is discarded. -/
  | driveAck (axis : Fin 4) (seq : BitVec 2) (stat : Bool) (t : Nat)
  /-- ACK_TIMEOUT (R309). A drive frame is not acknowledged within 2 µs and is counted as missing. -/
  | ackTimeout (t : Nat)
  /-- RESONANT_CYCLE_END (R293). The resonant phase wraps; the amplitude is formed and tracking updates FTW. -/
  | resonantCycleEnd (a : Fin 4) (t : Nat)
  /-- FTW_WRITE (R291). A write to AXS_FTWa changes the oscillator increment, keeping the phase continuous, unless it is ignored. -/
  | ftwWrite (src : Src) (a : Fin 4) (v : Word)
  /-- SETPOINT_WRITE (R286). A write to AXS_SETa records a raw set-point for the next sample instant, or is counted as ignored. -/
  | setpointWrite (src : Src) (a : Fin 4) (v : Word)
  /-- AXIS_RECORD_GO (R283). A write of AXS_RECa.GO makes a law record pending for the first sample after the next frame mark. -/
  | axisRecordGo (src : Src) (a : Fin 4) (v : Word)
  /-- SCHEDULE_ENABLE (R284). A write of AXS_SCHEDa.EN = 1 starts gain scheduling in SOLO, unless it is ignored. -/
  | scheduleEnable (src : Src) (a : Fin 4) (v : Word)
  /-- TRACE_CONFIG (R310). A write to AXS_TRCa sets or releases an axis trace region in the Cellar. -/
  | traceConfig (src : Src) (a : Fin 4) (v : Word)
  /-- HOUSEKEEPING_STEP (R319). At a step instant each converter raises its DERATE and next HOST conversion requests. -/
  | housekeepingStep (t : Nat)
  /-- CONVERSION_START (R318). A converter starts a pending conversion on a common trigger edge that the slot plan allows. -/
  | conversionStart (n : Fin 4) (t : Nat)
  /-- CONVERSION_COMPLETE (R323). A conversion's code is available and is written to SNS_RESn_m and given to the input's owner; v is the
  voltage that the input had, in nV. -/
  | conversionComplete (n : Fin 4) (v : Int) (t : Nat)
  /-- CONVERSION_REQUEST (R322). A write of SNS_CONV.GO requests an on-demand conversion and sets BUSY. -/
  | conversionRequest (src : Src) (v : Word)
  /-- HKMASK_WRITE (R316). A write to SNS_HKMASKn takes or releases HOST housekeeping inputs, unless it is ignored. -/
  | hkmaskWrite (src : Src) (n : Fin 4) (v : Word)
  /-- CHECK_START (R326). A write of SNS_CHK.GO starts a CHKDAC check and sets BUSY. -/
  | checkStart (src : Src) (v : Word) (t : Nat)
  /-- CHECK_SETTLED (R326). At least 2 µs after a check starts, the check raises its conversion request. -/
  | checkSettled (t : Nat)
  /-- METER_ENABLE (R333). A write of SNS_FMCFGi.EN = 1 starts a frequency meter and its gates, unless it is ignored. -/
  | meterEnable (src : Src) (i : Fin 8) (v : Word) (t : Nat)
  /-- METER_STAMP (R330). A stamp from a meter's source is prescaled and accepted or discarded for rate. -/
  | meterStamp (i : Fin 8) (x : Nat)
  /-- STAMP_POST (R334). A write to SNS_FMPOSTi posts a Postmark as a meter stamp. -/
  | stampPost (src : Src) (i : Fin 8) (v : Word) (t : Nat)
  /-- METER_GATE_END (R331). A meter's gate ends; its stamps are fitted by least squares and the results are published. -/
  | meterGateEnd (i : Fin 8)
  /-- FSQ_RUN (R336). A write of SEQ_CTRL.RUN = 1 starts the stopped FSQ at START with cleared registers. -/
  | fsqRun (src : Src) (v : Word) (t : Nat)
  /-- FSQ_STOP (R342). A write of SEQ_CTRL.RUN = 0 stops the FSQ after its current instruction. -/
  | fsqStop (src : Src) (v : Word)
  /-- FSQ_STOP_FLUSH (R342). Once no queued command remains after a stop, every OPEN or ZOOM context is closed as by a late command. -/
  | fsqStopFlush (t : Nat)
  /-- FSQ_BANK_GO (R365). A write of SEQ_BANK.FGO puts FSEL in force, or makes it pending for the next MARK FRAME. -/
  | fsqBankGo (src : Src) (v : Word)
  /-- PE_BANK_GO (R366). A write of SEQ_BANK.PGO puts PSEL in force, or makes it pending for the next frame mark. -/
  | peBankGo (src : Src) (v : Word)
  /-- POSTMASTER_HANDOVER (R371). After the Postmaster is retired, the highest engine in service finishes its dispatch and starts the management program. -/
  | postmasterHandover
  /-- WAITA_RESUME (R339). An axis publishes a crossing at or after TC; the stalled WAITA or SYNCW sets TC and writes its predicate 1. -/
  | waitaResume
  /-- WAIT_TIMEOUT (R339). Device time reaches TC + SEQ_WTMO without a crossing; the WAITA or SYNCW ends with its predicate 0. -/
  | waitTimeout (t : Nat)
  /-- NOP (R379). The NOP instruction does nothing. -/
  | nop (e : Eng) (p : Pred)
  /-- BR (R380). The BR instruction branches to a word index in the bank. -/
  | br (e : Eng) (p : Pred) (target : BitVec 16)
  /-- BL (R380). The BL instruction saves the return index and branches. -/
  | bl (e : Eng) (p : Pred) (rl : BitVec 5) (target : BitVec 16)
  /-- JR (R380). The JR instruction branches to the index held in a register. -/
  | jr (e : Eng) (p : Pred) (ra : BitVec 6)
  /-- LOOP (R343). The LOOP instruction starts a hardware loop level with a count. -/
  | iLoop (e : Eng) (p : Pred) (count : LoopCount) (last : BitVec 16)
  /-- LOOPR (R344). The LOOPR instruction starts a rotating hardware loop on a Point Engine. -/
  | loopr (e : Eng) (p : Pred) (count : LoopCount) (last : BitVec 16)
  /-- LI (R379). The LI instruction loads an immediate into a register. -/
  | li (e : Eng) (p : Pred) (rd : BitVec 6) (imm : Imm 15)
  /-- ADDI (R379). The ADDI instruction adds an immediate to a register. -/
  | addi (e : Eng) (p : Pred) (rd : BitVec 6) (ra : BitVec 6) (imm : Imm 9)
  /-- MOV (R379). The MOV instruction copies a register. -/
  | mov (e : Eng) (p : Pred) (rd : BitVec 6) (ra : BitVec 6)
  /-- TSTI (R379). The TSTI instruction sets a predicate from a comparison with an immediate. -/
  | tsti (e : Eng) (p : Pred) (qd : BitVec 3) (cond : Cond) (ra : BitVec 6) (imm : Imm 9)
  /-- PLOG (R379). The PLOG instruction combines two predicates logically. -/
  | plog (e : Eng) (p : Pred) (qd : BitVec 3) (qa : BitVec 3) (qb : BitVec 3) (fn : BitVec 2)
  /-- END (R353). The END instruction ends the dispatch and hands on its records. -/
  | iEnd (e : Eng) (p : Pred)
  /-- TRAP (R359). The TRAP instruction takes the SOFT trap. -/
  | iTrap (e : Eng) (p : Pred)
  /-- RFT (R386). The RFT instruction returns from the trap handler to TPC and clears INTRAP. -/
  | rft (e : Eng) (p : Pred)
  /-- MFS (R385). The MFS instruction reads a special register. -/
  | mfs (e : Eng) (p : Pred) (rd : BitVec 6) (sr : BitVec 5)
  /-- MTS (R385). The MTS instruction writes a special register, including PBANK and loop counters. -/
  | mts (e : Eng) (p : Pred) (ra : BitVec 6) (sr : BitVec 5)
  /-- XLD (R387). The XLD instruction loads a word from a program address. -/
  | xld (e : Eng) (p : Pred) (rd : BitVec 6) (ra : BitVec 6) (disp : Imm 9)
  /-- XST (R387). The XST instruction stores a word to a program address. -/
  | xst (e : Eng) (p : Pred) (rs : BitVec 6) (ra : BitVec 6) (disp : Imm 9)
  /-- FIRE (R389). The FIRE instruction queues a fire command for a mask of outputs with the unit's own dither. -/
  | fire (e : Eng) (p : Pred) (ra : BitVec 6) (off : Option Word)
  /-- FIREC (R391). The FIREC instruction queues a fire command with an explicit dither. -/
  | firec (e : Eng) (p : Pred) (ra : BitVec 6) (rc : BitVec 6) (off : Option Word)
  /-- ROW (R389). The ROW instruction queues a row command. -/
  | iRow (e : Eng) (p : Pred) (row : BitVec 4) (off : Option Word)
  /-- GATE (R392). The GATE instruction queues a gate command with a length. -/
  | gate (e : Eng) (p : Pred) (ra : BitVec 6) (rl : BitVec 6) (off : Option Word)
  /-- MAP (R389). The MAP instruction queues a map selection command. -/
  | iMap (e : Eng) (p : Pred) (m : BitVec 3) (off : Option Word)
  /-- CTXO (R393). The CTXO instruction queues a context open command for an emitter with a shot count. -/
  | ctxo (e : Eng) (p : Pred) (ra : BitVec 6) (nshot : BitVec 8) (off : Option Word)
  /-- CTXC (R393). The CTXC instruction queues a context close command for an emitter. -/
  | ctxc (e : Eng) (p : Pred) (ra : BitVec 6) (off : Option Word)
  /-- SETPT (R286). The SETPT instruction queues a raw set-point for an axis. -/
  | setpt (e : Eng) (p : Pred) (ra : BitVec 6) (axis : BitVec 2) (off : Option Word)
  /-- MARK (R340). The MARK instruction queues a frame or column mark and updates the FSQ FRAME and COLUMN registers. -/
  | mark (e : Eng) (p : Pred) (column : Bool) (off : Option Word)
  /-- WAITT (R394). The WAITT instruction moves the time cursor in relative or absolute form. -/
  | waitt (e : Eng) (p : Pred) (form : WaitForm)
  /-- WAITA (R339). The WAITA instruction stalls until an axis crossing time is published. -/
  | waita (e : Eng) (p : Pred) (ra : BitVec 6) (axis : BitVec 2) (dir : BitVec 2) (qd : BitVec 3)
  /-- SYNCW (R339). The SYNCW instruction stalls until a frame-marker time at or after TC. -/
  | syncw (e : Eng) (p : Pred) (qd : BitVec 3)
  /-- ADD (R397). The ADD instruction adds two registers or a register and an immediate, wrapping. -/
  | add (e : Eng) (p : Pred) (rd : BitVec 6) (ra : BitVec 6) (b : AluSrc)
  /-- SUB (R397). The SUB instruction subtracts, wrapping. -/
  | sub (e : Eng) (p : Pred) (rd : BitVec 6) (ra : BitVec 6) (b : AluSrc)
  /-- ADDS (R397). The ADDS instruction adds with 32-bit saturation. -/
  | adds (e : Eng) (p : Pred) (rd : BitVec 6) (ra : BitVec 6) (b : AluSrc)
  /-- SUBS (R397). The SUBS instruction subtracts with 32-bit saturation. -/
  | subs (e : Eng) (p : Pred) (rd : BitVec 6) (ra : BitVec 6) (b : AluSrc)
  /-- AND (R397). The AND instruction forms a bitwise AND. -/
  | iAnd (e : Eng) (p : Pred) (rd : BitVec 6) (ra : BitVec 6) (b : AluSrc)
  /-- OR (R397). The OR instruction forms a bitwise OR. -/
  | iOr (e : Eng) (p : Pred) (rd : BitVec 6) (ra : BitVec 6) (b : AluSrc)
  /-- XOR (R397). The XOR instruction forms a bitwise XOR. -/
  | iXor (e : Eng) (p : Pred) (rd : BitVec 6) (ra : BitVec 6) (b : AluSrc)
  /-- SHL (R398). The SHL instruction shifts left with zero fill. -/
  | shl (e : Eng) (p : Pred) (rd : BitVec 6) (ra : BitVec 6) (b : ShSrc)
  /-- SHR (R398). The SHR instruction shifts right with zero fill. -/
  | shr (e : Eng) (p : Pred) (rd : BitVec 6) (ra : BitVec 6) (b : ShSrc)
  /-- SHRA (R398). The SHRA instruction shifts right arithmetically. -/
  | shra (e : Eng) (p : Pred) (rd : BitVec 6) (ra : BitVec 6) (b : ShSrc)
  /-- SHLS (R398). The SHLS instruction shifts left with saturation. -/
  | shls (e : Eng) (p : Pred) (rd : BitVec 6) (ra : BitVec 6) (b : ShSrc)
  /-- NORM (R400). The NORM instruction counts the redundant sign bits of a register or accumulator. -/
  | norm (e : Eng) (p : Pred) (rd : BitVec 6) (src : NormSrc)
  /-- EXPB (R400). The EXPB instruction returns the least sign-bit count over a block of registers. -/
  | expb (e : Eng) (p : Pred) (rd : BitVec 6) (ra : BitVec 6) (n : BitVec 6)
  /-- CMP (R397). The CMP instruction sets a predicate from a register comparison. -/
  | cmp (e : Eng) (p : Pred) (qd : BitVec 3) (cond : Cond) (ra : BitVec 6) (b : CmpSrc)
  /-- SEL (R397). The SEL instruction selects one of two registers by a predicate. -/
  | sel (e : Eng) (p : Pred) (rd : BitVec 6) (ra : BitVec 6) (rb : BitVec 6) (qp : BitVec 3)
  /-- MUL (R397). The MUL instruction gives the low 32 bits of a signed product. -/
  | mul (e : Eng) (p : Pred) (rd : BitVec 6) (ra : BitVec 6) (rb : BitVec 6)
  /-- MULS (R397). The MULS instruction gives a saturated 32-bit product. -/
  | muls (e : Eng) (p : Pred) (rd : BitVec 6) (ra : BitVec 6) (rb : BitVec 6)
  /-- MULHS (R397). The MULHS instruction gives the high 32 bits of a signed product. -/
  | mulhs (e : Eng) (p : Pred) (rd : BitVec 6) (ra : BitVec 6) (rb : BitVec 6)
  /-- DIV (R399). The DIV instruction divides signed values, truncating. -/
  | div (e : Eng) (p : Pred) (rd : BitVec 6) (ra : BitVec 6) (rb : BitVec 6)
  /-- DIVU (R399). The DIVU instruction divides unsigned values, truncating. -/
  | divu (e : Eng) (p : Pred) (rd : BitVec 6) (ra : BitVec 6) (rb : BitVec 6)
  /-- MAC (R402). The MAC instruction adds lane products into accumulators. -/
  | mac (e : Eng) (p : Pred) (an : BitVec 3) (ra : BitVec 6) (rb : BitVec 6) (w : BitVec 2) (red : Bool) (u : Bool)
  /-- MACS (R402). The MACS instruction subtracts lane products from accumulators. -/
  | macs (e : Eng) (p : Pred) (an : BitVec 3) (ra : BitVec 6) (rb : BitVec 6) (w : BitVec 2) (red : Bool) (u : Bool)
  /-- MTA (R401). The MTA instruction loads or clears an accumulator. -/
  | mta (e : Eng) (p : Pred) (an : BitVec 3) (ra : BitVec 6) (sh : BitVec 6) (z : Bool)
  /-- MOVA (R403). The MOVA instruction moves a scaled, saturated accumulator to a register. -/
  | mova (e : Eng) (p : Pred) (rd : BitVec 6) (an : BitVec 3)
  /-- LD (R405). The LD instruction loads a byte, half or word with offset, post-increment, modulo or bit-reversed addressing. -/
  | ld (e : Eng) (p : Pred) (rd : BitVec 6) (pa : BitVec 4) (sz : BitVec 2) (am : BitVec 2) (sx : Bool) (off : Imm 6)
  /-- ST (R405). The ST instruction stores a byte, half or word with the addressing modes of LD. -/
  | iSt (e : Eng) (p : Pred) (rs : BitVec 6) (pa : BitVec 4) (sz : BitVec 2) (am : BitVec 2) (off : Imm 6)
  /-- HLD (R408). The HLD instruction loads histogram bins of the current dispatch's context. -/
  | hld (e : Eng) (p : Pred) (rd : BitVec 6) (pa : BitVec 4) (reg : BitVec 3) (n : BitVec 2) (pi : Bool)
  /-- EMIT (R409). The EMIT instruction sends a record image as a record of its type, or is ignored. -/
  | emit (e : Eng) (p : Pred) (type : BitVec 8) (pa : BitVec 4) (ang : Bool)
  /-- PMOV (R404). The PMOV instruction sets, copies or adjusts an address register. -/
  | pmov (e : Eng) (p : Pred) (pd : BitVec 4) (ra : BitVec 6) (fn : BitVec 2) (imm : Imm 9)
  /-- STREAM_JOB_FLUSH (R424). FLUSH µs after a stream job opened, the job closes. -/
  | streamJobFlush (vc : PVc) (t : Nat)
  /-- PRESS_JOB_START (R434). A free Press engine takes closed work in the order of R434, checking host descriptors at submission. -/
  | pressJobStart (e : Fin 4)
  /-- PRESS_JOB_COMPLETE (R415). A Press job finishes compressing or decompressing, with the outcome OK, OVERFLOW, FORMAT, fallback or drop. -/
  | pressJobComplete (e : Fin 4)
  /-- PRESS_FAULT (R435). A Press engine's shadow decode mismatches or its dictionary has a parity error; the job is abandoned and the engine retired. -/
  | pressFault (e : Fin 4)
  /-- PRESS_HPROD_WRITE (R430). A write to PRS_HPROD submits host job descriptors to the Press ring. -/
  | pressHprodWrite (src : Src) (v : Word)
  /-- STREAM_PRESS_CONFIG (R421). A write to PRS_SCFGv sets stream compression and checks the static table it names. -/
  | streamPressConfig (src : Src) (vc : PVc) (v : Word)
  /-- LANE_PLL_LOCK (R440). A TX lane PLL locks and the lane goes to DETECT. -/
  | lanePllLock (l : Fin 4)
  /-- RECEIVER_DETECT (R440). Every 100 µs a TX lane in DETECT tests for the partner's termination. -/
  | receiverDetect (l : Fin 4) (found : Bool)
  /-- TRAIN_END (R440). 1.0 ms of TS blocks ends and the TX lane goes to ANNOUNCE. -/
  | trainEnd (l : Fin 4)
  /-- ANNOUNCE_END (R440). 200 µs of CAP messages ends and the TX lane becomes ACTIVE. -/
  | announceEnd (l : Fin 4) (t : Nat)
  /-- CAP_SEND (R440). Every 100 µs an ACTIVE TX lane sends a CAP message between frames. -/
  | capSend (l : Fin 4)
  /-- SIGNAL_DETECT (R441). A signal is detected on an RX lane; it starts training, and wakes the unit when RXWAKE is set. -/
  | signalDetect (l : Fin 4)
  /-- RX_ADAPTED (R441). An RX lane finishes adaptation and seeks block lock. -/
  | rxAdapted (l : Fin 4)
  /-- BLOCK_LOCK (R438). An RX lane gains block lock and goes to CAP. -/
  | blockLock (l : Fin 4)
  /-- BLOCK_LOCK_LOSS (R441). An ACTIVE RX lane loses block lock and returns to TRAIN, discarding its partial frame. -/
  | blockLockLoss (l : Fin 4)
  /-- SIGNAL_LOSS (R441). An ACTIVE RX lane's signal is absent for 2 µs without EIDLE and it returns to TRAIN. -/
  | signalLoss (l : Fin 4)
  /-- RX_STAGE_TIMEOUT (R441). An RX stage reaches its time limit and the lane falls back, counted in STL_CNT9. -/
  | rxStageTimeout (l : Fin 4)
  /-- CAP_MESSAGE (R444). A capability message is received and validated, updating the upstream partner and the lane's progress toward ACTIVE. -/
  | capMessage (l : Fin 4) (msg : Vector Byte 24)
  /-- LANESTAT_SEND (R447). The receive port sends a LANESTAT frame on its periodic timer. -/
  | lanestatSend
  /-- LANESTAT (R448). A LANESTAT frame from the downstream partner updates which TX lanes are in use. -/
  | lanestat (active : BitVec 4) (t : Nat)
  /-- EIDLE_ENTRY (R449). After ENTRY µs with nothing to send, the transmit port sends EIDLE and stops driving its lanes. -/
  | eidleEntry (t : Nat)
  /-- EIDLE_EXIT (R450). The port leaves electrical idle on traffic or after MAX µs, sending the fast exit burst and a CAP message. -/
  | eidleExit (t : Nat)
  /-- EIDLE_RECEIVE (R451). An RX lane receives EIDLE and holds its adaptation while waiting. -/
  | eidleReceive (l : Fin 4)
  /-- FRAME_RECEIVE (R457). A whole frame is received, checked and consumed, forwarded or discarded. -/
  | frameReceive (l : Fin 4) (fr : RxFrame) (t : Nat)
  /-- FRAME_RELEASE (R462). A held forwarded frame is released in SEQ order once lower frames are released or lost. -/
  | frameRelease (vc : BitVec 2) (t : Nat)
  /-- FRAME_LOST (R463). A frame of a virtual channel is declared lost. -/
  | frameLost (vc : BitVec 2) (t : Nat)
  /-- FRAME_TRANSMIT_START (R464). A free TX lane chooses the next frame by VC priority and deficit round robin and starts it. -/
  | frameTransmitStart (l : Fin 4) (t : Nat)
  /-- VC1_INSERT (R466). A ready VC1 frame with no free lane is inserted into a lane's frame in progress at its next block boundary. -/
  | vc1Insert (t : Nat)
  /-- FRAME_SENT (R468). A frame's EOF or IEOF is sent and its records count as accepted. -/
  | frameSent (l : Fin 4) (t : Nat)
  /-- CREDIT (R469). A CREDIT frame from the gateway updates the cumulative grants. -/
  | credit (grant0 : Word) (grant3 : Word)
  /-- MGMT_RECEIVE (R474). A consumed MGMT frame is written to the management receive ring. -/
  | mgmtReceive (fr : RxFrame) (t : Nat)
  /-- RECORD_PATH_RESUME (R470). A full stream buffer gains room and the held record path resumes. -/
  | recordPathResume (vc : BitVec 2) (t : Nat)
  /-- LOSS_WINDOW_END (R473). A loss window ends and one LOSS record is sent for each cause and channel that discarded traffic. -/
  | lossWindowEnd (t : Nat)
  /-- RETRAIN (R440). A write of STL_CTRL.RETRAIN restarts every TX lane at DETECT and every RX lane at WAIT. -/
  | retrain (src : Src)
  /-- BAR2_READ (R41). A host or Postmaster read through BAR2 returns corrected data, or the stored bytes of an uncorrectable word. -/
  | bar2Read (src : Src) (off : BitVec 28) (len : Nat)
  /-- BAR2_WRITE (R484). A host or Postmaster write through BAR2 is made, or ignored as a whole under its region's or table's rule. -/
  | bar2Write (src : Src) (off : BitVec 28) (data : List Byte)
  /-- SQ_DOORBELL (R495). A write to an SQ tail doorbell submits commands, or is ignored. -/
  | sqDoorbell (src : Src) (q : Fin 8) (v : Word)
  /-- CQ_DOORBELL (R496). A write to a CQ head doorbell frees completion entries, or is ignored. -/
  | cqDoorbell (src : Src) (q : Fin 8) (v : Word)
  /-- QUEUE_ENABLE (R492). A write of HIF_QCFGq.EN = 1 enables a command queue with empty rings. -/
  | queueEnable (src : Src) (q : Fin 8) (v : Word)
  /-- QUEUE_DISABLE (R494). A write of EN = 0 stops a queue once its command in progress has completed. -/
  | queueDisable (src : Src) (q : Fin 8) (v : Word)
  /-- COMMAND_START (R500). A queue takes its next command, checks it and starts it, or ignores it. -/
  | commandStart (q : Fin 8) (entry : Vector Byte 64)
  /-- COMMAND_NOP (R499). The NOP command completes at once as a fence. -/
  | commandNop (q : Fin 8)
  /-- COMMAND_WRITE (R501). The WRITE command copies host memory to BAR2, refusing words that become protected. -/
  | commandWrite (q : Fin 8) (data : List Byte)
  /-- COMMAND_READ (R502). The READ command copies BAR2 to host memory, counting uncorrectable words. -/
  | commandRead (q : Fin 8)
  /-- COMMAND_FILL (R499). The FILL command writes a pattern over a BAR2 range. -/
  | commandFill (q : Fin 8)
  /-- DMA_ERROR (R503). A DMA read of host memory fails and the command stops with HOSTERR. -/
  | dmaError (q : Fin 8) (x : DmaFail)
  /-- COMPLETION_WRITE (R498). A command's completion is written when its CQ has a free entry, possibly triggering a CQ message. -/
  | completionWrite (q : Fin 8)
  /-- CQ_MESSAGE_TIMER (R511). CQTIME µs after the oldest unsignalled completion, a message is sent on the queue's vector. -/
  | cqMessageTimer (q : Fin 8)
  /-- EVENT_ENABLE_WRITE (R509). A write to HIF_EVEN enables vectors and sends a message for any enabled cause already pending. -/
  | eventEnableWrite (src : Src) (v : Word)
  /-- HOT_RESET (R487). A hot reset, link-down or secondary bus reset resets the configuration space and HIF and abandons commands. -/
  | hotReset
  /-- POWER_STATE_CHANGE (R488). The endpoint enters D3hot or returns to D0, holding or resuming queue processing and messages. -/
  | powerStateChange (d3 : Bool)
  /-- BME_CHANGE (R489). Bus Master Enable changes, stopping or resuming DMA and messages. -/
  | bmeChange (on : Bool)
  /-- TIMEBASE_LOCK (R517). The time-base PLL locks and device time starts or continues. -/
  | timebaseLock (us : BitVec 16)
  /-- PRESETS_PLACED (R523). In SOLO, the image's presets are placed and the stream lanes may leave DETECT and WAIT. -/
  | presetsPlaced (slot0 : List Byte) (slot1 : List Byte)
  /-- BOOT_COMPLETE (R524). Every section is placed and checked; RESULT is set and the Postmaster starts. -/
  | bootComplete (slot0 : List Byte) (slot1 : List Byte)
  /-- BOOT_FAIL (R525). Neither image slot passes authentication; RESULT is FAILED and no Point Engine starts. -/
  | bootFail (slot0 : List Byte) (slot1 : List Byte)
  /-- BOOTSTAT_SEND (R525). After a failed boot, a BOOTSTAT record is sent on VC3 when the port is ACTIVE and every 1.024 s. -/
  | bootstatSend (t : Nat)
  /-- KEY_LOCK (R526). A write of TBS_CFG.KLOCK = 1 in HOSTED fixes the key hash in fuses. -/
  | keyLock (src : Src) (v : Word)
  /-- SLEEP (R527). A write of TBS_CTRL.SLEEP = 1 stops the time base, converters and lanes when its conditions hold. -/
  | sleep (src : Src) (v : Word)
  /-- WAKE (R529). A write of TBS_CTRL.WAKE, or an RX signal with RXWAKE, wakes the unit and restarts its clocked parts. -/
  | wake (by_ : WakeBy)
  /-- FAULT_RECORD_WRITE (R536). At the end of a fault's isolation its record is written to the log and the vector 8 message follows. -/
  | faultRecordWrite (i : Nat) (t : Nat)
  /-- ROOT_EXPIRE (R540). 1 ms after a MEMORY root's detection, the root is no longer active. -/
  | rootExpire (m : Fin 8)
  /-- TIMEBASE_UNLOCK (R542). The time-base PLL loses lock; emission is disarmed, the timed queue flushed, the FSQ halted and open contexts closed. -/
  | timebaseUnlock
  /-- REPLAY_TIMEOUT (R554). RMAX ms after REACQ entry without all replay slots, the replay is given up and the context closes. -/
  | replayTimeout (slot : Nat) (t : Nat)
  /-- SYNC_EDGE (R565). A rising edge on SYNC_IN is accepted as a frame marker and latched, or refused for spacing. -/
  | syncEdge (t : Nat)
  /-- CORRELATION_WINDOW_START (R569). A correlation window starts and a marker entry is written to the suspect-event ring when there is room. -/
  | correlationWindowStart (w : Nat)
  /-- REPORT_SLOT (R574). At a report window's slot time, its pending ALIEN and UNIDENTIFIED notices are handed to VC3. -/
  | reportSlot (n : Nat)
  /-- IGNORED_READ (R11). A BAR0 read that is narrow, wide, unaligned or to an unassigned offset returns 0 and is counted in SYS_IGNORED with its address in SYS_IGNLAST. -/
  | ignoredRead (rd : Reader) (a : RegAddr) (size : Nat)
  /-- LATCHING_READ (R9). A read of SYS_DTLO, SEQ_TCLO or FLE_SYNCLO returns the low word and latches the matching high register. -/
  | latchingRead (rd : Reader) (off : BitVec 20)
  /-- ILLEGAL_INSTRUCTION (R374). An engine meets an instruction word with an undefined encoding, such as a reserved OP, and takes the ILLEGAL trap whatever its predicate. -/
  | illegalInstruction (e : Eng) (w : Word) (x : Word)
  /-- PCIE_LINK_UP (R508). The PCI Express link finishes training, SYS_STAT.PCIEUP and HIF_STAT change, and the vector 21 event follows. -/
  | pcieLinkUp (speed : BitVec 4) (width : BitVec 4)
  /-- EIDLE_RELOCK_TIMEOUT (R451). An RX lane whose signal returned after EIDLE has not regained block lock within the burst length plus 1,024 blocks and returns to TRAIN. -/
  | eidleRelockTimeout (l : Fin 4)
  /-- TEST_PORT_CLOCK (R584). A TCK edge advances the boundary-scan test logic; selecting EXTEST holds fire outputs inactive, ROW outputs low and disarms emission. -/
  | testPortClock (trst : Bool) (tms : Bool) (tdi : Bool)
  /-- TEST_RESET (R584). TRST_N goes low and the test logic is held reset, leaving EXTEST. -/
  | testReset
  /-- MSIX_UNMASK (R510). A host write to the MSI-X table in BAR4 unmasks a vector whose PBA bit is set, and the pending message is sent. -/
  | msixUnmask (vec : Fin 32)
  deriving DecidableEq, Repr

end Sys2Proof
end

