-- ==== Sys2Proof/Decode.lean ====
section
/-!
DEFINITION. The commands that words of the opcode table spell (none: the table gives its rows no bits), and the words of the
engines' instructions: their encoding and decoding (R372 to R404) and the faults that can be found from an instruction word, its
extension and the kind of engine alone (R605).
-/
namespace Sys2Proof

/-- The command that a word spells by the table's bits: no row of the table gives bits. -/
def decodeTableWord (_nbits _w : Nat) : Option Instr := none

/-! ### Fields of a word, most significant first -/

/-- The bits of a list of fields. -/
def fieldBits : List Nat → Nat
  | [] => 0
  | w :: ws => w + fieldBits ws

/-- The number that fields of given widths and values spell. -/
def packFields : List Nat → List Nat → Nat
  | w :: ws, v :: vs => v % 2 ^ w * 2 ^ fieldBits ws + packFields ws vs
  | _, _ => 0

/-- The fields of given widths that a number spells. -/
def unpackFields : List Nat → Nat → List Nat
  | [], _ => []
  | w :: ws, v => v / 2 ^ fieldBits ws % 2 ^ w :: unpackFields ws v

/-- The widths of the operand fields [20:0] of a major opcode, as the tables of R379, R384, R389, R397, R401 and R404 give them;
a reserved opcode has none. -/
def opFields : Nat → List Nat
  | 0x00 => [21]
  | 0x01 => [5, 16]
  | 0x02 => [5, 16]
  | 0x03 => [6, 6, 9]
  | 0x04 => [5, 16]
  | 0x05 => [5, 16]
  | 0x06 => [6, 15]
  | 0x07 => [6, 6, 9]
  | 0x08 => [6, 6, 9]
  | 0x09 => [3, 3, 6, 9]
  | 0x0A => [3, 3, 3, 2, 10]
  | 0x10 => [21]
  | 0x11 => [21]
  | 0x12 => [21]
  | 0x13 => [6, 5, 10]
  | 0x14 => [6, 5, 10]
  | 0x15 => [6, 6, 9]
  | 0x16 => [6, 6, 9]
  | 0x18 => [6, 15]
  | 0x19 => [6, 6, 9]
  | 0x1A => [17, 4]
  | 0x1B => [6, 6, 9]
  | 0x1C => [18, 3]
  | 0x1D => [6, 7, 8]
  | 0x1E => [6, 15]
  | 0x1F => [6, 2, 13]
  | 0x20 => [20, 1]
  | 0x21 => [6, 2, 13]
  | 0x22 => [6, 2, 2, 3, 8]
  | 0x23 => [10, 3, 8]
  | 0x28 => [6, 6, 6, 3]
  | 0x29 => [6, 6, 3, 6]
  | 0x2A => [6, 6, 6, 3]
  | 0x2B => [6, 6, 3, 6]
  | 0x2C => [6, 6, 1, 8]
  | 0x2D => [6, 6, 6, 3]
  | 0x2E => [3, 3, 6, 6, 3]
  | 0x2F => [6, 6, 6, 3]
  | 0x30 => [6, 6, 6, 3]
  | 0x31 => [6, 6, 6, 3]
  | 0x32 => [3, 6, 6, 2, 1, 1, 2]
  | 0x33 => [3, 6, 6, 1, 5]
  | 0x34 => [6, 3, 12]
  | 0x38 => [6, 4, 2, 2, 1, 6]
  | 0x39 => [6, 4, 2, 2, 1, 6]
  | 0x3A => [6, 4, 3, 2, 1, 5]
  | 0x3B => [8, 4, 1, 8]
  | 0x3C => [4, 6, 2, 9]
  | _ => []

/-- The widths of all fields of an instruction word (R372): OP, PN, PQ, X and the operand fields. -/
def wordFields (op : Nat) : List Nat := 6 :: 1 :: 3 :: 1 :: opFields op

/-! ### Encoding -/

/-- An instruction in its fields: opcode, predicate, extension word, and operand fields. -/
structure Parts where
  op : Nat
  pred : Pred
  ext : Option Word
  fields : List Nat
  deriving DecidableEq, Repr

/-- The code of a condition (R378). -/
def Cond.code : Cond → Nat
  | .eq => 0
  | .ne => 1
  | .lt => 2
  | .ge => 3
  | .ltu => 4
  | .geu => 5

/-- The field of an immediate: 0 where the extension replaces it (R374, R379). -/
def Imm.field {w : Nat} : Imm w → Nat
  | .short v => v.toNat
  | .ext _ => 0

/-- The extension word of an immediate. -/
def Imm.extWord {w : Nat} : Imm w → Option Word
  | .short _ => none
  | .ext v => some v

/-- The RC field of a loop count. -/
def LoopCount.field : LoopCount → Nat
  | .reg rc => rc.toNat
  | .imm _ => 0

/-- The extension word of a loop count. -/
def LoopCount.extWord : LoopCount → Option Word
  | .reg _ => none
  | .imm v => some v

/-- Bit of a truth value in a field. -/
def flagField (b : Bool) : Nat := if b then 1 else 0

/-- An instruction of the ALU (OP 0x28 and 0x29, R397). -/
def aluParts (p : Pred) (fn : Nat) (rd ra : BitVec 6) : AluSrc → Parts
  | .reg rb => ⟨0x28, p, none, [rd.toNat, ra.toNat, rb.toNat, fn]⟩
  | .imm6 v => ⟨0x29, p, none, [rd.toNat, ra.toNat, fn, v.toNat]⟩
  | .ext v => ⟨0x29, p, some v, [rd.toNat, ra.toNat, fn, 0]⟩

/-- A shift (OP 0x2A and 0x2B, R397). -/
def shiftParts (p : Pred) (fn : Nat) (rd ra : BitVec 6) : ShSrc → Parts
  | .reg rb => ⟨0x2A, p, none, [rd.toNat, ra.toNat, rb.toNat, fn]⟩
  | .imm6 v => ⟨0x2B, p, none, [rd.toNat, ra.toNat, fn, v.toNat]⟩

/-- The fields of an engine instruction, with its engine; no other command has a word. -/
def Instr.parts : Instr → Option (Eng × Parts)
  | .nop e p => some (e, ⟨0x00, p, none, [0]⟩)
  | .br e p target => some (e, ⟨0x01, p, none, [0, target.toNat]⟩)
  | .bl e p rl target => some (e, ⟨0x02, p, none, [rl.toNat, target.toNat]⟩)
  | .jr e p ra => some (e, ⟨0x03, p, none, [0, ra.toNat, 0]⟩)
  | .iLoop e p count last => some (e, ⟨0x04, p, count.extWord, [count.field, last.toNat]⟩)
  | .loopr e p count last => some (e, ⟨0x05, p, count.extWord, [count.field, last.toNat]⟩)
  | .li e p rd imm => some (e, ⟨0x06, p, imm.extWord, [rd.toNat, imm.field]⟩)
  | .addi e p rd ra imm => some (e, ⟨0x07, p, imm.extWord, [rd.toNat, ra.toNat, imm.field]⟩)
  | .mov e p rd ra => some (e, ⟨0x08, p, none, [rd.toNat, ra.toNat, 0]⟩)
  | .tsti e p qd cond ra imm => some (e, ⟨0x09, p, imm.extWord, [qd.toNat, cond.code, ra.toNat, imm.field]⟩)
  | .plog e p qd qa qb fn => some (e, ⟨0x0A, p, none, [qd.toNat, qa.toNat, qb.toNat, fn.toNat, 0]⟩)
  | .iEnd e p => some (e, ⟨0x10, p, none, [0]⟩)
  | .iTrap e p => some (e, ⟨0x11, p, none, [0]⟩)
  | .rft e p => some (e, ⟨0x12, p, none, [0]⟩)
  | .mfs e p rd sr => some (e, ⟨0x13, p, none, [rd.toNat, sr.toNat, 0]⟩)
  | .mts e p ra sr => some (e, ⟨0x14, p, none, [ra.toNat, sr.toNat, 0]⟩)
  | .xld e p rd ra disp => some (e, ⟨0x15, p, disp.extWord, [rd.toNat, ra.toNat, disp.field]⟩)
  | .xst e p rs ra disp => some (e, ⟨0x16, p, disp.extWord, [rs.toNat, ra.toNat, disp.field]⟩)
  | .fire e p ra off => some (e, ⟨0x18, p, off, [ra.toNat, 0]⟩)
  | .firec e p ra rc off => some (e, ⟨0x19, p, off, [ra.toNat, rc.toNat, 0]⟩)
  | .iRow e p row off => some (e, ⟨0x1A, p, off, [0, row.toNat]⟩)
  | .gate e p ra rl off => some (e, ⟨0x1B, p, off, [ra.toNat, rl.toNat, 0]⟩)
  | .iMap e p m off => some (e, ⟨0x1C, p, off, [0, m.toNat]⟩)
  | .ctxo e p ra nshot off => some (e, ⟨0x1D, p, off, [ra.toNat, 0, nshot.toNat]⟩)
  | .ctxc e p ra off => some (e, ⟨0x1E, p, off, [ra.toNat, 0]⟩)
  | .setpt e p ra axis off => some (e, ⟨0x1F, p, off, [ra.toNat, axis.toNat, 0]⟩)
  | .mark e p column off => some (e, ⟨0x20, p, off, [0, flagField column]⟩)
  | .waitt e p form => some (e, match form with
    | .relReg ra => ⟨0x21, p, none, [ra.toNat, 0, 0]⟩
    | .relImm v => ⟨0x21, p, some v, [0, 1, 0]⟩
    | .absReg ra => ⟨0x21, p, none, [ra.toNat, 2, 0]⟩)
  | .waita e p ra axis dir qd => some (e, ⟨0x22, p, none, [ra.toNat, axis.toNat, dir.toNat, qd.toNat, 0]⟩)
  | .syncw e p qd => some (e, ⟨0x23, p, none, [0, qd.toNat, 0]⟩)
  | .add e p rd ra b => some (e, aluParts p 0 rd ra b)
  | .sub e p rd ra b => some (e, aluParts p 1 rd ra b)
  | .adds e p rd ra b => some (e, aluParts p 2 rd ra b)
  | .subs e p rd ra b => some (e, aluParts p 3 rd ra b)
  | .iAnd e p rd ra b => some (e, aluParts p 4 rd ra b)
  | .iOr e p rd ra b => some (e, aluParts p 5 rd ra b)
  | .iXor e p rd ra b => some (e, aluParts p 6 rd ra b)
  | .shl e p rd ra b => some (e, shiftParts p 0 rd ra b)
  | .shr e p rd ra b => some (e, shiftParts p 1 rd ra b)
  | .shra e p rd ra b => some (e, shiftParts p 2 rd ra b)
  | .shls e p rd ra b => some (e, shiftParts p 3 rd ra b)
  | .norm e p rd src => some (e, match src with
    | .reg ra => ⟨0x2C, p, none, [rd.toNat, ra.toNat, 0, 0]⟩
    | .acc an => ⟨0x2C, p, none, [rd.toNat, an.toNat, 1, 0]⟩)
  | .expb e p rd ra n => some (e, ⟨0x2D, p, none, [rd.toNat, ra.toNat, n.toNat, 0]⟩)
  | .cmp e p qd cond ra b => some (e, match b with
    | .reg rb => ⟨0x2E, p, none, [qd.toNat, cond.code, ra.toNat, rb.toNat, 0]⟩
    | .ext v => ⟨0x2E, p, some v, [qd.toNat, cond.code, ra.toNat, 0, 0]⟩)
  | .sel e p rd ra rb qp => some (e, ⟨0x2F, p, none, [rd.toNat, ra.toNat, rb.toNat, qp.toNat]⟩)
  | .mul e p rd ra rb => some (e, ⟨0x30, p, none, [rd.toNat, ra.toNat, rb.toNat, 0]⟩)
  | .muls e p rd ra rb => some (e, ⟨0x30, p, none, [rd.toNat, ra.toNat, rb.toNat, 1]⟩)
  | .mulhs e p rd ra rb => some (e, ⟨0x30, p, none, [rd.toNat, ra.toNat, rb.toNat, 2]⟩)
  | .div e p rd ra rb => some (e, ⟨0x31, p, none, [rd.toNat, ra.toNat, rb.toNat, 0]⟩)
  | .divu e p rd ra rb => some (e, ⟨0x31, p, none, [rd.toNat, ra.toNat, rb.toNat, 1]⟩)
  | .mac e p an ra rb w red u => some (e, ⟨0x32, p, none, [an.toNat, ra.toNat, rb.toNat, w.toNat, flagField red, flagField u, 0]⟩)
  | .macs e p an ra rb w red u => some (e, ⟨0x32, p, none, [an.toNat, ra.toNat, rb.toNat, w.toNat, flagField red, flagField u, 1]⟩)
  | .mta e p an ra sh z => some (e, ⟨0x33, p, none, [an.toNat, ra.toNat, sh.toNat, flagField z, 0]⟩)
  | .mova e p rd an => some (e, ⟨0x34, p, none, [rd.toNat, an.toNat, 0]⟩)
  | .ld e p rd pa sz am sx off => some (e, ⟨0x38, p, off.extWord, [rd.toNat, pa.toNat, sz.toNat, am.toNat, flagField sx, off.field]⟩)
  | .iSt e p rs pa sz am off => some (e, ⟨0x39, p, off.extWord, [rs.toNat, pa.toNat, sz.toNat, am.toNat, 0, off.field]⟩)
  | .hld e p rd pa reg n pi => some (e, ⟨0x3A, p, none, [rd.toNat, pa.toNat, reg.toNat, n.toNat, flagField pi, 0]⟩)
  | .emit e p type pa ang => some (e, ⟨0x3B, p, none, [type.toNat, pa.toNat, flagField ang, 0]⟩)
  | .pmov e p pd ra fn imm => some (e, ⟨0x3C, p, imm.extWord, [pd.toNat, ra.toNat, fn.toNat, imm.field]⟩)
  | _ => none

/-- The word of an instruction's fields, with X set where an extension follows (R372). -/
def Parts.word (q : Parts) : Word :=
  BitVec.ofNat 32 (packFields (wordFields q.op)
    (q.op :: flagField q.pred.neg :: q.pred.q.toNat :: flagField q.ext.isSome :: q.fields))

/-- The instruction word of an engine instruction, and its extension word; none for every other command. -/
def encodeInstr (i : Instr) : Option (Word × Option Word) := i.parts.map fun x => (x.2.word, x.2.ext)

/-! ### Decoding -/

/-- A condition code; 6 and 7 are reserved (R378). -/
def Cond.ofCode : Nat → Option Cond
  | 0 => some .eq
  | 1 => some .ne
  | 2 => some .lt
  | 3 => some .ge
  | 4 => some .ltu
  | 5 => some .geu
  | _ => none

/-- An immediate field or the extension that replaces it; with an extension the field must be 0 (R374). -/
def immOf (w : Nat) (ext : Option Word) (f : Nat) : Option (Imm w) := match ext with
  | none => some (.short (BitVec.ofNat w f))
  | some v => if f = 0 then some (.ext v) else none

/-- A loop count from RC or the extension (R379). -/
def countOf (ext : Option Word) (rc : Nat) : Option LoopCount := match ext with
  | none => some (.reg (BitVec.ofNat 5 rc))
  | some v => if rc = 0 then some (.imm v) else none

/-- A register or extension operand of CMP (R397). -/
def cmpSrcOf (ext : Option Word) (rb : Nat) : Option CmpSrc := match ext with
  | none => some (.reg (BitVec.ofNat 6 rb))
  | some v => if rb = 0 then some (.ext v) else none

/-- The immediate operand of ALUI (R397). -/
def aluImmOf (ext : Option Word) (f : Nat) : Option AluSrc := match ext with
  | none => some (.imm6 (BitVec.ofNat 6 f))
  | some v => if f = 0 then some (.ext v) else none

/-- A field as a register number or selector. -/
abbrev reg6 (n : Nat) : BitVec 6 := BitVec.ofNat 6 n

/-- The ALU instruction of a function code; 7 is reserved (R397). -/
def aluOf (e : Eng) (p : Pred) (fn rd ra : Nat) (b : AluSrc) : Option Instr := match fn with
  | 0 => some (.add e p (reg6 rd) (reg6 ra) b)
  | 1 => some (.sub e p (reg6 rd) (reg6 ra) b)
  | 2 => some (.adds e p (reg6 rd) (reg6 ra) b)
  | 3 => some (.subs e p (reg6 rd) (reg6 ra) b)
  | 4 => some (.iAnd e p (reg6 rd) (reg6 ra) b)
  | 5 => some (.iOr e p (reg6 rd) (reg6 ra) b)
  | 6 => some (.iXor e p (reg6 rd) (reg6 ra) b)
  | _ => none

/-- The shift of a function code; 4 to 7 are reserved (R397). -/
def shiftOf (e : Eng) (p : Pred) (fn rd ra : Nat) (b : ShSrc) : Option Instr := match fn with
  | 0 => some (.shl e p (reg6 rd) (reg6 ra) b)
  | 1 => some (.shr e p (reg6 rd) (reg6 ra) b)
  | 2 => some (.shra e p (reg6 rd) (reg6 ra) b)
  | 3 => some (.shls e p (reg6 rd) (reg6 ra) b)
  | _ => none

/-- WAITT in the form of its FORM field (R394). -/
def waitOf (ext : Option Word) (form ra : Nat) : Option WaitForm := match form, ext with
  | 0, none => some (.relReg (reg6 ra))
  | 1, some v => if ra = 0 then some (.relImm v) else none
  | 2, none => some (.absReg (reg6 ra))
  | _, _ => none

/-- OP 0x00. -/
def decodeNop (e : Eng) (p : Pred) (x : Option Word) (fs : List Nat) : Option Instr := match x, fs with
  | none, [0] => some (.nop e p)
  | _, _ => none

/-- OP 0x01. -/
def decodeBr (e : Eng) (p : Pred) (x : Option Word) (fs : List Nat) : Option Instr := match x, fs with
  | none, [0, t] => some (.br e p (BitVec.ofNat 16 t))
  | _, _ => none

/-- OP 0x02. -/
def decodeBl (e : Eng) (p : Pred) (x : Option Word) (fs : List Nat) : Option Instr := match x, fs with
  | none, [rl, t] => some (.bl e p (BitVec.ofNat 5 rl) (BitVec.ofNat 16 t))
  | _, _ => none

/-- OP 0x03. -/
def decodeJr (e : Eng) (p : Pred) (x : Option Word) (fs : List Nat) : Option Instr := match x, fs with
  | none, [0, ra, 0] => some (.jr e p (reg6 ra))
  | _, _ => none

/-- OP 0x04. -/
def decodeLoop (e : Eng) (p : Pred) (x : Option Word) (fs : List Nat) : Option Instr := match fs with
  | [rc, t] => (countOf x rc).map fun c => .iLoop e p c (BitVec.ofNat 16 t)
  | _ => none

/-- OP 0x05. -/
def decodeLoopr (e : Eng) (p : Pred) (x : Option Word) (fs : List Nat) : Option Instr := match fs with
  | [rc, t] => (countOf x rc).map fun c => .loopr e p c (BitVec.ofNat 16 t)
  | _ => none

/-- OP 0x06. -/
def decodeLi (e : Eng) (p : Pred) (x : Option Word) (fs : List Nat) : Option Instr := match fs with
  | [rd, f] => (immOf 15 x f).map fun i => .li e p (reg6 rd) i
  | _ => none

/-- OP 0x07. -/
def decodeAddi (e : Eng) (p : Pred) (x : Option Word) (fs : List Nat) : Option Instr := match fs with
  | [rd, ra, f] => (immOf 9 x f).map fun i => .addi e p (reg6 rd) (reg6 ra) i
  | _ => none

/-- OP 0x08. -/
def decodeMov (e : Eng) (p : Pred) (x : Option Word) (fs : List Nat) : Option Instr := match x, fs with
  | none, [rd, ra, 0] => some (.mov e p (reg6 rd) (reg6 ra))
  | _, _ => none

/-- OP 0x09. -/
def decodeTsti (e : Eng) (p : Pred) (x : Option Word) (fs : List Nat) : Option Instr := match fs with
  | [qd, c, ra, f] => match Cond.ofCode c, immOf 9 x f with
    | some c, some i => some (.tsti e p (BitVec.ofNat 3 qd) c (reg6 ra) i)
    | _, _ => none
  | _ => none

/-- OP 0x0A. -/
def decodePlog (e : Eng) (p : Pred) (x : Option Word) (fs : List Nat) : Option Instr := match x, fs with
  | none, [qd, qa, qb, fn, 0] => some (.plog e p (BitVec.ofNat 3 qd) (BitVec.ofNat 3 qa) (BitVec.ofNat 3 qb) (BitVec.ofNat 2 fn))
  | _, _ => none

/-- OP 0x10. -/
def decodeEnd (e : Eng) (p : Pred) (x : Option Word) (fs : List Nat) : Option Instr := match x, fs with
  | none, [0] => some (.iEnd e p)
  | _, _ => none

/-- OP 0x11. -/
def decodeTrap (e : Eng) (p : Pred) (x : Option Word) (fs : List Nat) : Option Instr := match x, fs with
  | none, [0] => some (.iTrap e p)
  | _, _ => none

/-- OP 0x12. -/
def decodeRft (e : Eng) (p : Pred) (x : Option Word) (fs : List Nat) : Option Instr := match x, fs with
  | none, [0] => some (.rft e p)
  | _, _ => none

/-- OP 0x13. -/
def decodeMfs (e : Eng) (p : Pred) (x : Option Word) (fs : List Nat) : Option Instr := match x, fs with
  | none, [rd, sr, 0] => some (.mfs e p (reg6 rd) (BitVec.ofNat 5 sr))
  | _, _ => none

/-- OP 0x14. -/
def decodeMts (e : Eng) (p : Pred) (x : Option Word) (fs : List Nat) : Option Instr := match x, fs with
  | none, [ra, sr, 0] => some (.mts e p (reg6 ra) (BitVec.ofNat 5 sr))
  | _, _ => none

/-- OP 0x15. -/
def decodeXld (e : Eng) (p : Pred) (x : Option Word) (fs : List Nat) : Option Instr := match fs with
  | [rd, ra, f] => (immOf 9 x f).map fun i => .xld e p (reg6 rd) (reg6 ra) i
  | _ => none

/-- OP 0x16. -/
def decodeXst (e : Eng) (p : Pred) (x : Option Word) (fs : List Nat) : Option Instr := match fs with
  | [rs, ra, f] => (immOf 9 x f).map fun i => .xst e p (reg6 rs) (reg6 ra) i
  | _ => none

/-- OP 0x18. -/
def decodeFire (e : Eng) (p : Pred) (x : Option Word) (fs : List Nat) : Option Instr := match fs with
  | [ra, 0] => some (.fire e p (reg6 ra) x)
  | _ => none

/-- OP 0x19. -/
def decodeFirec (e : Eng) (p : Pred) (x : Option Word) (fs : List Nat) : Option Instr := match fs with
  | [ra, rc, 0] => some (.firec e p (reg6 ra) (reg6 rc) x)
  | _ => none

/-- OP 0x1A. -/
def decodeRow (e : Eng) (p : Pred) (x : Option Word) (fs : List Nat) : Option Instr := match fs with
  | [0, r] => some (.iRow e p (BitVec.ofNat 4 r) x)
  | _ => none

/-- OP 0x1B. -/
def decodeGate (e : Eng) (p : Pred) (x : Option Word) (fs : List Nat) : Option Instr := match fs with
  | [ra, rl, 0] => some (.gate e p (reg6 ra) (reg6 rl) x)
  | _ => none

/-- OP 0x1C. -/
def decodeMap (e : Eng) (p : Pred) (x : Option Word) (fs : List Nat) : Option Instr := match fs with
  | [0, m] => some (.iMap e p (BitVec.ofNat 3 m) x)
  | _ => none

/-- OP 0x1D. -/
def decodeCtxo (e : Eng) (p : Pred) (x : Option Word) (fs : List Nat) : Option Instr := match fs with
  | [ra, 0, n] => some (.ctxo e p (reg6 ra) (BitVec.ofNat 8 n) x)
  | _ => none

/-- OP 0x1E. -/
def decodeCtxc (e : Eng) (p : Pred) (x : Option Word) (fs : List Nat) : Option Instr := match fs with
  | [ra, 0] => some (.ctxc e p (reg6 ra) x)
  | _ => none

/-- OP 0x1F. -/
def decodeSetpt (e : Eng) (p : Pred) (x : Option Word) (fs : List Nat) : Option Instr := match fs with
  | [ra, a, 0] => some (.setpt e p (reg6 ra) (BitVec.ofNat 2 a) x)
  | _ => none

/-- OP 0x20. -/
def decodeMark (e : Eng) (p : Pred) (x : Option Word) (fs : List Nat) : Option Instr := match fs with
  | [0, k] => some (.mark e p (k = 1) x)
  | _ => none

/-- OP 0x21. -/
def decodeWaitt (e : Eng) (p : Pred) (x : Option Word) (fs : List Nat) : Option Instr := match fs with
  | [ra, form, 0] => (waitOf x form ra).map fun f => .waitt e p f
  | _ => none

/-- OP 0x22. -/
def decodeWaita (e : Eng) (p : Pred) (x : Option Word) (fs : List Nat) : Option Instr := match x, fs with
  | none, [ra, a, dir, qd, 0] => some (.waita e p (reg6 ra) (BitVec.ofNat 2 a) (BitVec.ofNat 2 dir) (BitVec.ofNat 3 qd))
  | _, _ => none

/-- OP 0x23. -/
def decodeSyncw (e : Eng) (p : Pred) (x : Option Word) (fs : List Nat) : Option Instr := match x, fs with
  | none, [0, qd, 0] => some (.syncw e p (BitVec.ofNat 3 qd))
  | _, _ => none

/-- OP 0x28. -/
def decodeAlu (e : Eng) (p : Pred) (x : Option Word) (fs : List Nat) : Option Instr := match x, fs with
  | none, [rd, ra, rb, fn] => aluOf e p fn rd ra (.reg (reg6 rb))
  | _, _ => none

/-- OP 0x29. -/
def decodeAlui (e : Eng) (p : Pred) (x : Option Word) (fs : List Nat) : Option Instr := match fs with
  | [rd, ra, fn, f] => (aluImmOf x f).bind fun b => aluOf e p fn rd ra b
  | _ => none

/-- OP 0x2A. -/
def decodeShift (e : Eng) (p : Pred) (x : Option Word) (fs : List Nat) : Option Instr := match x, fs with
  | none, [rd, ra, rb, fn] => shiftOf e p fn rd ra (.reg (reg6 rb))
  | _, _ => none

/-- OP 0x2B. -/
def decodeShifti (e : Eng) (p : Pred) (x : Option Word) (fs : List Nat) : Option Instr := match x, fs with
  | none, [rd, ra, fn, f] => shiftOf e p fn rd ra (.imm6 (BitVec.ofNat 6 f))
  | _, _ => none

/-- OP 0x2C. -/
def decodeNorm (e : Eng) (p : Pred) (x : Option Word) (fs : List Nat) : Option Instr := match x, fs with
  | none, [rd, ra, acc, 0] => if acc = 0 then some (.norm e p (reg6 rd) (.reg (reg6 ra)))
    else if ra < 8 then some (.norm e p (reg6 rd) (.acc (BitVec.ofNat 3 ra))) else none
  | _, _ => none

/-- OP 0x2D. -/
def decodeExpb (e : Eng) (p : Pred) (x : Option Word) (fs : List Nat) : Option Instr := match x, fs with
  | none, [rd, ra, n, 0] => some (.expb e p (reg6 rd) (reg6 ra) (reg6 n))
  | _, _ => none

/-- OP 0x2E. -/
def decodeCmp (e : Eng) (p : Pred) (x : Option Word) (fs : List Nat) : Option Instr := match fs with
  | [qd, c, ra, rb, 0] => match Cond.ofCode c, cmpSrcOf x rb with
    | some c, some b => some (.cmp e p (BitVec.ofNat 3 qd) c (reg6 ra) b)
    | _, _ => none
  | _ => none

/-- OP 0x2F. -/
def decodeSel (e : Eng) (p : Pred) (x : Option Word) (fs : List Nat) : Option Instr := match x, fs with
  | none, [rd, ra, rb, qp] => some (.sel e p (reg6 rd) (reg6 ra) (reg6 rb) (BitVec.ofNat 3 qp))
  | _, _ => none

/-- OP 0x30. -/
def decodeMul (e : Eng) (p : Pred) (x : Option Word) (fs : List Nat) : Option Instr := match x, fs with
  | none, [rd, ra, rb, fn] => if fn = 0 then some (.mul e p (reg6 rd) (reg6 ra) (reg6 rb))
    else if fn = 1 then some (.muls e p (reg6 rd) (reg6 ra) (reg6 rb))
    else if fn = 2 then some (.mulhs e p (reg6 rd) (reg6 ra) (reg6 rb)) else none
  | _, _ => none

/-- OP 0x31. -/
def decodeDiv (e : Eng) (p : Pred) (x : Option Word) (fs : List Nat) : Option Instr := match x, fs with
  | none, [rd, ra, rb, fn] => if fn = 0 then some (.div e p (reg6 rd) (reg6 ra) (reg6 rb))
    else if fn = 1 then some (.divu e p (reg6 rd) (reg6 ra) (reg6 rb)) else none
  | _, _ => none

/-- OP 0x32. -/
def decodeMacc (e : Eng) (p : Pred) (x : Option Word) (fs : List Nat) : Option Instr := match x, fs with
  | none, [an, ra, rb, w, red, u, fn] => if fn = 0 then some (.mac e p (BitVec.ofNat 3 an) (reg6 ra) (reg6 rb) (BitVec.ofNat 2 w) (red = 1) (u = 1))
    else if fn = 1 then some (.macs e p (BitVec.ofNat 3 an) (reg6 ra) (reg6 rb) (BitVec.ofNat 2 w) (red = 1) (u = 1)) else none
  | _, _ => none

/-- OP 0x33. -/
def decodeMta (e : Eng) (p : Pred) (x : Option Word) (fs : List Nat) : Option Instr := match x, fs with
  | none, [an, ra, sh, z, 0] => some (.mta e p (BitVec.ofNat 3 an) (reg6 ra) (reg6 sh) (z = 1))
  | _, _ => none

/-- OP 0x34. -/
def decodeMova (e : Eng) (p : Pred) (x : Option Word) (fs : List Nat) : Option Instr := match x, fs with
  | none, [rd, an, 0] => some (.mova e p (reg6 rd) (BitVec.ofNat 3 an))
  | _, _ => none

/-- OP 0x38. -/
def decodeLd (e : Eng) (p : Pred) (x : Option Word) (fs : List Nat) : Option Instr := match fs with
  | [rd, pa, sz, am, sx, f] => (immOf 6 x f).map fun i => .ld e p (reg6 rd) (BitVec.ofNat 4 pa) (BitVec.ofNat 2 sz) (BitVec.ofNat 2 am) (sx = 1) i
  | _ => none

/-- OP 0x39. -/
def decodeSt (e : Eng) (p : Pred) (x : Option Word) (fs : List Nat) : Option Instr := match fs with
  | [rs, pa, sz, am, 0, f] => (immOf 6 x f).map fun i => .iSt e p (reg6 rs) (BitVec.ofNat 4 pa) (BitVec.ofNat 2 sz) (BitVec.ofNat 2 am) i
  | _ => none

/-- OP 0x3A. -/
def decodeHld (e : Eng) (p : Pred) (x : Option Word) (fs : List Nat) : Option Instr := match x, fs with
  | none, [rd, pa, r, n, pi, 0] => some (.hld e p (reg6 rd) (BitVec.ofNat 4 pa) (BitVec.ofNat 3 r) (BitVec.ofNat 2 n) (pi = 1))
  | _, _ => none

/-- OP 0x3B. -/
def decodeEmit (e : Eng) (p : Pred) (x : Option Word) (fs : List Nat) : Option Instr := match x, fs with
  | none, [t, pa, ang, 0] => some (.emit e p (BitVec.ofNat 8 t) (BitVec.ofNat 4 pa) (ang = 1))
  | _, _ => none

/-- OP 0x3C. -/
def decodePmov (e : Eng) (p : Pred) (x : Option Word) (fs : List Nat) : Option Instr := match fs with
  | [pd, ra, fn, f] => (immOf 9 x f).map fun i => .pmov e p (BitVec.ofNat 4 pd) (reg6 ra) (BitVec.ofNat 2 fn) i
  | _ => none

/-- The decoding of the operand fields of a major opcode; the others are reserved (R377). -/
def decodeOp (op : Nat) : Eng → Pred → Option Word → List Nat → Option Instr := match op with
  | 0x00 => decodeNop
  | 0x01 => decodeBr
  | 0x02 => decodeBl
  | 0x03 => decodeJr
  | 0x04 => decodeLoop
  | 0x05 => decodeLoopr
  | 0x06 => decodeLi
  | 0x07 => decodeAddi
  | 0x08 => decodeMov
  | 0x09 => decodeTsti
  | 0x0A => decodePlog
  | 0x10 => decodeEnd
  | 0x11 => decodeTrap
  | 0x12 => decodeRft
  | 0x13 => decodeMfs
  | 0x14 => decodeMts
  | 0x15 => decodeXld
  | 0x16 => decodeXst
  | 0x18 => decodeFire
  | 0x19 => decodeFirec
  | 0x1A => decodeRow
  | 0x1B => decodeGate
  | 0x1C => decodeMap
  | 0x1D => decodeCtxo
  | 0x1E => decodeCtxc
  | 0x1F => decodeSetpt
  | 0x20 => decodeMark
  | 0x21 => decodeWaitt
  | 0x22 => decodeWaita
  | 0x23 => decodeSyncw
  | 0x28 => decodeAlu
  | 0x29 => decodeAlui
  | 0x2A => decodeShift
  | 0x2B => decodeShifti
  | 0x2C => decodeNorm
  | 0x2D => decodeExpb
  | 0x2E => decodeCmp
  | 0x2F => decodeSel
  | 0x30 => decodeMul
  | 0x31 => decodeDiv
  | 0x32 => decodeMacc
  | 0x33 => decodeMta
  | 0x34 => decodeMova
  | 0x38 => decodeLd
  | 0x39 => decodeSt
  | 0x3A => decodeHld
  | 0x3B => decodeEmit
  | 0x3C => decodePmov
  | _ => fun _ _ _ _ => none

/-- Bit 21 of an instruction word: an extension word follows (R372). -/
def hasExt (w : Word) : Bool := w.getLsbD 21

/-- The words that an instruction takes (R375, R376). -/
def wordLen (w : Word) : Nat := if hasExt w then 2 else 1

/-- The instruction that a word and its extension spell on an engine, before the limits of `legal`; none for an undefined encoding
(R374). -/
def decodeWord (e : Eng) (w x : Word) : Option Instr :=
  match unpackFields (wordFields (w.toNat / 2 ^ 26)) w.toNat with
  | op :: pn :: pq :: _ :: fs =>
    decodeOp op e ⟨pn = 1, BitVec.ofNat 3 pq⟩ (if hasExt w then some x else none) fs
  | _ => none

/-! ### The static limits (R605) -/

/-- The engine is the Fire Sequencer. -/
def Eng.isFsq : Eng → Bool
  | .fsq => true
  | .pe _ => false

/-- A general-register field that the engine has: the FSQ has only G0 to G31 (R374). -/
def regOk (e : Eng) (r : BitVec 6) : Bool := !e.isFsq || r.toNat < 32

/-- An SR code that MFS may read on the engine (R385). -/
def mfsOk (e : Eng) (sr : Nat) : Bool :=
  if e.isFsq then 1 ≤ sr && sr ≤ 12 else sr ≤ 6 || sr = 12 || sr = 13

/-- An SR code that MTS may write on the engine (R385). -/
def mtsOk (e : Eng) (sr : Nat) : Bool :=
  if e.isFsq then 1 ≤ sr && sr ≤ 5 else sr ≤ 5 || sr = 13

/-- The conditions of WAITT's forms on RA (R394). -/
def waitOk (e : Eng) : WaitForm → Bool
  | .relReg ra => regOk e ra
  | .relImm _ => true
  | .absReg ra => regOk e ra && ra.toNat % 2 = 0

/-- The lanes of a MAC stay within A7 and D63 (R401); w is W − 1. -/
def lanesOk (an : BitVec 3) (ra rb : BitVec 6) (w : BitVec 2) : Bool :=
  an.toNat + w.toNat ≤ 7 && ra.toNat + w.toNat ≤ 63 && rb.toNat + w.toNat ≤ 63

/-- SZ, AM and PA of LD and ST (R404, R407). -/
def modeOk (pa : BitVec 4) (sz am : BitVec 2) : Bool := sz.toNat ≠ 3 && (am.toNat < 2 || pa.toNat < 8)

/-- An instruction that raises no fault of R605 on its engine: its class, the registers that its fields name, and the limits of its
operands. Other commands have none. -/
def legal : Instr → Bool
  | .nop _ _ | .br _ _ _ | .bl _ _ _ _ | .iLoop _ _ _ _ | .plog _ _ _ _ _ _ | .iTrap _ _ | .rft _ _ => true
  | .jr e _ ra => regOk e ra
  | .loopr e _ _ _ | .iEnd e _ => !e.isFsq
  | .li e _ rd _ => regOk e rd
  | .addi e _ rd ra _ | .mov e _ rd ra | .xld e _ rd ra _ | .xst e _ rd ra _ => regOk e rd && regOk e ra
  | .tsti e _ _ _ ra _ => regOk e ra
  | .mfs e _ rd sr => regOk e rd && mfsOk e sr.toNat
  | .mts e _ ra sr => regOk e ra && mtsOk e sr.toNat
  | .fire e _ ra _ => e.isFsq && regOk e ra && ra.toNat % 2 = 0
  | .firec e _ ra rc _ | .gate e _ ra rc _ => e.isFsq && regOk e ra && regOk e rc && ra.toNat % 2 = 0
  | .iRow e _ _ _ | .iMap e _ _ _ | .mark e _ _ _ | .syncw e _ _ => e.isFsq
  | .ctxo e _ ra _ _ | .ctxc e _ ra _ | .setpt e _ ra _ _ => e.isFsq && regOk e ra
  | .waitt e _ form => e.isFsq && waitOk e form
  | .waita e _ ra _ dir _ => e.isFsq && regOk e ra && dir.toNat ≠ 3
  | .add e _ _ _ _ | .sub e _ _ _ _ | .adds e _ _ _ _ | .subs e _ _ _ _ | .iAnd e _ _ _ _ | .iOr e _ _ _ _
  | .iXor e _ _ _ _ | .shl e _ _ _ _ | .shr e _ _ _ _ | .shra e _ _ _ _ | .shls e _ _ _ _ | .norm e _ _ _
  | .cmp e _ _ _ _ _ | .sel e _ _ _ _ _ | .mul e _ _ _ _ | .muls e _ _ _ _ | .mulhs e _ _ _ _ | .div e _ _ _ _
  | .divu e _ _ _ _ | .mova e _ _ _ | .emit e _ _ _ _ | .pmov e _ _ _ _ _ => !e.isFsq
  | .expb e _ _ ra n => !e.isFsq && (n.toNat = 0 || ra.toNat + n.toNat ≤ 64)
  | .mac e _ an ra rb w _ _ | .macs e _ an ra rb w _ _ => !e.isFsq && lanesOk an ra rb w
  | .mta e _ _ _ sh _ => !e.isFsq && sh.toNat ≤ 40
  | .ld e _ _ pa sz am _ _ | .iSt e _ _ pa sz am _ => !e.isFsq && modeOk pa sz am
  | .hld e _ rd _ r n _ => !e.isFsq && r.toNat ≤ 4 && rd.toNat + n.toNat ≤ 63
  | _ => true

/-- The instruction that a word and its extension spell on an engine; none for every fault of R605. -/
def decodeInstr (e : Eng) (w x : Word) : Option Instr :=
  match decodeWord e w x with
  | some i => if legal i then some i else none
  | none => none

end Sys2Proof
end

