-- ==== Sys2Proof/Config.lean ====
section
/-!
DEFINITION. What the spec leaves open: constants without a body, so that nothing can be proved of their values. Each is
applied to a counter of the state or to the operands it depends on, and named in the assumption log.
-/
namespace Sys2Proof.Config

/-- A fresh 32-bit value that the spec does not state (DESIGN CHOICE, log 6). -/
opaque freeWord : Nat → Word

/-- Whether the board swaps the P and N legs of a stream RX lane (R582): the board is outside the spec (DESIGN CHOICE, log 108). -/
opaque legsSwapped : Nat → Bool

end Sys2Proof.Config
end

