-- ==== Sys2Proof/Machine/Ecc.lean ====
section
/-!
DEFINITION. The Reed–Solomon code of the protected memories (R35, R37): GF(2^8) with polynomial 0x11D, roots
α^0 to α^3, 36 symbols. A stored word is described by the syndromes that its errors leave.
-/
namespace Sys2Proof.Machine

/-- f of n, n evaluated first: arithmetic in the field then runs on numerals. -/
def withNat {α : Type} (n : Nat) (f : Nat → α) : α :=
  match n with
  | 0 => f 0
  | k + 1 => f (k + 1)

/-- Multiplication by α in GF(2^8), of an element written as a number (R35). -/
def gfDouble (a : Nat) : Nat := (2 * a) ^^^ (if a < 128 then 0 else 0x11D)

/-- acc·α^n plus a times the low n bits of b. -/
def gfMulBits (a b : Nat) : Nat → Nat → Nat
  | 0, acc => acc
  | n + 1, acc => withNat (gfDouble acc ^^^ (if b.testBit n then a else 0)) (gfMulBits a b n)

/-- Product in GF(2^8). -/
def gfMul (a b : Nat) : Nat := withNat a fun a => withNat b fun b => gfMulBits a b 8 0

/-- α^n. -/
def gfExp : Nat → Nat
  | 0 => 1
  | n + 1 => withNat (gfExp n) gfDouble

/-- a^n in GF(2^8). -/
def gfPow (a : Nat) : Nat → Nat
  | 0 => 1
  | n + 1 => withNat (gfPow a n) (gfMul a)

/-- The inverse, a^254. -/
def gfInv (a : Nat) : Nat := gfPow a 254

/-- Syndrome i of a word of syndromes. -/
def syndrome (w : Word) (i : Nat) : Nat := w.toNat / 2 ^ (8 * i) % 256

/-- What error e in symbol j (0 to 31 the data bytes, 32 to 35 the check symbols) adds to the four syndromes. Symbol 0 is
the coefficient of the highest power, x^35 (PRESUMED, log 13). -/
def errorSyndrome (j : Nat) (e : Byte) : Word :=
  let t := fun i => gfMul e.toNat (gfPow (gfExp (35 - j)) i)
  BitVec.ofNat 32 (t 0 + 256 * t 1 + 65536 * t 2 + 16777216 * t 3)

/-- The single error that explains the syndromes, if one does. -/
def oneError (w : Word) : Option (List (Nat × Byte)) :=
  (List.range 36).findSome? fun j =>
    let e := BitVec.ofNat 8 (syndrome w 0)
    if errorSyndrome j e = w then some [(j, e)] else none

/-- The errors in symbols p < q that explain the syndromes, if any do. -/
def pairError (w : Word) (p q : Nat) : Option (List (Nat × Byte)) :=
  withNat (gfExp (35 - p)) fun x => withNat (gfExp (35 - q)) fun y =>
    withNat (gfMul (syndrome w 1 ^^^ gfMul (syndrome w 0) y) (gfInv (x ^^^ y))) fun e =>
      let e := BitVec.ofNat 8 e
      let f := BitVec.ofNat 8 (syndrome w 0) ^^^ e
      if errorSyndrome p e ^^^ errorSyndrome q f = w then some [(p, e), (q, f)] else none

/-- The symbols at which the locator polynomial of two errors vanishes (open points: PRESUMED, log 13). -/
def locate (w : Word) : List Nat :=
  let s := syndrome w
  withNat (gfMul (s 1) (s 1) ^^^ gfMul (s 0) (s 2)) fun a =>
    withNat (gfMul (s 1) (s 2) ^^^ gfMul (s 0) (s 3)) fun b =>
      withNat (gfMul (s 2) (s 2) ^^^ gfMul (s 1) (s 3)) fun c =>
        (List.range 36).filter fun j =>
          withNat (gfExp (35 - j)) fun x => gfMul a (gfMul x x) ^^^ gfMul b x ^^^ c = 0

/-- What the decoder finds (R37): no error, a codeword within two symbols, or none (uncorrectable)
(open points: PRESUMED, log 13). -/
def rsDecode (w : Word) : Option (List (Nat × Byte)) :=
  if w = 0#32 then some []
  else match oneError w with
    | some es => some es
    | none => match locate w with
      | [p, q] => pairError w p q
      | _ => none

end Sys2Proof.Machine
end

