-- ==== Sys2Proof/Machine/PcieTable.lean ====
section
/-!
DEFINITION. The endpoint's configuration space (R477 to R480): what its words read as after reset and what a write may change. The spec
gives the contents; the places of registers and of their bits are those of the PCI Express base specification (PRESUMED, log 104).
-/
namespace Sys2Proof.Machine

/-- A word of configuration space: its byte offset, its reset value, and the bits that are RW and W1C. -/
structure CfgRow where
  off : Nat
  reset : Nat
  rw : Nat
  w1c : Nat
  deriving DecidableEq, Repr

/-- Type 0 header: identity and class (R479), three 64-bit memory BARs of 1 MiB, 256 MiB (prefetchable) and 64 KiB (R480), no expansion
ROM, Interrupt Pin 0 (R478). Bus Master Enable has its own home in the state (R489) (PRESUMED, log 104). -/
def cfgHeader : List CfgRow := [
  ⟨0x00, 0x45121F7A, 0, 0⟩, ⟨0x04, 0x00100000, 0x142, 0xF9000000⟩, ⟨0x08, 0x11800000, 0, 0⟩, ⟨0x0C, 0, 0xFF, 0⟩,
  ⟨0x10, 0x4, 0xFFF00000, 0⟩, ⟨0x14, 0, 0xFFFFFFFF, 0⟩, ⟨0x18, 0xC, 0xF0000000, 0⟩, ⟨0x1C, 0, 0xFFFFFFFF, 0⟩,
  ⟨0x20, 0x4, 0xFFFF0000, 0⟩, ⟨0x24, 0, 0xFFFFFFFF, 0⟩, ⟨0x34, 0x40, 0, 0⟩, ⟨0x3C, 0, 0xFF, 0⟩]

/-- The capability list: Power Management with No_Soft_Reset = 1, MSI-X with 32 vectors in BAR4, PCI Express (R477, R479, R486): payloads up
to 256 bytes, read requests up to 512, Gen3 ×8, ASPM L1 with an exit latency of 2 to 4 µs, completion timeout ranges A and B. The power
state has its own home in the state (R488) (PRESUMED, log 104). -/
def cfgCaps : List CfgRow := [
  ⟨0x40, 0x00035001, 0, 0⟩, ⟨0x44, 0x8, 0, 0⟩,
  ⟨0x50, 0x001F6011, 0xC0000000, 0⟩, ⟨0x54, 0x8004, 0, 0⟩, ⟨0x58, 0xC004, 0, 0⟩,
  ⟨0x60, 0x00020010, 0, 0⟩, ⟨0x64, 0x00008021, 0, 0⟩, ⟨0x68, 0x2000, 0x71EF, 0xF0000⟩, ⟨0x6C, 0x00410883, 0, 0⟩,
  ⟨0x70, 0, 0xCB, 0⟩, ⟨0x84, 0x13, 0, 0⟩, ⟨0x88, 0, 0x1F, 0⟩, ⟨0x8C, 0xE, 0, 0⟩, ⟨0x90, 0x3, 0xF, 0⟩]

/-- The extended list: AER and Device Serial Number (R477, R479) (PRESUMED, log 104). -/
def cfgExt : List CfgRow := [
  ⟨0x100, 0x14820001, 0, 0⟩, ⟨0x104, 0, 0, 0x17D010⟩, ⟨0x108, 0, 0x17D010, 0⟩, ⟨0x10C, 0x60010, 0x17D010, 0⟩,
  ⟨0x110, 0, 0, 0x31C1⟩, ⟨0x114, 0x2000, 0x31C1, 0⟩, ⟨0x118, 0, 0, 0⟩, ⟨0x148, 0x00010003, 0, 0⟩]

/-- The row of the word at a byte offset; every other word reads 0 and cannot be written (PRESUMED, log 104). -/
def cfgRow (off : Nat) : CfgRow :=
  ((cfgHeader ++ cfgCaps ++ cfgExt).find? fun r => r.off = off).getD ⟨off, 0, 0, 0⟩

/-- What word i of configuration space, at byte offset 4 i, reads as after reset. -/
def cfgReset (i : Nat) : Word := BitVec.ofNat 32 (cfgRow (4 * i)).reset

end Sys2Proof.Machine
end

