-- ==== Sys2Proof/Machine/RegTable.lean ====
section
/-!
DEFINITION. The register map of BAR0: every register table of the spec's chapters (block bases of R482), as
descriptors (offset, index, reset value, the bits of each access type of R9) and as named fields.
A field name is the spec's REG_FIELD; a register that stands for several takes its index.
-/
namespace Sys2Proof.Machine

/-- A register of the map, by the name that its table bears (without its index letter). -/
inductive RegId where
  | sysFabrate
  | sysFabmin
  | emiCtrl
  | emiStat
  | emiCfg
  | emiChcfg
  | emiChctrl
  | emiChstat
  | emiDrcfg
  | emiIgnored
  | emiAxmap
  | emiSkip
  | emiFout
  | retCfg
  | retThr
  | retStat
  | retRate
  | retEvents
  | retPileup
  | retPrec
  | retSatb
  | retNsat
  | rgpSpc
  | rgpDll
  | rgpStcfg
  | rgpStstat
  | rgpStmiss
  | rgpStamb
  | rgpStorph
  | rgpStcs
  | ctxCfg
  | ctxHwm
  | ctxStat
  | ctxPeak
  | ctxZoom
  | ctxMapsel
  | ctxCoin
  | ctxCoindrop
  | ctxEvdrop
  | ctxCnt
  | decStat
  | decSel
  | decCheck
  | decChkres
  | decGdly
  | decNgain
  | decEarly
  | decLane
  | decEmask
  | decCnt
  | pntCfg
  | pntBudget
  | pntSpec
  | pntZsel
  | pntZout
  | pntZtrip
  | pntZhold
  | pntFstat
  | pntCnt
  | calCtrl
  | calStat
  | calCfg
  | calThr
  | calWalk
  | calEdly
  | calTemp
  | calEpoch
  | calStdon
  | calReq
  | calZwr
  | calZval
  | calCnt
  | axsCtrl
  | axsStat
  | axsTime
  | axsSens
  | axsSgain
  | axsTmin
  | axsTmax
  | axsVmax
  | axsAmax
  | axsFe
  | axsSet
  | axsSafe
  | axsPos
  | axsTraj
  | axsFtw
  | axsRes
  | axsRec
  | axsSched
  | axsTrc
  | axsTrcs
  | axsCnt
  | snsCfg
  | snsHkmask
  | snsOwn
  | snsConv
  | snsChk
  | snsChkres
  | snsCnt
  | snsRes
  | snsFmcfg
  | snsFmgate
  | snsFmhys
  | snsFmpost
  | snsFmperlo
  | snsFmperhi
  | snsFmstat
  | snsFmres
  | seqCtrl
  | seqStat
  | seqBank
  | seqTclo
  | seqTchi
  | seqFpos
  | seqWtmo
  | seqBgbud
  | seqPestat
  | seqCnt
  | prsStat
  | prsScfg
  | prsHbase
  | prsHsize
  | prsHprod
  | prsHcons
  | prsIgnlast
  | prsCnt
  | stlCtrl
  | stlCfg
  | stlStat
  | stlLanes
  | stlHor
  | stlEi
  | stlWrr
  | stlGrant
  | stlUsed
  | stlBuf
  | stlMrxbase
  | stlMrxidx
  | stlMtxbase
  | stlMtxidx
  | stlCnt
  | sysId
  | sysRev
  | sysSeriallo
  | sysSerialhi
  | sysStrap
  | sysStat
  | sysIgnored
  | sysIgnlast
  | sysDtlo
  | sysDthi
  | hifStat
  | hifEvstat
  | hifEven
  | hifCnt
  | hifSqbaselo
  | hifSqbasehi
  | hifCqbaselo
  | hifCqbasehi
  | hifQcfg
  | hifSqstat
  | hifCqstat
  | tbsCtrl
  | tbsStat
  | tbsCfg
  | tbsBoot
  | tbsKhash
  | tbsCnt
  | fltCfg
  | fltStat
  | fltRcfg
  | fltRwait
  | fltLogidx
  | fltCorr
  | fltUnc
  | fltCnt
  | fleUid
  | fleSeed
  | fleSync
  | fleSynclo
  | fleSynchi
  | fleSus
  | fleSbase
  | fleSsize
  | fleSidx
  | fleNstat
  | fleNlast
  | fleCnt
  deriving DecidableEq, Repr

/-- One register table: BAR0 offset of index 0, strides and counts of its indices, first index, reset value, and the
bits that are RW, W1C, RC and WO. Every other bit is RO or reserved (R9, R10). -/
structure RegDesc where
  id : RegId
  base : Nat
  stride : Nat
  count : Nat
  first : Nat
  stride2 : Nat
  count2 : Nat
  reset : Nat
  rw : Nat
  w1c : Nat
  rc : Nat
  wo : Nat
  deriving DecidableEq, Repr

/-- The registers of block SYS. -/
def regsSYS : List RegDesc := [
  ⟨.sysFabrate, 0x40, 0x0, 1, 0, 0, 1, 0x0, 0x0, 0x0, 0x0, 0x0⟩,
  ⟨.sysFabmin, 0x44, 0x0, 1, 0, 0, 1, 0xFFFF, 0x0, 0x0, 0xFFFF, 0x0⟩,
  ⟨.sysId, 0x0, 0x0, 1, 0, 0, 1, 0x45121F7A, 0x0, 0x0, 0x0, 0x0⟩,
  ⟨.sysRev, 0x4, 0x0, 1, 0, 0, 1, 0x100, 0x0, 0x0, 0x0, 0x0⟩,
  ⟨.sysSeriallo, 0x8, 0x0, 1, 0, 0, 1, 0x0, 0x0, 0x0, 0x0, 0x0⟩,
  ⟨.sysSerialhi, 0xC, 0x0, 1, 0, 0, 1, 0x0, 0x0, 0x0, 0x0, 0x0⟩,
  ⟨.sysStrap, 0x10, 0x0, 1, 0, 0, 1, 0x0, 0x0, 0x0, 0x0, 0x0⟩,
  ⟨.sysStat, 0x14, 0x0, 1, 0, 0, 1, 0x0, 0x0, 0x0, 0x0, 0x0⟩,
  ⟨.sysIgnored, 0x20, 0x0, 1, 0, 0, 1, 0x0, 0x0, 0x0, 0xFFFFFFFF, 0x0⟩,
  ⟨.sysIgnlast, 0x24, 0x0, 1, 0, 0, 1, 0x0, 0x0, 0x0, 0x0, 0x0⟩,
  ⟨.sysDtlo, 0x30, 0x0, 1, 0, 0, 1, 0x0, 0x0, 0x0, 0x0, 0x0⟩,
  ⟨.sysDthi, 0x34, 0x0, 1, 0, 0, 1, 0x0, 0x0, 0x0, 0x0, 0x0⟩]

/-- The registers of block EMI. -/
def regsEMI : List RegDesc := [
  ⟨.emiCtrl, 0xC000, 0x0, 1, 0, 0, 1, 0x0, 0x1, 0x0, 0x0, 0x2⟩,
  ⟨.emiStat, 0xC004, 0x0, 1, 0, 0, 1, 0x8, 0x0, 0x0, 0x0, 0x0⟩,
  ⟨.emiCfg, 0xC008, 0x0, 1, 0, 0, 1, 0x42, 0x3FF1FF7, 0x0, 0x0, 0x0⟩,
  ⟨.emiChcfg, 0xC020, 0x0, 1, 0, 0, 1, 0x300, 0x37F, 0x0, 0x0, 0x0⟩,
  ⟨.emiChctrl, 0xC024, 0x0, 1, 0, 0, 1, 0x0, 0xE, 0x0, 0x0, 0x1⟩,
  ⟨.emiChstat, 0xC028, 0x0, 1, 0, 0, 1, 0x0, 0x0, 0x0, 0x0, 0x0⟩,
  ⟨.emiDrcfg, 0xC030, 0x0, 1, 0, 0, 1, 0x0, 0x1FD, 0x0, 0x0, 0x0⟩,
  ⟨.emiIgnored, 0xC034, 0x0, 1, 0, 0, 1, 0x0, 0x0, 0x0, 0xFFFFFFFF, 0x0⟩,
  ⟨.emiAxmap, 0xC060, 0x4, 8, 0, 0, 1, 0x0, 0xFFFFFFFF, 0x0, 0x0, 0x0⟩,
  ⟨.emiSkip, 0xC080, 0x4, 14, 1, 0, 1, 0x0, 0x0, 0x0, 0xFFFFFFFF, 0x0⟩,
  ⟨.emiFout, 0xC100, 0x4, 64, 0, 0, 1, 0x10800, 0x1DFFFF, 0x0, 0x0, 0x0⟩]

/-- The registers of block RET. -/
def regsRET : List RegDesc := [
  ⟨.retCfg, 0x10000, 0x100, 512, 0, 0, 1, 0xB, 0xF, 0x0, 0x0, 0x0⟩,
  ⟨.retThr, 0x10004, 0x100, 512, 0, 0, 1, 0x3000040, 0x3FF03FF, 0x0, 0x0, 0x0⟩,
  ⟨.retStat, 0x10008, 0x100, 512, 0, 0, 1, 0x0, 0x0, 0x0, 0x0, 0x0⟩,
  ⟨.retRate, 0x10010, 0x100, 512, 0, 0, 1, 0x0, 0x0, 0x0, 0x0, 0x0⟩,
  ⟨.retEvents, 0x10014, 0x100, 512, 0, 0, 1, 0x0, 0x0, 0x0, 0xFFFFFFFF, 0x0⟩,
  ⟨.retPileup, 0x10018, 0x100, 512, 0, 0, 1, 0x0, 0x0, 0x0, 0xFFFFFFFF, 0x0⟩,
  ⟨.retPrec, 0x1001C, 0x100, 512, 0, 0, 1, 0x0, 0x0, 0x0, 0xFFFFFFFF, 0x0⟩,
  ⟨.retSatb, 0x10020, 0x100, 512, 0, 0, 1, 0x0, 0x0, 0x0, 0xFFFFFFFF, 0x0⟩,
  ⟨.retNsat, 0x10024, 0x100, 512, 0, 0, 1, 0x0, 0x0, 0x0, 0xFFFFFFFF, 0x0⟩]

/-- The registers of block RGP. -/
def regsRGP : List RegDesc := [
  ⟨.rgpSpc, 0x30000, 0x4, 16, 0, 0, 1, 0x0, 0x1F000000, 0x0, 0x0, 0x80000000⟩,
  ⟨.rgpDll, 0x30040, 0x0, 1, 0, 0, 1, 0x0, 0x0, 0x0, 0x0, 0x0⟩,
  ⟨.rgpStcfg, 0x30080, 0x4, 4, 0, 0, 1, 0x101001, 0xFF3FF1, 0x0, 0x0, 0x0⟩,
  ⟨.rgpStstat, 0x300A0, 0x4, 4, 0, 0, 1, 0x0, 0x0, 0x0, 0x0, 0x0⟩,
  ⟨.rgpStmiss, 0x300C0, 0x4, 4, 0, 0, 1, 0x0, 0x0, 0x0, 0xFFFFFFFF, 0x0⟩,
  ⟨.rgpStamb, 0x300D0, 0x4, 4, 0, 0, 1, 0x0, 0x0, 0x0, 0xFFFFFFFF, 0x0⟩,
  ⟨.rgpStorph, 0x300E0, 0x4, 4, 0, 0, 1, 0x0, 0x0, 0x0, 0xFFFFFFFF, 0x0⟩,
  ⟨.rgpStcs, 0x300F0, 0x0, 1, 0, 0, 1, 0x0, 0x0, 0x0, 0x0, 0x0⟩]

/-- The registers of block CTX. -/
def regsCTX : List RegDesc := [
  ⟨.ctxCfg, 0x34000, 0x0, 1, 0, 0, 1, 0x1, 0x3, 0x0, 0x0, 0x0⟩,
  ⟨.ctxHwm, 0x34004, 0x0, 1, 0, 0, 1, 0x78007C00, 0xFFFFFFFF, 0x0, 0x0, 0x0⟩,
  ⟨.ctxStat, 0x34008, 0x0, 1, 0, 0, 1, 0x0, 0x0, 0x0, 0x0, 0x0⟩,
  ⟨.ctxPeak, 0x3400C, 0x0, 1, 0, 0, 1, 0x0, 0x0, 0x0, 0xFFFF, 0x0⟩,
  ⟨.ctxZoom, 0x34010, 0x0, 1, 0, 0, 1, 0x804, 0xFFFF, 0x0, 0x0, 0x0⟩,
  ⟨.ctxMapsel, 0x34014, 0x0, 1, 0, 0, 1, 0x0, 0x0, 0x0, 0x0, 0x0⟩,
  ⟨.ctxCoin, 0x34040, 0x4, 16, 0, 0, 1, 0x224, 0xFFD, 0x0, 0x0, 0x0⟩,
  ⟨.ctxCoindrop, 0x34080, 0x4, 16, 0, 0, 1, 0x0, 0x0, 0x0, 0xFFFFFFFF, 0x0⟩,
  ⟨.ctxEvdrop, 0x340C0, 0x4, 16, 0, 0, 1, 0x0, 0x0, 0x0, 0xFFFFFFFF, 0x0⟩,
  ⟨.ctxCnt, 0x34100, 0x4, 12, 0, 0, 1, 0x0, 0x0, 0x0, 0xFFFFFFFF, 0x0⟩]

/-- The registers of block DEC. -/
def regsDEC : List RegDesc := [
  ⟨.decStat, 0x38004, 0x0, 1, 0, 0, 1, 0x100002, 0x0, 0x0, 0x0, 0x0⟩,
  ⟨.decSel, 0x38008, 0x0, 1, 0, 0, 1, 0x0, 0x0, 0x0, 0x0, 0x1⟩,
  ⟨.decCheck, 0x3800C, 0x0, 1, 0, 0, 1, 0x0, 0x1, 0x0, 0x0, 0x100⟩,
  ⟨.decChkres, 0x38010, 0x0, 1, 0, 0, 1, 0x0, 0x0, 0x0, 0x0, 0x0⟩,
  ⟨.decGdly, 0x38020, 0x4, 2, 0, 0, 1, 0x0, 0x0, 0x0, 0x0, 0x0⟩,
  ⟨.decNgain, 0x38028, 0x4, 2, 0, 0, 1, 0x0, 0x0, 0x0, 0x0, 0x0⟩,
  ⟨.decEarly, 0x38030, 0x0, 1, 0, 0, 1, 0x1000020, 0xFFFF00F1, 0x0, 0x0, 0x0⟩,
  ⟨.decLane, 0x38034, 0x0, 1, 0, 0, 1, 0x0, 0x0, 0x0, 0x0, 0x0⟩,
  ⟨.decEmask, 0x38040, 0x4, 16, 0, 0, 1, 0xFFFFFFFF, 0xFFFFFFFF, 0x0, 0x0, 0x0⟩,
  ⟨.decCnt, 0x38080, 0x4, 10, 0, 0, 1, 0x0, 0x0, 0x0, 0xFFFFFFFF, 0x0⟩]

/-- The registers of block PNT. -/
def regsPNT : List RegDesc := [
  ⟨.pntCfg, 0x3C000, 0x0, 1, 0, 0, 1, 0x44, 0x1FF, 0x0, 0x0, 0x0⟩,
  ⟨.pntBudget, 0x3C004, 0x0, 1, 0, 0, 1, 0x1000578, 0xFFFFFFFF, 0x0, 0x0, 0x0⟩,
  ⟨.pntSpec, 0x3C008, 0x0, 1, 0, 0, 1, 0x0, 0x0, 0x0, 0x0, 0x0⟩,
  ⟨.pntZsel, 0x3C00C, 0x0, 1, 0, 0, 1, 0x0, 0x0, 0x0, 0x0, 0x1⟩,
  ⟨.pntZout, 0x3C010, 0x0, 1, 0, 0, 1, 0x0, 0x0, 0x0, 0x0, 0x0⟩,
  ⟨.pntZtrip, 0x3C018, 0x4, 2, 0, 0, 1, 0x0, 0x0, 0x0, 0x0, 0x0⟩,
  ⟨.pntZhold, 0x3C020, 0x4, 4, 0, 0, 1, 0x64, 0xFFFF, 0x0, 0x0, 0x0⟩,
  ⟨.pntFstat, 0x3C040, 0x4, 5, 0, 0, 1, 0x0, 0x0, 0x0, 0x0, 0x0⟩,
  ⟨.pntCnt, 0x3C080, 0x4, 11, 0, 0, 1, 0x0, 0x0, 0x0, 0xFFFFFFFF, 0x0⟩]

/-- The registers of block CAL. -/
def regsCAL : List RegDesc := [
  ⟨.calCtrl, 0x40000, 0x0, 1, 0, 0, 1, 0x0, 0x0, 0x0, 0x0, 0x1⟩,
  ⟨.calStat, 0x40004, 0x0, 1, 0, 0, 1, 0x0, 0x0, 0x0, 0x0, 0x0⟩,
  ⟨.calCfg, 0x40008, 0x0, 1, 0, 0, 1, 0x180218, 0xFF0FFF, 0x0, 0x0, 0x0⟩,
  ⟨.calThr, 0x4000C, 0x0, 1, 0, 0, 1, 0x104420, 0x3FFFFFF, 0x0, 0x0, 0x0⟩,
  ⟨.calWalk, 0x40010, 0x0, 1, 0, 0, 1, 0x1401008, 0x1FFFF3F, 0x0, 0x0, 0x0⟩,
  ⟨.calEdly, 0x40014, 0x0, 1, 0, 0, 1, 0x6400008, 0xFFFF000F, 0x0, 0x0, 0x0⟩,
  ⟨.calTemp, 0x40018, 0x0, 1, 0, 0, 1, 0x0, 0x0, 0x0, 0x0, 0x0⟩,
  ⟨.calEpoch, 0x4001C, 0x0, 1, 0, 0, 1, 0x0, 0x0, 0x0, 0x0, 0x0⟩,
  ⟨.calStdon, 0x40020, 0x0, 1, 0, 0, 1, 0x0, 0x1FF, 0x0, 0x0, 0x0⟩,
  ⟨.calReq, 0x40024, 0x0, 1, 0, 0, 1, 0x0, 0x701FF, 0x0, 0x0, 0xC0000000⟩,
  ⟨.calZwr, 0x40028, 0x0, 1, 0, 0, 1, 0x0, 0x1FF, 0x0, 0x0, 0x80000000⟩,
  ⟨.calZval, 0x4002C, 0x0, 1, 0, 0, 1, 0x0, 0xFFFFFFFF, 0x0, 0x0, 0x0⟩,
  ⟨.calCnt, 0x40080, 0x4, 11, 0, 0, 1, 0x0, 0x0, 0x0, 0xFFFFFFFF, 0x0⟩]

/-- The registers of block AXS. -/
def regsAXS : List RegDesc := [
  ⟨.axsCtrl, 0x44000, 0x100, 4, 0, 0, 1, 0x0, 0x1F, 0x0, 0x0, 0x100⟩,
  ⟨.axsStat, 0x44004, 0x100, 4, 0, 0, 1, 0x0, 0x0, 0x20, 0x0, 0x0⟩,
  ⟨.axsTime, 0x44008, 0x100, 4, 0, 0, 1, 0x3E8, 0x3FFF3FFF, 0x0, 0x0, 0x0⟩,
  ⟨.axsSens, 0x4400C, 0x100, 4, 0, 0, 1, 0x8000000, 0xFFF003F, 0x0, 0x0, 0x0⟩,
  ⟨.axsSgain, 0x44010, 0x100, 4, 0, 0, 1, 0x1000, 0xFFFFFF, 0x0, 0x0, 0x0⟩,
  ⟨.axsTmin, 0x44014, 0x100, 4, 0, 0, 1, 0x800000, 0xFFFFFF, 0x0, 0x0, 0x0⟩,
  ⟨.axsTmax, 0x44018, 0x100, 4, 0, 0, 1, 0x7FFFFF, 0xFFFFFF, 0x0, 0x0, 0x0⟩,
  ⟨.axsVmax, 0x4401C, 0x100, 4, 0, 0, 1, 0x0, 0xFFFFFFFF, 0x0, 0x0, 0x0⟩,
  ⟨.axsAmax, 0x44020, 0x100, 4, 0, 0, 1, 0x0, 0xFFFFFFFF, 0x0, 0x0, 0x0⟩,
  ⟨.axsFe, 0x44024, 0x100, 4, 0, 0, 1, 0x10004000, 0xFFFFFFFF, 0x0, 0x0, 0x0⟩,
  ⟨.axsSet, 0x44028, 0x100, 4, 0, 0, 1, 0x0, 0xFFFFFF, 0x0, 0x0, 0x0⟩,
  ⟨.axsSafe, 0x4402C, 0x100, 4, 0, 0, 1, 0x0, 0x3FFFF, 0x0, 0x0, 0x0⟩,
  ⟨.axsPos, 0x44030, 0x100, 4, 0, 0, 1, 0x0, 0x0, 0x0, 0x0, 0x0⟩,
  ⟨.axsTraj, 0x44034, 0x100, 4, 0, 0, 1, 0x0, 0x0, 0x0, 0x0, 0x0⟩,
  ⟨.axsFtw, 0x44038, 0x100, 4, 0, 0, 1, 0x0, 0xFFFFFFFF, 0x0, 0x0, 0x0⟩,
  ⟨.axsRes, 0x4403C, 0x100, 4, 0, 0, 1, 0x4100000, 0xFFFFFFFF, 0x0, 0x0, 0x0⟩,
  ⟨.axsRec, 0x44040, 0x100, 4, 0, 0, 1, 0x0, 0x700, 0x0, 0x0, 0x8000⟩,
  ⟨.axsSched, 0x44044, 0x100, 4, 0, 0, 1, 0x0, 0xFFFFFF07, 0x0, 0x0, 0x0⟩,
  ⟨.axsTrc, 0x44048, 0x100, 4, 0, 0, 1, 0x0, 0xFFFFFFF3, 0x0, 0x0, 0x0⟩,
  ⟨.axsTrcs, 0x4404C, 0x100, 4, 0, 0, 1, 0x0, 0x0, 0x0, 0x0, 0x0⟩,
  ⟨.axsCnt, 0x44060, 0x100, 4, 0, 4, 7, 0x0, 0x0, 0x0, 0xFFFFFFFF, 0x0⟩]

/-- The registers of block SNS. -/
def regsSNS : List RegDesc := [
  ⟨.snsCfg, 0x48000, 0x0, 1, 0, 0, 1, 0x64, 0x3FF, 0x0, 0x0, 0x0⟩,
  ⟨.snsHkmask, 0x48010, 0x4, 4, 0, 0, 1, 0x0, 0xFFFF, 0x0, 0x0, 0x0⟩,
  ⟨.snsOwn, 0x48020, 0x4, 4, 0, 0, 1, 0x0, 0x0, 0x0, 0x0, 0x0⟩,
  ⟨.snsConv, 0x48030, 0x0, 1, 0, 0, 1, 0x0, 0x3F, 0x0, 0x0, 0x80000000⟩,
  ⟨.snsChk, 0x48034, 0x0, 1, 0, 0, 1, 0xC0000, 0xFFFFFF, 0x0, 0x0, 0x80000000⟩,
  ⟨.snsChkres, 0x48038, 0x0, 1, 0, 0, 1, 0x0, 0x0, 0x0, 0x0, 0x0⟩,
  ⟨.snsCnt, 0x48080, 0x4, 7, 0, 0, 1, 0x0, 0x0, 0x0, 0xFFFFFFFF, 0x0⟩,
  ⟨.snsRes, 0x48100, 0x40, 4, 0, 4, 16, 0x0, 0x0, 0x0, 0x0, 0x0⟩,
  ⟨.snsFmcfg, 0x48400, 0x20, 8, 0, 0, 1, 0x1000, 0x8FFFFFFF, 0x0, 0x0, 0x0⟩,
  ⟨.snsFmgate, 0x48404, 0x20, 8, 0, 0, 1, 0x3E8, 0x3FFF, 0x0, 0x0, 0x0⟩,
  ⟨.snsFmhys, 0x48408, 0x20, 8, 0, 0, 1, 0x0, 0xFFFFFF, 0x0, 0x0, 0x0⟩,
  ⟨.snsFmpost, 0x4840C, 0x20, 8, 0, 0, 1, 0x0, 0x0, 0x0, 0x0, 0xFFFFFFFF⟩,
  ⟨.snsFmperlo, 0x48410, 0x20, 8, 0, 0, 1, 0x0, 0x0, 0x0, 0x0, 0x0⟩,
  ⟨.snsFmperhi, 0x48414, 0x20, 8, 0, 0, 1, 0x0, 0x0, 0x0, 0x0, 0x0⟩,
  ⟨.snsFmstat, 0x48418, 0x20, 8, 0, 0, 1, 0x0, 0x0, 0x0, 0x0, 0x0⟩,
  ⟨.snsFmres, 0x4841C, 0x20, 8, 0, 0, 1, 0x0, 0x0, 0x0, 0x0, 0x0⟩]

/-- The registers of block SEQ. -/
def regsSEQ : List RegDesc := [
  ⟨.seqCtrl, 0x4C000, 0x0, 1, 0, 0, 1, 0x0, 0xFFFF0001, 0x0, 0x0, 0x0⟩,
  ⟨.seqStat, 0x4C004, 0x0, 1, 0, 0, 1, 0x0, 0x0, 0x0, 0x0, 0x0⟩,
  ⟨.seqBank, 0x4C008, 0x0, 1, 0, 0, 1, 0x0, 0xA00, 0x0, 0x0, 0x500⟩,
  ⟨.seqTclo, 0x4C010, 0x0, 1, 0, 0, 1, 0x0, 0x0, 0x0, 0x0, 0x0⟩,
  ⟨.seqTchi, 0x4C014, 0x0, 1, 0, 0, 1, 0x0, 0x0, 0x0, 0x0, 0x0⟩,
  ⟨.seqFpos, 0x4C018, 0x0, 1, 0, 0, 1, 0x0, 0x0, 0x0, 0x0, 0x0⟩,
  ⟨.seqWtmo, 0x4C01C, 0x0, 1, 0, 0, 1, 0x186A00, 0xFFFFFFFF, 0x0, 0x0, 0x0⟩,
  ⟨.seqBgbud, 0x4C020, 0x0, 1, 0, 0, 1, 0x100, 0xFFFF, 0x0, 0x0, 0x0⟩,
  ⟨.seqPestat, 0x4C040, 0x4, 16, 0, 0, 1, 0x0, 0x0, 0x300, 0x0, 0x0⟩,
  ⟨.seqCnt, 0x4C080, 0x4, 10, 0, 0, 1, 0x0, 0x0, 0x0, 0xFFFFFFFF, 0x0⟩]

/-- The registers of block PRS. -/
def regsPRS : List RegDesc := [
  ⟨.prsStat, 0x50004, 0x0, 1, 0, 0, 1, 0x0, 0x0, 0x0, 0x0, 0x0⟩,
  ⟨.prsScfg, 0x50010, 0x4, 2, 0, 0, 1, 0x14007E02, 0xFF03FF1F, 0x0, 0x0, 0x0⟩,
  ⟨.prsHbase, 0x50020, 0x0, 1, 0, 0, 1, 0x400000, 0xFFFFFFFF, 0x0, 0x0, 0x0⟩,
  ⟨.prsHsize, 0x50024, 0x0, 1, 0, 0, 1, 0x0, 0x1FF, 0x0, 0x0, 0x0⟩,
  ⟨.prsHprod, 0x50028, 0x0, 1, 0, 0, 1, 0x0, 0xFF, 0x0, 0x0, 0x0⟩,
  ⟨.prsHcons, 0x5002C, 0x0, 1, 0, 0, 1, 0x0, 0x0, 0x0, 0x0, 0x0⟩,
  ⟨.prsIgnlast, 0x50030, 0x0, 1, 0, 0, 1, 0x0, 0x0, 0x0, 0x0, 0x0⟩,
  ⟨.prsCnt, 0x50080, 0x4, 10, 0, 0, 1, 0x0, 0x0, 0x0, 0xFFFFFFFF, 0x0⟩]

/-- The registers of block STL. -/
def regsSTL : List RegDesc := [
  ⟨.stlCtrl, 0x54000, 0x0, 1, 0, 0, 1, 0x0, 0x0, 0x0, 0x0, 0x1⟩,
  ⟨.stlCfg, 0x54004, 0x0, 1, 0, 0, 1, 0x4000, 0xFF03, 0x0, 0x0, 0x0⟩,
  ⟨.stlStat, 0x54008, 0x0, 1, 0, 0, 1, 0x0, 0x0, 0x0, 0x0, 0x0⟩,
  ⟨.stlLanes, 0x5400C, 0x0, 1, 0, 0, 1, 0x0, 0x0, 0x0, 0x0, 0x0⟩,
  ⟨.stlHor, 0x54010, 0x0, 1, 0, 0, 1, 0x7D0, 0xFFFF, 0x0, 0x0, 0x0⟩,
  ⟨.stlEi, 0x54014, 0x0, 1, 0, 0, 1, 0x3E80814, 0xFFFF3FFF, 0x0, 0x0, 0x0⟩,
  ⟨.stlWrr, 0x54018, 0x0, 1, 0, 0, 1, 0x10F, 0xFFFF, 0x0, 0x0, 0x0⟩,
  ⟨.stlGrant, 0x54020, 0x4, 2, 0, 0, 1, 0x0, 0x0, 0x0, 0x0, 0x0⟩,
  ⟨.stlUsed, 0x54028, 0x4, 2, 0, 0, 1, 0x0, 0x0, 0x0, 0x0, 0x0⟩,
  ⟨.stlBuf, 0x54030, 0x4, 4, 0, 0, 1, 0x0, 0x0, 0x0, 0x0, 0x0⟩,
  ⟨.stlMrxbase, 0x54040, 0x0, 1, 0, 0, 1, 0x0, 0xFFFFFFFF, 0x0, 0x0, 0x0⟩,
  ⟨.stlMrxidx, 0x54044, 0x0, 1, 0, 0, 1, 0x0, 0x3F007F, 0x0, 0x0, 0x0⟩,
  ⟨.stlMtxbase, 0x54048, 0x0, 1, 0, 0, 1, 0x0, 0xFFFFFFFF, 0x0, 0x0, 0x0⟩,
  ⟨.stlMtxidx, 0x5404C, 0x0, 1, 0, 0, 1, 0x0, 0x3F7F, 0x0, 0x0, 0x0⟩,
  ⟨.stlCnt, 0x54080, 0x4, 13, 0, 0, 1, 0x0, 0x0, 0x0, 0xFFFFFFFF, 0x0⟩]

/-- The registers of block HIF. -/
def regsHIF : List RegDesc := [
  ⟨.hifStat, 0x4000, 0x0, 1, 0, 0, 1, 0x0, 0x0, 0x0, 0x0, 0x0⟩,
  ⟨.hifEvstat, 0x4010, 0x0, 1, 0, 0, 1, 0x0, 0x0, 0x3FFF00, 0x0, 0x0⟩,
  ⟨.hifEven, 0x4014, 0x0, 1, 0, 0, 1, 0x0, 0x3FFF00, 0x0, 0x0, 0x0⟩,
  ⟨.hifCnt, 0x4080, 0x4, 5, 0, 0, 1, 0x0, 0x0, 0x0, 0xFFFFFFFF, 0x0⟩,
  ⟨.hifSqbaselo, 0x4100, 0x20, 8, 0, 0, 1, 0x0, 0xFFFFF000, 0x0, 0x0, 0x0⟩,
  ⟨.hifSqbasehi, 0x4104, 0x20, 8, 0, 0, 1, 0x0, 0xFFFFFFFF, 0x0, 0x0, 0x0⟩,
  ⟨.hifCqbaselo, 0x4108, 0x20, 8, 0, 0, 1, 0x0, 0xFFFFF000, 0x0, 0x0, 0x0⟩,
  ⟨.hifCqbasehi, 0x410C, 0x20, 8, 0, 0, 1, 0x0, 0xFFFFFFFF, 0x0, 0x0, 0x0⟩,
  ⟨.hifQcfg, 0x4110, 0x20, 8, 0, 0, 1, 0x0, 0x9FFFFFFF, 0x0, 0x0, 0x0⟩,
  ⟨.hifSqstat, 0x4114, 0x20, 8, 0, 0, 1, 0x0, 0x0, 0x0, 0x0, 0x0⟩,
  ⟨.hifCqstat, 0x4118, 0x20, 8, 0, 0, 1, 0x0, 0x0, 0x0, 0x0, 0x0⟩]

/-- The registers of block TBS. -/
def regsTBS : List RegDesc := [
  ⟨.tbsCtrl, 0x8000, 0x0, 1, 0, 0, 1, 0x0, 0x0, 0x0, 0x0, 0x3⟩,
  ⟨.tbsStat, 0x8004, 0x0, 1, 0, 0, 1, 0x0, 0x0, 0x0, 0x0, 0x0⟩,
  ⟨.tbsCfg, 0x8008, 0x0, 1, 0, 0, 1, 0x0, 0x3, 0x0, 0x0, 0x0⟩,
  ⟨.tbsBoot, 0x800C, 0x0, 1, 0, 0, 1, 0x0, 0x0, 0x0, 0x0, 0x0⟩,
  ⟨.tbsKhash, 0x8020, 0x4, 8, 0, 0, 1, 0x0, 0xFFFFFFFF, 0x0, 0x0, 0x0⟩,
  ⟨.tbsCnt, 0x8080, 0x4, 2, 0, 0, 1, 0x0, 0x0, 0x0, 0xFFFFFFFF, 0x0⟩]

/-- The registers of block FLT. -/
def regsFLT : List RegDesc := [
  ⟨.fltCfg, 0x58000, 0x0, 1, 0, 0, 1, 0x2, 0x3, 0x0, 0x0, 0x0⟩,
  ⟨.fltStat, 0x58004, 0x0, 1, 0, 0, 1, 0x0, 0x0, 0x0, 0x0, 0x0⟩,
  ⟨.fltRcfg, 0x58008, 0x0, 1, 0, 0, 1, 0x1000, 0xFFFFFF, 0x0, 0x0, 0x0⟩,
  ⟨.fltRwait, 0x5800C, 0x0, 1, 0, 0, 1, 0xFA, 0xFFFF, 0x0, 0x0, 0x0⟩,
  ⟨.fltLogidx, 0x58010, 0x0, 1, 0, 0, 1, 0x0, 0xFF, 0x10000, 0x0, 0x0⟩,
  ⟨.fltCorr, 0x58040, 0x4, 8, 0, 0, 1, 0x0, 0x0, 0x0, 0xFFFFFFFF, 0x0⟩,
  ⟨.fltUnc, 0x58060, 0x4, 8, 0, 0, 1, 0x0, 0x0, 0x0, 0xFFFFFFFF, 0x0⟩,
  ⟨.fltCnt, 0x58080, 0x4, 11, 0, 0, 1, 0x0, 0x0, 0x0, 0xFFFFFFFF, 0x0⟩]

/-- The registers of block FLE. -/
def regsFLE : List RegDesc := [
  ⟨.fleUid, 0x5C000, 0x0, 1, 0, 0, 1, 0x0, 0x7FF, 0x0, 0x0, 0x0⟩,
  ⟨.fleSeed, 0x5C004, 0x0, 1, 0, 0, 1, 0x0, 0xFFFFFFFF, 0x0, 0x0, 0x0⟩,
  ⟨.fleSync, 0x5C008, 0x0, 1, 0, 0, 1, 0x103E8, 0xFFFFFF, 0x0, 0x0, 0x0⟩,
  ⟨.fleSynclo, 0x5C00C, 0x0, 1, 0, 0, 1, 0x0, 0x0, 0x0, 0x0, 0x0⟩,
  ⟨.fleSynchi, 0x5C010, 0x0, 1, 0, 0, 1, 0x0, 0x0, 0x0, 0x0, 0x0⟩,
  ⟨.fleSus, 0x5C020, 0x0, 1, 0, 0, 1, 0x830, 0xFFFFFFF3, 0x0, 0x0, 0x0⟩,
  ⟨.fleSbase, 0x5C024, 0x0, 1, 0, 0, 1, 0x400000, 0xFFFFFFFF, 0x0, 0x0, 0x0⟩,
  ⟨.fleSsize, 0x5C028, 0x0, 1, 0, 0, 1, 0x0, 0xFFFF, 0x0, 0x0, 0x0⟩,
  ⟨.fleSidx, 0x5C02C, 0x0, 1, 0, 0, 1, 0x0, 0xFFFF0000, 0x0, 0x0, 0x0⟩,
  ⟨.fleNstat, 0x5C030, 0x0, 1, 0, 0, 1, 0x0, 0x0, 0x0, 0x0, 0x0⟩,
  ⟨.fleNlast, 0x5C034, 0x0, 1, 0, 0, 1, 0x0, 0x0, 0x0, 0x0, 0x0⟩,
  ⟨.fleCnt, 0x5C080, 0x4, 11, 0, 0, 1, 0x0, 0x0, 0x0, 0xFFFFFFFF, 0x0⟩]

/-- A field of a register: BAR0 offset, lowest bit, width. -/
structure Fld where
  off : Nat
  lo : Nat
  w : Nat
  deriving DecidableEq, Repr

namespace F

def SYS_FABRATE_VALID : Fld := ⟨0x40, 16, 1⟩
def SYS_FABRATE_RATE : Fld := ⟨0x40, 0, 16⟩
def SYS_FABMIN_MIN : Fld := ⟨0x44, 0, 16⟩
def EMI_CTRL_REARM : Fld := ⟨0xC000, 1, 1⟩
def EMI_CTRL_ARM : Fld := ⟨0xC000, 0, 1⟩
def EMI_STAT_DRENT : Fld := ⟨0xC004, 8, 4⟩
def EMI_STAT_CHFLT : Fld := ⟨0xC004, 7, 1⟩
def EMI_STAT_CHBUSY : Fld := ⟨0xC004, 6, 1⟩
def EMI_STAT_TFLATCH : Fld := ⟨0xC004, 5, 1⟩
def EMI_STAT_TFLT : Fld := ⟨0xC004, 4, 1⟩
def EMI_STAT_INH : Fld := ⟨0xC004, 3, 1⟩
def EMI_STAT_PERMOK : Fld := ⟨0xC004, 2, 1⟩
def EMI_STAT_PTRIP : Fld := ⟨0xC004, 1, 1⟩
def EMI_STAT_ARMED : Fld := ⟨0xC004, 0, 1⟩
def EMI_CFG_AMP : Fld := ⟨0xC008, 16, 10⟩
def EMI_CFG_BLANK : Fld := ⟨0xC008, 4, 9⟩
def EMI_CFG_TFACT : Fld := ⟨0xC008, 1, 2⟩
def EMI_CFG_MODE : Fld := ⟨0xC008, 0, 1⟩
def EMI_CHCFG_FACT : Fld := ⟨0xC020, 9, 1⟩
def EMI_CHCFG_LGUARD : Fld := ⟨0xC020, 8, 1⟩
def EMI_CHCFG_LEN : Fld := ⟨0xC020, 0, 7⟩
def EMI_CHCTRL_IMAGE : Fld := ⟨0xC024, 1, 3⟩
def EMI_CHCTRL_GO : Fld := ⟨0xC024, 0, 1⟩
def EMI_CHSTAT_SEQ : Fld := ⟨0xC028, 16, 8⟩
def EMI_CHSTAT_BITS : Fld := ⟨0xC028, 8, 8⟩
def EMI_CHSTAT_RESULT : Fld := ⟨0xC028, 0, 3⟩
def EMI_DRCFG_INV : Fld := ⟨0xC030, 8, 1⟩
def EMI_DRCFG_INPUT : Fld := ⟨0xC030, 4, 4⟩
def EMI_DRCFG_CONV : Fld := ⟨0xC030, 2, 2⟩
def EMI_DRCFG_EN : Fld := ⟨0xC030, 0, 1⟩
def EMI_IGNORED_PFAST : Fld := ⟨0xC034, 16, 16⟩
def EMI_IGNORED_CMD : Fld := ⟨0xC034, 0, 16⟩
def EMI_AXMAP_AXM (k : Nat) : Fld := ⟨0xC060 + 4 * k, 0, 32⟩
def EMI_SKIP_COUNT (k : Nat) : Fld := ⟨0xC080 + 4 * k, 0, 32⟩
def EMI_FOUT_STC (n : Nat) : Fld := ⟨0xC100 + 4 * n, 19, 2⟩
def EMI_FOUT_POL (n : Nat) : Fld := ⟨0xC100 + 4 * n, 18, 1⟩
def EMI_FOUT_EN (n : Nat) : Fld := ⟨0xC100 + 4 * n, 16, 1⟩
def EMI_FOUT_WIDTH (n : Nat) : Fld := ⟨0xC100 + 4 * n, 8, 8⟩
def EMI_FOUT_TRIM (n : Nat) : Fld := ⟨0xC100 + 4 * n, 0, 8⟩
def RET_CFG_TAUTO (n : Nat) : Fld := ⟨0x10000 + 256 * n, 3, 1⟩
def RET_CFG_SLOPE (n : Nat) : Fld := ⟨0x10000 + 256 * n, 1, 2⟩
def RET_CFG_EN (n : Nat) : Fld := ⟨0x10000 + 256 * n, 0, 1⟩
def RET_THR_HCODE (n : Nat) : Fld := ⟨0x10004 + 256 * n, 16, 10⟩
def RET_THR_LCODE (n : Nat) : Fld := ⟨0x10004 + 256 * n, 0, 10⟩
def RET_STAT_SATNOW (n : Nat) : Fld := ⟨0x10008 + 256 * n, 5, 1⟩
def RET_STAT_CALST (n : Nat) : Fld := ⟨0x10008 + 256 * n, 3, 2⟩
def RET_STAT_STALE (n : Nat) : Fld := ⟨0x10008 + 256 * n, 2, 1⟩
def RET_STAT_OOS (n : Nat) : Fld := ⟨0x10008 + 256 * n, 1, 1⟩
def RET_STAT_SPARED (n : Nat) : Fld := ⟨0x10008 + 256 * n, 0, 1⟩
def RET_RATE_COUNT (n : Nat) : Fld := ⟨0x10010 + 256 * n, 0, 24⟩
def RET_EVENTS_COUNT (n : Nat) : Fld := ⟨0x10014 + 256 * n, 0, 32⟩
def RET_PILEUP_COUNT (n : Nat) : Fld := ⟨0x10018 + 256 * n, 0, 32⟩
def RET_PREC_COUNT (n : Nat) : Fld := ⟨0x1001C + 256 * n, 0, 32⟩
def RET_SATB_COUNT (n : Nat) : Fld := ⟨0x10020 + 256 * n, 0, 32⟩
def RET_NSAT_COUNT (n : Nat) : Fld := ⟨0x10024 + 256 * n, 0, 32⟩
def RGP_SPC_RETIRE (k : Nat) : Fld := ⟨0x30000 + 4 * k, 31, 1⟩
def RGP_SPC_RCHAN (k : Nat) : Fld := ⟨0x30000 + 4 * k, 24, 5⟩
def RGP_SPC_FAIL (k : Nat) : Fld := ⟨0x30000 + 4 * k, 16, 1⟩
def RGP_SPC_READY (k : Nat) : Fld := ⟨0x30000 + 4 * k, 12, 1⟩
def RGP_SPC_OWNER (k : Nat) : Fld := ⟨0x30000 + 4 * k, 8, 2⟩
def RGP_SPC_TARGET (k : Nat) : Fld := ⟨0x30000 + 4 * k, 0, 5⟩
def RGP_DLL_ALL : Fld := ⟨0x30040, 16, 1⟩
def RGP_DLL_LOCK : Fld := ⟨0x30040, 0, 16⟩
def RGP_STCFG_PWIN (s : Nat) : Fld := ⟨0x30080 + 4 * s, 16, 8⟩
def RGP_STCFG_TCODE (s : Nat) : Fld := ⟨0x30080 + 4 * s, 4, 10⟩
def RGP_STCFG_EN (s : Nat) : Fld := ⟨0x30080 + 4 * s, 0, 1⟩
def RGP_STSTAT_SPARED (s : Nat) : Fld := ⟨0x300A0 + 4 * s, 10, 1⟩
def RGP_STSTAT_DARK (s : Nat) : Fld := ⟨0x300A0 + 4 * s, 9, 1⟩
def RGP_STSTAT_FAULT (s : Nat) : Fld := ⟨0x300A0 + 4 * s, 8, 1⟩
def RGP_STSTAT_MISSRUN (s : Nat) : Fld := ⟨0x300A0 + 4 * s, 0, 5⟩
def RGP_STMISS_COUNT (s : Nat) : Fld := ⟨0x300C0 + 4 * s, 0, 32⟩
def RGP_STAMB_COUNT (s : Nat) : Fld := ⟨0x300D0 + 4 * s, 0, 32⟩
def RGP_STORPH_COUNT (s : Nat) : Fld := ⟨0x300E0 + 4 * s, 0, 32⟩
def RGP_STCS_FAIL : Fld := ⟨0x300F0, 5, 1⟩
def RGP_STCS_ACTIVE : Fld := ⟨0x300F0, 4, 1⟩
def RGP_STCS_TARGET : Fld := ⟨0x300F0, 0, 2⟩
def CTX_CFG_BINW : Fld := ⟨0x34000, 0, 2⟩
def CTX_HWM_LOW : Fld := ⟨0x34004, 16, 16⟩
def CTX_HWM_HIGH : Fld := ⟨0x34004, 0, 16⟩
def CTX_STAT_QSKIP : Fld := ⟨0x34008, 16, 1⟩
def CTX_STAT_INUSE : Fld := ⟨0x34008, 0, 16⟩
def CTX_PEAK_PEAK : Fld := ⟨0x3400C, 0, 16⟩
def CTX_ZOOM_ZMUL : Fld := ⟨0x34010, 8, 8⟩
def CTX_ZOOM_ZMIN : Fld := ⟨0x34010, 0, 8⟩
def CTX_MAPSEL_PENDV : Fld := ⟨0x34014, 7, 1⟩
def CTX_MAPSEL_PEND : Fld := ⟨0x34014, 4, 3⟩
def CTX_MAPSEL_CUR : Fld := ⟨0x34014, 0, 3⟩
def CTX_COIN_WIN (k : Nat) : Fld := ⟨0x34040 + 4 * k, 8, 4⟩
def CTX_COIN_N (k : Nat) : Fld := ⟨0x34040 + 4 * k, 4, 4⟩
def CTX_COIN_M (k : Nat) : Fld := ⟨0x34040 + 4 * k, 2, 2⟩
def CTX_COIN_EN (k : Nat) : Fld := ⟨0x34040 + 4 * k, 0, 1⟩
def CTX_COINDROP_COUNT (k : Nat) : Fld := ⟨0x34080 + 4 * k, 0, 32⟩
def CTX_EVDROP_COUNT (k : Nat) : Fld := ⟨0x340C0 + 4 * k, 0, 32⟩
def CTX_CNT_COUNT (i : Nat) : Fld := ⟨0x34100 + 4 * i, 0, 32⟩
def DEC_STAT_LANES : Fld := ⟨0x38004, 16, 5⟩
def DEC_STAT_HELD : Fld := ⟨0x38004, 6, 1⟩
def DEC_STAT_PSET : Fld := ⟨0x38004, 5, 1⟩
def DEC_STAT_PEND : Fld := ⟨0x38004, 4, 1⟩
def DEC_STAT_VALID1 : Fld := ⟨0x38004, 3, 1⟩
def DEC_STAT_VALID0 : Fld := ⟨0x38004, 2, 1⟩
def DEC_STAT_CUR : Fld := ⟨0x38004, 0, 2⟩
def DEC_SEL_SET : Fld := ⟨0x38008, 0, 1⟩
def DEC_CHECK_GO : Fld := ⟨0x3800C, 8, 1⟩
def DEC_CHECK_SET : Fld := ⟨0x3800C, 0, 1⟩
def DEC_CHKRES_SET : Fld := ⟨0x38010, 8, 1⟩
def DEC_CHKRES_CODE : Fld := ⟨0x38010, 0, 3⟩
def DEC_GDLY_DEC2 (s : Nat) : Fld := ⟨0x38020 + 4 * s, 16, 1⟩
def DEC_GDLY_DIN (s : Nat) : Fld := ⟨0x38020 + 4 * s, 0, 16⟩
def DEC_NGAIN_NG (s : Nat) : Fld := ⟨0x38028 + 4 * s, 0, 24⟩
def DEC_EARLY_BGMAX : Fld := ⟨0x38030, 16, 16⟩
def DEC_EARLY_SHOTS : Fld := ⟨0x38030, 4, 4⟩
def DEC_EARLY_EN : Fld := ⟨0x38030, 0, 1⟩
def DEC_LANE_BUSY : Fld := ⟨0x38034, 16, 16⟩
def DEC_LANE_FAIL : Fld := ⟨0x38034, 0, 16⟩
def DEC_EMASK_EM (k : Nat) : Fld := ⟨0x38040 + 4 * k, 0, 32⟩
def DEC_CNT_COUNT (i : Nat) : Fld := ⟨0x38080 + 4 * i, 0, 32⟩
def PNT_CFG_ISH : Fld := ⟨0x3C000, 4, 5⟩
def PNT_CFG_VAX : Fld := ⟨0x3C000, 2, 2⟩
def PNT_CFG_HAX : Fld := ⟨0x3C000, 0, 2⟩
def PNT_BUDGET_EARLY : Fld := ⟨0x3C004, 16, 16⟩
def PNT_BUDGET_PIX : Fld := ⟨0x3C004, 0, 16⟩
def PNT_SPEC_OUTST : Fld := ⟨0x3C008, 16, 15⟩
def PNT_SPEC_NEXT : Fld := ⟨0x3C008, 0, 16⟩
def PNT_ZSEL_PEND : Fld := ⟨0x3C00C, 9, 1⟩
def PNT_ZSEL_CUR : Fld := ⟨0x3C00C, 8, 1⟩
def PNT_ZSEL_SEL : Fld := ⟨0x3C00C, 0, 1⟩
def PNT_ZOUT_HOLDING : Fld := ⟨0x3C010, 4, 4⟩
def PNT_ZOUT_PIN : Fld := ⟨0x3C010, 0, 4⟩
def PNT_ZTRIP_NCLR (j : Nat) : Fld := ⟨0x3C018 + 4 * j, 0, 32⟩
def PNT_ZHOLD_HOLD (n : Nat) : Fld := ⟨0x3C020 + 4 * n, 0, 16⟩
def PNT_FSTAT_VALUE (k : Nat) : Fld := ⟨0x3C040 + 4 * k, 0, 32⟩
def PNT_CNT_COUNT (i : Nat) : Fld := ⟨0x3C080 + 4 * i, 0, 32⟩
def CAL_CTRL_LOAD : Fld := ⟨0x40000, 0, 1⟩
def CAL_STAT_LOADED : Fld := ⟨0x40004, 15, 1⟩
def CAL_STAT_STCAL : Fld := ⟨0x40004, 14, 1⟩
def CAL_STAT_TRIM : Fld := ⟨0x40004, 13, 1⟩
def CAL_STAT_SWEEP : Fld := ⟨0x40004, 12, 1⟩
def CAL_STAT_NFULL : Fld := ⟨0x40004, 0, 10⟩
def CAL_CFG_WMAX : Fld := ⟨0x40008, 16, 8⟩
def CAL_CFG_TOTX : Fld := ⟨0x40008, 8, 4⟩
def CAL_CFG_TSTEP : Fld := ⟨0x40008, 0, 8⟩
def CAL_THR_LMIN : Fld := ⟨0x4000C, 16, 10⟩
def CAL_THR_SSTEP : Fld := ⟨0x4000C, 12, 4⟩
def CAL_THR_SLEW : Fld := ⟨0x4000C, 8, 4⟩
def CAL_THR_KSIG : Fld := ⟨0x4000C, 0, 8⟩
def CAL_WALK_EN : Fld := ⟨0x40010, 24, 1⟩
def CAL_WALK_SPAN : Fld := ⟨0x40010, 16, 8⟩
def CAL_WALK_NUPD : Fld := ⟨0x40010, 8, 8⟩
def CAL_WALK_TREF : Fld := ⟨0x40010, 0, 6⟩
def CAL_EDLY_ACQ : Fld := ⟨0x40014, 16, 16⟩
def CAL_EDLY_ALPHA : Fld := ⟨0x40014, 0, 4⟩
def CAL_TEMP_VALID : Fld := ⟨0x40018, 16, 1⟩
def CAL_TEMP_TEMP : Fld := ⟨0x40018, 0, 16⟩
def CAL_EPOCH_EPOCH : Fld := ⟨0x4001C, 0, 32⟩
def CAL_STDON_DONOR : Fld := ⟨0x40020, 0, 9⟩
def CAL_REQ_TRIM : Fld := ⟨0x40024, 31, 1⟩
def CAL_REQ_START : Fld := ⟨0x40024, 30, 1⟩
def CAL_REQ_SIDX : Fld := ⟨0x40024, 16, 3⟩
def CAL_REQ_CHAN : Fld := ⟨0x40024, 0, 9⟩
def CAL_ZWR_GO : Fld := ⟨0x40028, 31, 1⟩
def CAL_ZWR_CHAN : Fld := ⟨0x40028, 0, 9⟩
def CAL_ZVAL_Z0 : Fld := ⟨0x4002C, 0, 32⟩
def CAL_CNT_COUNT (i : Nat) : Fld := ⟨0x40080 + 4 * i, 0, 32⟩
def AXS_CTRL_CLR (a : Nat) : Fld := ⟨0x44000 + 256 * a, 8, 1⟩
def AXS_CTRL_FEEN (a : Nat) : Fld := ⟨0x44000 + 256 * a, 4, 1⟩
def AXS_CTRL_TRACK (a : Nat) : Fld := ⟨0x44000 + 256 * a, 3, 1⟩
def AXS_CTRL_SRC (a : Nat) : Fld := ⟨0x44000 + 256 * a, 2, 1⟩
def AXS_CTRL_MODE (a : Nat) : Fld := ⟨0x44000 + 256 * a, 1, 1⟩
def AXS_CTRL_EN (a : Nat) : Fld := ⟨0x44000 + 256 * a, 0, 1⟩
def AXS_STAT_REPEAT (a : Nat) : Fld := ⟨0x44004 + 256 * a, 6, 1⟩
def AXS_STAT_CLAMP (a : Nat) : Fld := ⟨0x44004 + 256 * a, 5, 1⟩
def AXS_STAT_CAUSE (a : Nat) : Fld := ⟨0x44004 + 256 * a, 2, 3⟩
def AXS_STAT_FAULT (a : Nat) : Fld := ⟨0x44004 + 256 * a, 1, 1⟩
def AXS_STAT_RUN (a : Nat) : Fld := ⟨0x44004 + 256 * a, 0, 1⟩
def AXS_TIME_PHASE (a : Nat) : Fld := ⟨0x44008 + 256 * a, 16, 14⟩
def AXS_TIME_PERIOD (a : Nat) : Fld := ⟨0x44008 + 256 * a, 0, 14⟩
def AXS_SENS_SZERO (a : Nat) : Fld := ⟨0x4400C + 256 * a, 16, 12⟩
def AXS_SENS_INPUT (a : Nat) : Fld := ⟨0x4400C + 256 * a, 2, 4⟩
def AXS_SENS_CONV (a : Nat) : Fld := ⟨0x4400C + 256 * a, 0, 2⟩
def AXS_SGAIN_SGAIN (a : Nat) : Fld := ⟨0x44010 + 256 * a, 0, 24⟩
def AXS_TMIN_TMIN (a : Nat) : Fld := ⟨0x44014 + 256 * a, 0, 24⟩
def AXS_TMAX_TMAX (a : Nat) : Fld := ⟨0x44018 + 256 * a, 0, 24⟩
def AXS_VMAX_VMAX (a : Nat) : Fld := ⟨0x4401C + 256 * a, 0, 32⟩
def AXS_AMAX_AMAX (a : Nat) : Fld := ⟨0x44020 + 256 * a, 0, 32⟩
def AXS_FE_FETIME (a : Nat) : Fld := ⟨0x44024 + 256 * a, 24, 8⟩
def AXS_FE_FELIM (a : Nat) : Fld := ⟨0x44024 + 256 * a, 0, 24⟩
def AXS_SET_SET (a : Nat) : Fld := ⟨0x44028 + 256 * a, 0, 24⟩
def AXS_SAFE_WORD (a : Nat) : Fld := ⟨0x4402C + 256 * a, 0, 18⟩
def AXS_POS_Y (a : Nat) : Fld := ⟨0x44030 + 256 * a, 0, 24⟩
def AXS_TRAJ_X (a : Nat) : Fld := ⟨0x44034 + 256 * a, 0, 24⟩
def AXS_FTW_FTW (a : Nat) : Fld := ⟨0x44038 + 256 * a, 0, 32⟩
def AXS_RES_FDEV (a : Nat) : Fld := ⟨0x4403C + 256 * a, 24, 8⟩
def AXS_RES_KTR (a : Nat) : Fld := ⟨0x4403C + 256 * a, 16, 8⟩
def AXS_RES_DPH (a : Nat) : Fld := ⟨0x4403C + 256 * a, 0, 16⟩
def AXS_REC_GO (a : Nat) : Fld := ⟨0x44040 + 256 * a, 15, 1⟩
def AXS_REC_SEL (a : Nat) : Fld := ⟨0x44040 + 256 * a, 8, 3⟩
def AXS_REC_PENDV (a : Nat) : Fld := ⟨0x44040 + 256 * a, 7, 1⟩
def AXS_REC_PEND (a : Nat) : Fld := ⟨0x44040 + 256 * a, 4, 3⟩
def AXS_REC_CUR (a : Nat) : Fld := ⟨0x44040 + 256 * a, 0, 3⟩
def AXS_SCHED_HYS (a : Nat) : Fld := ⟨0x44044 + 256 * a, 8, 24⟩
def AXS_SCHED_VAR (a : Nat) : Fld := ⟨0x44044 + 256 * a, 1, 2⟩
def AXS_SCHED_EN (a : Nat) : Fld := ⟨0x44044 + 256 * a, 0, 1⟩
def AXS_TRC_POST (a : Nat) : Fld := ⟨0x44048 + 256 * a, 24, 8⟩
def AXS_TRC_LEN (a : Nat) : Fld := ⟨0x44048 + 256 * a, 16, 8⟩
def AXS_TRC_BASE (a : Nat) : Fld := ⟨0x44048 + 256 * a, 8, 8⟩
def AXS_TRC_DEC (a : Nat) : Fld := ⟨0x44048 + 256 * a, 4, 4⟩
def AXS_TRC_MODE (a : Nat) : Fld := ⟨0x44048 + 256 * a, 0, 2⟩
def AXS_TRCS_WRAP (a : Nat) : Fld := ⟨0x4404C + 256 * a, 17, 1⟩
def AXS_TRCS_DONE (a : Nat) : Fld := ⟨0x4404C + 256 * a, 16, 1⟩
def AXS_TRCS_WPTR (a : Nat) : Fld := ⟨0x4404C + 256 * a, 0, 15⟩
def AXS_CNT_COUNT (a : Nat) (i : Nat) : Fld := ⟨0x44060 + 256 * a + 4 * i, 0, 32⟩
def SNS_CFG_STEP : Fld := ⟨0x48000, 0, 10⟩
def SNS_HKMASK_MASK (n : Nat) : Fld := ⟨0x48010 + 4 * n, 0, 16⟩
def SNS_OWN_OWN (n : Nat) : Fld := ⟨0x48020 + 4 * n, 0, 32⟩
def SNS_CONV_GO : Fld := ⟨0x48030, 31, 1⟩
def SNS_CONV_BUSY : Fld := ⟨0x48030, 30, 1⟩
def SNS_CONV_CONV : Fld := ⟨0x48030, 4, 2⟩
def SNS_CONV_INPUT : Fld := ⟨0x48030, 0, 4⟩
def SNS_CHK_GO : Fld := ⟨0x48034, 31, 1⟩
def SNS_CHK_BUSY : Fld := ⟨0x48034, 30, 1⟩
def SNS_CHK_TOL : Fld := ⟨0x48034, 16, 8⟩
def SNS_CHK_CODE : Fld := ⟨0x48034, 6, 10⟩
def SNS_CHK_CONV : Fld := ⟨0x48034, 4, 2⟩
def SNS_CHK_INPUT : Fld := ⟨0x48034, 0, 4⟩
def SNS_CHKRES_DONE : Fld := ⟨0x48038, 31, 1⟩
def SNS_CHKRES_FAIL : Fld := ⟨0x48038, 30, 1⟩
def SNS_CHKRES_CONV : Fld := ⟨0x48038, 20, 2⟩
def SNS_CHKRES_INPUT : Fld := ⟨0x48038, 16, 4⟩
def SNS_CHKRES_RESULT : Fld := ⟨0x48038, 0, 12⟩
def SNS_CNT_COUNT (i : Nat) : Fld := ⟨0x48080 + 4 * i, 0, 32⟩
def SNS_RES_SEQ (n : Nat) (m : Nat) : Fld := ⟨0x48100 + 64 * n + 4 * m, 24, 8⟩
def SNS_RES_RCV (n : Nat) (m : Nat) : Fld := ⟨0x48100 + 64 * n + 4 * m, 18, 1⟩
def SNS_RES_UNDR (n : Nat) (m : Nat) : Fld := ⟨0x48100 + 64 * n + 4 * m, 17, 1⟩
def SNS_RES_OVR (n : Nat) (m : Nat) : Fld := ⟨0x48100 + 64 * n + 4 * m, 16, 1⟩
def SNS_RES_CODE (n : Nat) (m : Nat) : Fld := ⟨0x48100 + 64 * n + 4 * m, 0, 12⟩
def SNS_FMCFG_EN (i : Nat) : Fld := ⟨0x48400 + 32 * i, 31, 1⟩
def SNS_FMCFG_DIV (i : Nat) : Fld := ⟨0x48400 + 32 * i, 12, 16⟩
def SNS_FMCFG_IDX (i : Nat) : Fld := ⟨0x48400 + 32 * i, 3, 9⟩
def SNS_FMCFG_SRC (i : Nat) : Fld := ⟨0x48400 + 32 * i, 0, 3⟩
def SNS_FMGATE_GATE (i : Nat) : Fld := ⟨0x48404 + 32 * i, 0, 14⟩
def SNS_FMHYS_HYS (i : Nat) : Fld := ⟨0x48408 + 32 * i, 0, 24⟩
def SNS_FMPOST_PMK (i : Nat) : Fld := ⟨0x4840C + 32 * i, 0, 32⟩
def SNS_FMPERLO_PER (i : Nat) : Fld := ⟨0x48410 + 32 * i, 0, 32⟩
def SNS_FMPERHI_PER (i : Nat) : Fld := ⟨0x48414 + 32 * i, 0, 32⟩
def SNS_FMSTAT_VALID (i : Nat) : Fld := ⟨0x48418 + 32 * i, 31, 1⟩
def SNS_FMSTAT_LOSS (i : Nat) : Fld := ⟨0x48418 + 32 * i, 30, 1⟩
def SNS_FMSTAT_GSEQ (i : Nat) : Fld := ⟨0x48418 + 32 * i, 26, 4⟩
def SNS_FMSTAT_N (i : Nat) : Fld := ⟨0x48418 + 32 * i, 0, 26⟩
def SNS_FMRES_RMS (i : Nat) : Fld := ⟨0x4841C + 32 * i, 0, 32⟩
def SEQ_CTRL_PEEN : Fld := ⟨0x4C000, 16, 16⟩
def SEQ_CTRL_RUN : Fld := ⟨0x4C000, 0, 1⟩
def SEQ_STAT_PEBUSY : Fld := ⟨0x4C004, 16, 16⟩
def SEQ_STAT_QLEVEL : Fld := ⟨0x4C004, 4, 10⟩
def SEQ_STAT_QFULL : Fld := ⟨0x4C004, 3, 1⟩
def SEQ_STAT_HALT : Fld := ⟨0x4C004, 2, 1⟩
def SEQ_STAT_INTRAP : Fld := ⟨0x4C004, 1, 1⟩
def SEQ_STAT_RUN : Fld := ⟨0x4C004, 0, 1⟩
def SEQ_BANK_PSEL : Fld := ⟨0x4C008, 11, 1⟩
def SEQ_BANK_PGO : Fld := ⟨0x4C008, 10, 1⟩
def SEQ_BANK_FSEL : Fld := ⟨0x4C008, 9, 1⟩
def SEQ_BANK_FGO : Fld := ⟨0x4C008, 8, 1⟩
def SEQ_BANK_PHELD : Fld := ⟨0x4C008, 7, 1⟩
def SEQ_BANK_PPEND : Fld := ⟨0x4C008, 6, 1⟩
def SEQ_BANK_PPENDV : Fld := ⟨0x4C008, 5, 1⟩
def SEQ_BANK_PCUR : Fld := ⟨0x4C008, 4, 1⟩
def SEQ_BANK_FPEND : Fld := ⟨0x4C008, 2, 1⟩
def SEQ_BANK_FPENDV : Fld := ⟨0x4C008, 1, 1⟩
def SEQ_BANK_FCUR : Fld := ⟨0x4C008, 0, 1⟩
def SEQ_TCLO_TC : Fld := ⟨0x4C010, 0, 32⟩
def SEQ_TCHI_TC : Fld := ⟨0x4C014, 0, 32⟩
def SEQ_FPOS_COLUMN : Fld := ⟨0x4C018, 16, 16⟩
def SEQ_FPOS_FRAME : Fld := ⟨0x4C018, 0, 16⟩
def SEQ_WTMO_WTMO : Fld := ⟨0x4C01C, 0, 32⟩
def SEQ_BGBUD_BG : Fld := ⟨0x4C020, 0, 16⟩
def SEQ_PESTAT_RETIRED (n : Nat) : Fld := ⟨0x4C040 + 4 * n, 31, 1⟩
def SEQ_PESTAT_POST (n : Nat) : Fld := ⟨0x4C040 + 4 * n, 30, 1⟩
def SEQ_PESTAT_KIND (n : Nat) : Fld := ⟨0x4C040 + 4 * n, 24, 3⟩
def SEQ_PESTAT_TCAUSE (n : Nat) : Fld := ⟨0x4C040 + 4 * n, 16, 4⟩
def SEQ_PESTAT_MSAT (n : Nat) : Fld := ⟨0x4C040 + 4 * n, 9, 1⟩
def SEQ_PESTAT_AOV (n : Nat) : Fld := ⟨0x4C040 + 4 * n, 8, 1⟩
def SEQ_CNT_COUNT (i : Nat) : Fld := ⟨0x4C080 + 4 * i, 0, 32⟩
def PRS_STAT_TVALID : Fld := ⟨0x50004, 10, 2⟩
def PRS_STAT_TLOCK : Fld := ⟨0x50004, 8, 2⟩
def PRS_STAT_BUSY : Fld := ⟨0x50004, 4, 4⟩
def PRS_STAT_FAIL : Fld := ⟨0x50004, 0, 4⟩
def PRS_SCFG_FLUSH (v : Nat) : Fld := ⟨0x50010 + 4 * v, 24, 8⟩
def PRS_SCFG_SINMAX (v : Nat) : Fld := ⟨0x50010 + 4 * v, 8, 10⟩
def PRS_SCFG_TSEL (v : Nat) : Fld := ⟨0x50010 + 4 * v, 4, 1⟩
def PRS_SCFG_STATIC (v : Nat) : Fld := ⟨0x50010 + 4 * v, 3, 1⟩
def PRS_SCFG_DSIZE (v : Nat) : Fld := ⟨0x50010 + 4 * v, 2, 1⟩
def PRS_SCFG_POLICY (v : Nat) : Fld := ⟨0x50010 + 4 * v, 1, 1⟩
def PRS_SCFG_EN (v : Nat) : Fld := ⟨0x50010 + 4 * v, 0, 1⟩
def PRS_HBASE_BASE : Fld := ⟨0x50020, 0, 32⟩
def PRS_HSIZE_SIZE : Fld := ⟨0x50024, 0, 9⟩
def PRS_HPROD_PROD : Fld := ⟨0x50028, 0, 8⟩
def PRS_HCONS_CONS : Fld := ⟨0x5002C, 0, 8⟩
def PRS_IGNLAST_WHY : Fld := ⟨0x50030, 8, 4⟩
def PRS_IGNLAST_INDEX : Fld := ⟨0x50030, 0, 8⟩
def PRS_CNT_COUNT (i : Nat) : Fld := ⟨0x50080 + 4 * i, 0, 32⟩
def STL_CTRL_RETRAIN : Fld := ⟨0x54000, 0, 1⟩
def STL_CFG_TTL : Fld := ⟨0x54004, 8, 8⟩
def STL_CFG_EIEN : Fld := ⟨0x54004, 1, 1⟩
def STL_CFG_CMODE : Fld := ⟨0x54004, 0, 1⟩
def STL_STAT_UPGW : Fld := ⟨0x54008, 16, 1⟩
def STL_STAT_UPUID : Fld := ⟨0x54008, 5, 11⟩
def STL_STAT_UPV : Fld := ⟨0x54008, 4, 1⟩
def STL_STAT_TXST : Fld := ⟨0x54008, 0, 2⟩
def STL_LANES_TXDOWN : Fld := ⟨0x5400C, 28, 4⟩
def STL_LANES_TXUSE : Fld := ⟨0x5400C, 24, 4⟩
def STL_LANES_TXDET : Fld := ⟨0x5400C, 20, 4⟩
def STL_LANES_RXST : Fld := ⟨0x5400C, 0, 16⟩
def STL_HOR_HORIZON : Fld := ⟨0x54010, 0, 16⟩
def STL_EI_MAX : Fld := ⟨0x54014, 16, 16⟩
def STL_EI_FEB : Fld := ⟨0x54014, 8, 6⟩
def STL_EI_ENTRY : Fld := ⟨0x54014, 0, 8⟩
def STL_WRR_Q3 : Fld := ⟨0x54018, 8, 8⟩
def STL_WRR_Q0 : Fld := ⟨0x54018, 0, 8⟩
def STL_GRANT_GRANT (v : Nat) : Fld := ⟨0x54020 + 4 * v, 0, 32⟩
def STL_USED_USED (v : Nat) : Fld := ⟨0x54028 + 4 * v, 0, 32⟩
def STL_BUF_BYTES (v : Nat) : Fld := ⟨0x54030 + 4 * v, 0, 21⟩
def STL_MRXBASE_BASE : Fld := ⟨0x54040, 0, 32⟩
def STL_MRXIDX_CONS : Fld := ⟨0x54044, 16, 6⟩
def STL_MRXIDX_PROD : Fld := ⟨0x54044, 8, 6⟩
def STL_MRXIDX_SIZE : Fld := ⟨0x54044, 0, 7⟩
def STL_MTXBASE_BASE : Fld := ⟨0x54048, 0, 32⟩
def STL_MTXIDX_CONS : Fld := ⟨0x5404C, 16, 6⟩
def STL_MTXIDX_PROD : Fld := ⟨0x5404C, 8, 6⟩
def STL_MTXIDX_SIZE : Fld := ⟨0x5404C, 0, 7⟩
def STL_CNT_COUNT (i : Nat) : Fld := ⟨0x54080 + 4 * i, 0, 32⟩
def SYS_ID_DEVICE : Fld := ⟨0x0, 16, 16⟩
def SYS_ID_VENDOR : Fld := ⟨0x0, 0, 16⟩
def SYS_REV_MAJOR : Fld := ⟨0x4, 8, 8⟩
def SYS_REV_MINOR : Fld := ⟨0x4, 0, 8⟩
def SYS_SERIALLO_SERIAL : Fld := ⟨0x8, 0, 32⟩
def SYS_SERIALHI_SERIAL : Fld := ⟨0xC, 0, 32⟩
def SYS_STRAP_CFGMODE : Fld := ⟨0x10, 0, 1⟩
def SYS_STAT_STLUP : Fld := ⟨0x14, 3, 1⟩
def SYS_STAT_PCIEUP : Fld := ⟨0x14, 2, 1⟩
def SYS_STAT_DLLOK : Fld := ⟨0x14, 1, 1⟩
def SYS_STAT_TBLOCK : Fld := ⟨0x14, 0, 1⟩
def SYS_IGNORED_COUNT : Fld := ⟨0x20, 0, 32⟩
def SYS_IGNLAST_KIND : Fld := ⟨0x24, 29, 3⟩
def SYS_IGNLAST_POST : Fld := ⟨0x24, 28, 1⟩
def SYS_IGNLAST_WHERE : Fld := ⟨0x24, 0, 28⟩
def SYS_DTLO_DT : Fld := ⟨0x30, 0, 32⟩
def SYS_DTHI_DT : Fld := ⟨0x34, 0, 32⟩
def HIF_STAT_L1 : Fld := ⟨0x4000, 9, 1⟩
def HIF_STAT_UP : Fld := ⟨0x4000, 8, 1⟩
def HIF_STAT_WIDTH : Fld := ⟨0x4000, 4, 4⟩
def HIF_STAT_SPEED : Fld := ⟨0x4000, 0, 4⟩
def HIF_EVSTAT_CAUSE : Fld := ⟨0x4010, 8, 14⟩
def HIF_EVEN_EN : Fld := ⟨0x4014, 8, 14⟩
def HIF_CNT_COUNT (i : Nat) : Fld := ⟨0x4080 + 4 * i, 0, 32⟩
def HIF_SQBASELO (q : Nat) : Fld := ⟨0x4100 + 32 * q, 0, 32⟩
def HIF_SQBASEHI (q : Nat) : Fld := ⟨0x4104 + 32 * q, 0, 32⟩
def HIF_CQBASELO (q : Nat) : Fld := ⟨0x4108 + 32 * q, 0, 32⟩
def HIF_CQBASEHI (q : Nat) : Fld := ⟨0x410C + 32 * q, 0, 32⟩
def HIF_QCFG_EN (q : Nat) : Fld := ⟨0x4110 + 32 * q, 31, 1⟩
def HIF_QCFG_SIZE (q : Nat) : Fld := ⟨0x4110 + 32 * q, 16, 13⟩
def HIF_QCFG_CQAGG (q : Nat) : Fld := ⟨0x4110 + 32 * q, 8, 8⟩
def HIF_QCFG_CQTIME (q : Nat) : Fld := ⟨0x4110 + 32 * q, 0, 8⟩
def HIF_SQSTAT_BUSY (q : Nat) : Fld := ⟨0x4114 + 32 * q, 31, 1⟩
def HIF_SQSTAT_HEAD (q : Nat) : Fld := ⟨0x4114 + 32 * q, 16, 12⟩
def HIF_SQSTAT_TAIL (q : Nat) : Fld := ⟨0x4114 + 32 * q, 0, 12⟩
def HIF_CQSTAT_FULL (q : Nat) : Fld := ⟨0x4118 + 32 * q, 31, 1⟩
def HIF_CQSTAT_PHASE (q : Nat) : Fld := ⟨0x4118 + 32 * q, 30, 1⟩
def HIF_CQSTAT_TAIL (q : Nat) : Fld := ⟨0x4118 + 32 * q, 16, 12⟩
def HIF_CQSTAT_HEAD (q : Nat) : Fld := ⟨0x4118 + 32 * q, 0, 12⟩
def TBS_CTRL_WAKE : Fld := ⟨0x8000, 1, 1⟩
def TBS_CTRL_SLEEP : Fld := ⟨0x8000, 0, 1⟩
def TBS_STAT_LOCKUS : Fld := ⟨0x8004, 16, 16⟩
def TBS_STAT_WAKING : Fld := ⟨0x8004, 2, 1⟩
def TBS_STAT_SLEEP : Fld := ⟨0x8004, 1, 1⟩
def TBS_STAT_LOCK : Fld := ⟨0x8004, 0, 1⟩
def TBS_CFG_KLOCK : Fld := ⟨0x8008, 1, 1⟩
def TBS_CFG_RXWAKE : Fld := ⟨0x8008, 0, 1⟩
def TBS_BOOT_CAUSE1 : Fld := ⟨0x800C, 20, 4⟩
def TBS_BOOT_CAUSE0 : Fld := ⟨0x800C, 16, 4⟩
def TBS_BOOT_RESULT : Fld := ⟨0x800C, 0, 3⟩
def TBS_KHASH_HASH (k : Nat) : Fld := ⟨0x8020 + 4 * k, 0, 32⟩
def TBS_CNT_COUNT (i : Nat) : Fld := ⟨0x8080 + 4 * i, 0, 32⟩
def FLT_CFG_STUCK : Fld := ⟨0x58000, 1, 1⟩
def FLT_CFG_VC3 : Fld := ⟨0x58000, 0, 1⟩
def FLT_STAT_REACQ : Fld := ⟨0x58004, 16, 16⟩
def FLT_STAT_ROOTS : Fld := ⟨0x58004, 8, 8⟩
def FLT_STAT_MEMROOT : Fld := ⟨0x58004, 2, 1⟩
def FLT_STAT_DLLROOT : Fld := ⟨0x58004, 1, 1⟩
def FLT_STAT_TBROOT : Fld := ⟨0x58004, 0, 1⟩
def FLT_RCFG_ANGTOL : Fld := ⟨0x58008, 0, 24⟩
def FLT_RWAIT_RMAX : Fld := ⟨0x5800C, 0, 16⟩
def FLT_LOGIDX_WRAP : Fld := ⟨0x58010, 16, 1⟩
def FLT_LOGIDX_PROD : Fld := ⟨0x58010, 8, 8⟩
def FLT_LOGIDX_CONS : Fld := ⟨0x58010, 0, 8⟩
def FLT_CORR_COUNT (m : Nat) : Fld := ⟨0x58040 + 4 * m, 0, 32⟩
def FLT_UNC_COUNT (m : Nat) : Fld := ⟨0x58060 + 4 * m, 0, 32⟩
def FLT_CNT_COUNT (i : Nat) : Fld := ⟨0x58080 + 4 * i, 0, 32⟩
def FLE_UID_UID : Fld := ⟨0x5C000, 0, 11⟩
def FLE_SEED_SEED : Fld := ⟨0x5C004, 0, 32⟩
def FLE_SYNC_MINSP : Fld := ⟨0x5C008, 16, 8⟩
def FLE_SYNC_DELAY : Fld := ⟨0x5C008, 0, 16⟩
def FLE_SYNCLO_T : Fld := ⟨0x5C00C, 0, 32⟩
def FLE_SYNCHI_T : Fld := ⟨0x5C010, 0, 32⟩
def FLE_SUS_GMASK : Fld := ⟨0x5C020, 16, 16⟩
def FLE_SUS_MAXW : Fld := ⟨0x5C020, 8, 8⟩
def FLE_SUS_TOTMIN : Fld := ⟨0x5C020, 4, 4⟩
def FLE_SUS_HITONLY : Fld := ⟨0x5C020, 1, 1⟩
def FLE_SUS_EN : Fld := ⟨0x5C020, 0, 1⟩
def FLE_SBASE_BASE : Fld := ⟨0x5C024, 0, 32⟩
def FLE_SSIZE_SIZE : Fld := ⟨0x5C028, 0, 16⟩
def FLE_SIDX_SCONS : Fld := ⟨0x5C02C, 16, 16⟩
def FLE_SIDX_SPROD : Fld := ⟨0x5C02C, 0, 16⟩
def FLE_NSTAT_WINDOW : Fld := ⟨0x5C030, 16, 16⟩
def FLE_NSTAT_PUNID : Fld := ⟨0x5C030, 8, 1⟩
def FLE_NSTAT_PALIEN : Fld := ⟨0x5C030, 0, 8⟩
def FLE_NLAST_WINDOW : Fld := ⟨0x5C034, 16, 16⟩
def FLE_NLAST_KIND : Fld := ⟨0x5C034, 12, 2⟩
def FLE_NLAST_AUID : Fld := ⟨0x5C034, 0, 11⟩
def FLE_CNT_COUNT (i : Nat) : Fld := ⟨0x5C080 + 4 * i, 0, 32⟩

end F

end Sys2Proof.Machine
end

