-- ==== Sys2Proof/Machine/State.lean ====
section
/-!
DEFINITION. The state of the part, as plain data, the state right after reset, and the reasons a step can stop.
Registers live in one file keyed by BAR0 offset, memories in one list keyed by BAR2 offset; what the spec gives the
machine beside them (queues, work in progress, engines) has a structure of its own per block.
-/
namespace Sys2Proof.Machine

/-- Data keyed by a number, in one canonical form: keys strictly rising, and no entry equal to what an unlisted key reads
as. The operations stand in Ops.lean. -/
abbrev FMap (β : Type) := List (Nat × β)

/-- Why a step can stop with a fault: no rule of the spec stops the part, so no command raises one (safe). -/
inductive Fault where
  /-- Raised by no command. Safe: the machine never stops here. -/
  | none
  deriving DecidableEq, Repr

/-- Why a step can be refused. -/
inductive Refusal where
  /-- Raised by an arm of exec whose command has no meaning yet. Safe: the machine stops. -/
  | notModelled (mnemonic : String)
  deriving DecidableEq, Repr

/-- What leaves the part (log 5). Each is appended where the spec has the part send or drive it. -/
inductive Out where
  /-- An MSI-X message on a vector (R508), with the address and the data of its table entry (R486). -/
  | msix (vector : Nat) (addr : Nat) (data : Nat)
  /-- A DMA write to host memory (R498, R502), with its Relaxed Ordering and No Snoop attributes (R478). -/
  | hostWrite (addr : Nat) (data : List Byte) (relaxed noSnoop : Bool)
  /-- An error message to the root complex: of a fatal error or not (R503). -/
  | errMsg (fatal : Bool)
  /-- A fire edge of an output, in subticks of device time (R44), with its WIDTH and AMP. -/
  | fire (output : Nat) (subtick : Nat) (width : Nat) (amp : Nat)
  /-- A chain frame on EDQ, first bit first (R60). -/
  | chainFrame (bits : List Bool)
  /-- A drive frame (R304), its bits as one number, and its start. -/
  | driveFrame (bits : Nat) (start : Nat)
  /-- A frame on a transmit lane: inserted, header, payload, CRC-32C (R452 to R456). -/
  | frame (lane : Nat) (inserted : Bool) (hdr : List Byte) (payload : List Byte) (crc : Nat)
  /-- Idle-ending and link messages of a lane: CAP (R443), EIDLE (R449), the fast exit burst (R450). -/
  | cap (lane : Nat) (msg : List Byte)
  | eidle (lane : Nat)
  /-- A lane starts to send TS blocks that name a preset (R439, R440). -/
  | train (lane : Nat) (preset : Nat)
  | exitBurst (lane blocks : Nat)
  /-- An axis gives SAFE or any analog test input: the CHKDAC output driven (R326). -/
  | chkdac (input : Nat) (code : Nat)
  deriving DecidableEq, Repr

/-- A fault detected (R532) and what its record will hold (R537). -/
structure FaultRec where
  cause : Nat
  inst : Nat
  detail : Nat
  root : Bool
  /-- FLAGS bits 1 to 3: acquisition replay, processing replay, retirement. -/
  acq : Bool
  proc : Bool
  retired : Bool
  deps : Nat
  affected : Nat
  dtDet : Nat
  frame : Nat
  column : Nat
  /-- The contexts that the fault sent to processing replay: its isolation lasts until they are through (R558). -/
  ctxs : List Nat
  deriving DecidableEq, Repr

/-- An active root (R540): its log entry once its record is written, 256 when that entry was overwritten; and when it was detected. -/
structure Root where
  cause : Nat
  inst : Nat
  entry : Option Nat
  t : Nat
  deriving DecidableEq, Repr

/-- Fault reporting (R536 to R540). -/
structure Flt where
  /-- Faults detected whose records are not yet written, oldest first. -/
  detected : List FaultRec
  /-- Roots active. -/
  roots : List Root
  /-- Fault count of the unit, for SEQ (R537). -/
  seq : Nat
  deriving DecidableEq, Repr

/-- What a timed command does (R389). -/
inductive TKind where
  /-- Fires the outputs of a mask, with the row of the last ROW issued and FIREC's dither (R390, R391). -/
  | fire (mask row : Nat) (code : Option Int)
  | row (r : Nat)
  | gate (mask row len : Nat)
  | map (m : Nat)
  | ctxo (emitter nshot : Nat)
  | ctxc (emitter : Nat)
  | setpt (axis v : Nat)
  | mark (column : Bool)
  /-- An item of the queue that a parity error struck (R535). -/
  | parity (k : TKind)
  deriving DecidableEq, Repr

/-- A timed command: what it does, its device time (coarse ticks and subticks), the FSQ's FRAME and COLUMN when it was issued (R29,
R388, R545), and whether it was late when it entered the queue (R30). -/
structure TCmd where
  kind : TKind
  tc : Nat
  sub : Nat
  frame : Nat
  column : Nat
  late : Bool := false
  deriving DecidableEq, Repr

/-- A row change, in subticks: when it took effect, the row, the end of its blanking (R50); no row where a change of MODE deselected the
rows (R53). -/
structure RowEv where
  t : Nat
  row : Option Nat
  blankEnd : Nat
  deriving DecidableEq, Repr

/-- A fire pulse, in subticks: its output, leading and trailing edge (R44, R45). -/
structure FirePulse where
  output : Nat
  lead : Nat
  trail : Nat
  deriving DecidableEq, Repr

/-- A condition of R46 that changed: the device time of the change, which condition, and its value before (open points: DEDUCED,
DEDUCED, log 105). -/
structure Change where
  t : Nat
  key : Nat
  old : Nat
  deriving DecidableEq, Repr

/-- The emission block beside its registers. -/
structure Emi where
  /-- The timed command queue, in issue order (R29). -/
  tq : List TCmd
  /-- The latest fires of each output, latest first: their t_fire in subticks (R46). -/
  lastFire : FMap (List Nat)
  /-- Tokens of the aggregate budget before the changes listed after, and these in order of time: when, in subticks, and whether a
  token was added or spent (R47). -/
  tokens : Nat
  tokenLog : List (Nat × Bool)
  /-- Pulses in progress (R45). -/
  pulses : List FirePulse
  /-- Row changes made, newest first (R50). -/
  rows : List RowEv
  /-- A row change that waits for a pulse to end, and its device time in subticks (R51). -/
  rowWait : Option (Nat × Nat)
  /-- The ROW output that is high, the one that rises next, and whether blanking runs (R50). -/
  rowHigh : Option Nat
  rowNext : Option Nat
  blanking : Bool
  /-- Code index of each emitter (R564). -/
  codeK : FMap Nat
  /-- The TCs of FSQ starts, oldest first, each of which restarts the code indices of slots from it on (R564). -/
  codeMarks : List Nat
  /-- Angles of the emitter's last slot: at 4e + a, the 24-bit angle of axis a plus 1 (R551). -/
  emLast : FMap Nat
  /-- Chain buffer: the words of the frame in progress, trailer last (R61, R67). -/
  chainBuf : List Word
  /-- A frame is in progress: sent, its result not yet recorded. -/
  chainBusy : Bool
  /-- The start of the last frame, its last falling edge on EDQ, and that of the frame before it (R60, R62, R66). -/
  chainAt : Option Nat
  chainEdge : Option Nat
  chainPrev : Option Nat
  /-- The latch guard runs (R66). -/
  guard : Bool
  /-- A copied image that waits for the 60 µs of R62. -/
  chainPend : Option (List Word)
  /-- The image of the latest derating entry, waiting (R77). -/
  derImage : Option Nat
  /-- The 1 ms delay after a release under TFACT 1 runs (R69). -/
  resuming : Bool
  /-- PERMIT_IN level, last valid edge, watchdog running, PERMIT_ACK level, echoes due (R78 to R83). -/
  permit : Bool
  lastEdge : Option Nat
  watch : Bool
  ack : Bool
  echoes : List Nat
  /-- The level of the pin EMI_INH_N, and its last rise (R85). -/
  inhN : Bool
  inhRise : Option Nat
  /-- STOP and MINSP of the derating entry in force, as they were read when it was selected (R76). -/
  drStop : Bool
  drMin : Nat
  /-- Changes of the conditions of R46, oldest first, as far back as a t_fire still to be judged can lie. -/
  past : List Change
  /-- Fire slots since the time base first locked (R545). -/
  slots : Nat
  deriving DecidableEq, Repr

/-- What is in force for a stamp when it is made, for its event is converted and filtered by that (R24, R28, R105, R147, R166): the tap
position in 1/16 LSB, whether the fine code is valid, whether coarse parts only are used, whether the path's record is stale, whether
its spare has no table, and the CTX_COIN word. -/
structure Stamp where
  pos : Nat
  fine : Bool
  coarse : Bool
  stale : Bool
  prov : Bool
  coin : Nat
  deriving DecidableEq, Repr

/-- A pulse in progress on a timing path (R99 to R102). -/
structure Pulse where
  /-- The rising crossing: coarse tick and fine code. -/
  c : Nat
  f : Nat
  /-- The rising crossing was stamped and its word is still to be formed. -/
  due : Bool
  /-- The word with the rising stamp was formed at the ToT limit. -/
  late : Bool
  /-- The pulse met R117. -/
  satb : Bool
  /-- The rising stamp lies in an NSAT window. -/
  nsat : Bool
  /-- What was in force for the rising stamp. -/
  stamp : Stamp
  deriving DecidableEq, Repr

/-- A timing path of a return channel or a spare: the pulse in progress and the last stamp, in fine LSB plus 1 (R107). -/
structure PathSt where
  pulse : Option Pulse
  last : Nat
  deriving DecidableEq, Repr

/-- A gate (R392, R611): its number, channel, emitter, opening and closing, the slot it belongs to, whether it is closed, whether it
overlaps a span of R609, and the crossings lost in dead time in it (R141). -/
structure Gate where
  id : Nat
  ch : Nat
  emitter : Nat
  opens : Nat
  closes : Nat
  slot : Option Nat
  closed : Bool
  cut : Bool
  pile : Nat
  deriving DecidableEq, Repr

/-- A shot's start as it was resolved (R109, R110): in 1/1024 coarse tick, predicted or not, stale or not, and its Postmark. -/
structure Start where
  x : Int
  pred : Bool
  stale : Bool
  pmk : Nat
  deriving DecidableEq, Repr

/-- A fire slot whose shot is not complete (R108 to R116, R134). -/
structure Shot where
  /-- Slot number since the time base first locked. -/
  slot : Nat
  emitter : Nat
  output : Nat
  /-- Start input. -/
  st : Nat
  /-- Command device time, and t_fire, in subticks. -/
  t : Nat
  tFire : Nat
  fired : Bool
  /-- Code index of the slot. -/
  k : Nat
  /-- Predicted start and pairing window, in 1/16384 coarse tick; E_n valid. -/
  p : Int
  lo : Int
  hi : Int
  eValid : Bool
  /-- A crossing in the window went to another fire (R110). -/
  other : Bool
  start : Option Start
  /-- Identities of the contexts that wait for the slot, and of all that it belongs to (R134, R169). -/
  members : List Nat
  owners : List Nat
  /-- The channels that the map in force at the slot names for its emitter: they read the shot (R160). -/
  chans : List Nat
  /-- The angles of the emitter's slot before, and whether a CTXO of the same device time stood before a command skipped ahead of its time:
  its contexts take the slot when they open (R134, R551). -/
  before : List Int
  behind : Bool
  deriving DecidableEq, Repr

/-- A crossing stamped on a start input (R108 to R111): its time in 1/1024 coarse tick, Postmark, and whether the choice of
R109 is made. -/
structure StartX where
  st : Nat
  c : Nat
  x : Int
  pmk : Nat
  stale : Bool
  deriving DecidableEq, Repr

/-- An event word on its way to a histogram (R106), with its full coarse time, the path that stamped it, what was in force for its stamp,
and the gates it lies in. -/
structure Ev where
  c : Nat
  f : Nat
  tot : Nat
  chan : Nat
  edge : Bool
  hit : Bool
  satb : Bool
  nsat : Bool
  spr : Bool
  path : Nat
  stamp : Stamp
  gates : List Nat
  /-- The coincidence filter let it pass, or does not apply (R162). -/
  passed : Bool
  /-- A parity error struck the item in its queue (R535). -/
  bad : Bool
  deriving DecidableEq, Repr

/-- An item of a group event queue: an event, or a channel's loss record with the stamps of its first and last event, in fine LSB (R167,
R168). -/
inductive QItem where
  | ev (e : Ev)
  | loss (chan first last : Nat)
  deriving DecidableEq, Repr

/-- A return group's queue and filter (R162 to R169). -/
structure Group where
  queue : List QItem
  /-- Gated stamps that the filter compares: channel and nominal time in fine LSB (R162). -/
  recent : List (Nat × Nat)
  /-- The NSAT recovery window runs (R118). -/
  nsat : Bool
  deriving DecidableEq, Repr

/-- A spare's handover (R121, R609): the time of its request, whether the target's traffic has passed to it, and whether a
handback waits for the shot boundary (R123). -/
structure SpareSt where
  t0 : Nat
  serving : Bool
  handback : Bool
  deriving DecidableEq, Repr

/-- Return timing beside its registers. -/
structure Ret where
  /-- Timing paths of channels (0 to 511) and spares (512 to 527). -/
  paths : FMap PathSt
  gates : List Gate
  gateSeq : Nat
  shots : List Shot
  starts : List StartX
  /-- Last stamp of each start path, in fine LSB plus 1: 0 to 3, STCS 4. -/
  startLast : FMap Nat
  groups : Vector Group 16
  spares : Vector SpareSt 16
  /-- Channels declared faulted whose span of R609 runs. -/
  spans : List Nat
  /-- What is in force on a channel where its registers already hold a newer value (R98, R166): at 4 ch + 0 SLOPE, + 1 LCODE,
  + 2 HCODE, + 3 the CTX_COIN word, the old value plus 1. -/
  inForce : FMap Nat
  /-- Self-check results of each path's last 1,024 stamps, the latest in bit 0, 1 a failure (R533). -/
  checks : FMap Nat
  /-- The start-channel DLL is locked (R105). -/
  startDll : Bool
  /-- The start input that STCS times from the next fire on it (R112). -/
  stcsNext : Option Nat
  deriving DecidableEq, Repr

/-- An item of a stream buffer (R471): its bytes, the context it belongs to and its ECHO in it as the buffer keeps them beside the bytes
(R548), when it entered, and its error syndromes (R35). -/
structure Item where
  data : List Byte
  ctx : Option Nat
  echo : Nat
  entered : Nat
  errs : Word
  /-- A SKIPMARK closes the Press job that takes it (R424). -/
  skipmark : Bool
  /-- A VC0 record that was destroyed: its place waits for the regenerated record (R548). -/
  hole : Bool
  /-- It was held across a sleep (R530). -/
  slept : Bool
  deriving DecidableEq, Repr

/-- Where a stream job stands (R424 to R429). -/
inductive JobState where
  | open (opened : Nat)
  | closed
  | running (engine : Nat)
  /-- Compressed: the payload of its frame. -/
  | ready (payload : List Byte)
  /-- To be sent as ordinary frames (R428). -/
  | plain
  deriving DecidableEq, Repr

/-- A stream job (R424): items in order, the configuration word it opened under, its state. -/
structure Job where
  id : Nat
  items : List Item
  cfg : Word
  state : JobState
  /-- When it became ready to be sent. -/
  readyAt : Nat
  deriving DecidableEq, Repr

/-- A cause of loss on a channel in the running window (R473). -/
structure Loss where
  cause : Nat
  vc : Nat
  src : Nat
  frames : Nat
  items : Nat
  first : Nat
  last : Nat
  deriving DecidableEq, Repr
/-- An equalisation preset (R445): its number in the table, none for the built-in one. -/
structure Preset where
  index : Option Nat
  pre : Nat
  post : Nat
  swing : Nat
  ctle : Nat
  adapt : Nat
  deriving DecidableEq, Repr

/-- A frame that waits or is being sent (R453): as it arrived, or as it was formed. -/
structure Frame where
  vc : Nat
  kind : Nat
  src : Nat
  dest : Nat
  ttl : Nat
  /-- AGE on arrival; 0 for an own frame. -/
  age : Nat
  payload : List Byte
  crc : Nat
  /-- Device time of arrival, or when its oldest content entered its stream buffer. -/
  since : Nat
  /-- Device time of its release (R462). -/
  ready : Nat
  forwarded : Bool
  /-- The own records that it carries. -/
  items : List Item
  /-- It carries a slot of the management transmit ring (R475). -/
  mtx : Bool
  deriving DecidableEq, Repr

/-- Stages of a TX lane (R440). -/
inductive TxStage where
  | pll | detect | train | announce | active
  deriving DecidableEq, Repr

/-- A TX lane: its stage, the preset in force, the frame in progress and the one inserted into it. -/
structure TxLane where
  stage : TxStage
  preset : Preset
  cur : Option Frame
  ins : Option Frame
  deriving DecidableEq, Repr

/-- An RX lane beside its stage in STL_LANES: its preset, the latest valid CAP message and how often it came in a row. -/
structure RxLane where
  preset : Preset
  cap : List Byte
  run : Nat
  /-- LOCK found the P and N legs swapped, and the lane corrects them (R582). -/
  swapped : Bool
  deriving DecidableEq, Repr

/-- A frame received complete (R462): its SEQ and the device time of its arrival; what is consumed of it here, and what is forwarded
of it; neither where it was discarded. -/
structure RxHeld where
  seq : Nat
  arrival : Nat
  own : Option RxFrame
  frame : Option Frame
  deriving DecidableEq, Repr

/-- The built-in preset (R446). -/
def Preset.builtin : Preset := ⟨none, 4, 12, 5, 6, 3⟩

/-- The stream link beside its registers. -/
structure Stl where
  /-- Own stream buffers, by channel (R471), and records that a full one holds back (R470). -/
  bufs : Vector (List Item) 4
  held : Vector (List Item) 4
  /-- Error syndromes of buffer words that no item fills, by channel and by number counted with the items' (R544). -/
  unused : Vector (FMap Word) 4
  /-- Stream jobs in the order they opened, by channel (R424, R425). -/
  jobs : Vector (List Job) 4
  /-- Stream jobs opened so far, by channel (R413 SEQ). -/
  jobSeq : Vector Nat 4
  losses : List Loss
  /-- Lanes (R440, R441); in SOLO they wait for the presets after reset release (R523). -/
  tx : Vector TxLane 4
  rx : Vector RxLane 4
  presetsWait : Bool
  /-- Serial and exit burst length of the last CAP message accepted (R444, R451). -/
  upSerial : Nat
  upFeb : Nat
  /-- Next SEQ to send, by channel (R453). -/
  seqTx : Vector Nat 4
  /-- The SEQ that each channel releases next, none before the first, and the frames that wait for it (R462). -/
  expect : Vector (Option Nat) 4
  heldRx : Vector (List RxHeld) 4
  /-- Released forwarded frames, oldest first (R464). -/
  fwd : Vector (List Frame) 4
  /-- A management slot is being sent; when the ring last had a new slot at its head (R475). -/
  mtxBusy : Bool
  mtxAt : Nat
  /-- CMODE in force, and the grants of VC0 and VC3 not used up, oldest first: when each came, and the GRANT it left (R464, R469). -/
  granted : Bool
  grants : Vector (List (Nat × Nat)) 2
  /-- Deficit round robin: whether VC3 has the turn, whether its quantum is due, and the deficits (R464). -/
  turn3 : Bool
  turnNew : Bool
  deficit : Vector Nat 2
  /-- When electrical idle was entered, and when something was last sent (R449, R450). -/
  eiAt : Nat
  lastTx : Nat
  /-- When the latest BOOTSTAT record was sent (R525). -/
  bootAt : Option Nat
  deriving DecidableEq, Repr

/-- The states of a context (R137). -/
inductive CtxState where
  | open | zoom | closed | work | retained | reacq
  deriving DecidableEq, Repr

/-- A slot of the replay table (R550): the original slot's dither and angles where its journal entry exists, the angles of the
emitter's slot before it, and the slot number that replays it. -/
structure RSlot where
  known : Bool
  dither : Int
  angles : List Int
  prev : List Int
  found : Option Nat
  deriving DecidableEq, Repr

/-- What the events of complete shots have added to a context: the counts and flags of its header (R154). -/
structure TapView where
  evtot : Nat
  evout : Nat
  prec : Nat
  binsat : Bool
  satb : Bool
  nsat : Bool
  stale : Bool
  prov : Bool
  deriving DecidableEq, Repr

/-- What an event did to a context: added to a coarse bin, a fine bin of it saturated or not, outside the bins, or a precursor (R115, R144,
R145). -/
inductive TapHit where
  | bin (b : Nat) (fineSat : Bool)
  | out
  | prec
  deriving DecidableEq, Repr

/-- An event added to a context for a slot that is not complete: its slot, what it did, and the flags it sets. -/
structure TapEv where
  slot : Nat
  hit : TapHit
  satb : Bool
  nsat : Bool
  stale : Bool
  prov : Bool
  deriving DecidableEq, Repr

/-- A pixel context (R129, R137, R141). -/
structure Ctx where
  /-- Identity of this opening; never reused. -/
  id : Nat
  slot : Nat
  state : CtxState
  frame : Nat
  column : Nat
  pixrow : Nat
  emitter : Nat
  chan : Nat
  merge : Nat
  nshot : Nat
  slots : Nat
  fired : Nat
  fshots : Nat
  pstart : Nat
  binsat : Bool
  skip : Bool
  startPred : Bool
  stale : Bool
  prov : Bool
  satb : Bool
  nsat : Bool
  replayed : Bool
  lost : Bool
  partialTaken : Bool
  late : Bool
  binw : Nat
  nwin : Nat
  nplaced : Nat
  k : Nat
  map : Nat
  origin : Nat
  nbin : Nat
  t0 : Nat
  wstart : List Nat
  evtot : Nat
  evout : Nat
  prec : Nat
  pile : Nat
  jidx : Nat
  /-- Channels of the block (R158). -/
  chans : List Nat
  /-- Channels whose range is provisional (R147). -/
  provChans : List Nat
  /-- Decanter set and PE bank latched at open; the early tap as it stood then (R191, R192, R197, R366). -/
  set : Option Nat
  bank : Nat
  early : Bool
  eshots : Nat
  ebgmax : Nat
  /-- Slots given to the context so far, and the number of its first (R134). -/
  given : Nat
  first : Option Nat
  /-- The number of its latest slot so far. -/
  last : Nat
  /-- A slot was skipped, or a late command closed it (R136). -/
  skipSeen : Bool
  /-- The close waits for a shot in progress or a loss record (R135, R170). -/
  closing : Bool
  /-- Placement runs, with the window starts that its start has fixed; the time it completed (R149, R151). -/
  placing : Bool
  planned : List Nat
  placedAt : Option Nat
  /-- While the early tap is ahead: the complete shots' counts and flags, the events of slots not yet complete, and the additions that met
  a saturated bin, by bin (R154). -/
  view : TapView
  inflight : List TapEv
  clipped : FMap Nat
  /-- The context closes without waiting for its shots: the time base is out of lock (R542). -/
  atOnce : Bool
  /-- Angles of the emitter's slot before the first (R551). -/
  before : List Int
  /-- Replay slots (R550) and the time of REACQ entry; waits for processing replay (R547). -/
  replay : List RSlot
  reacqAt : Nat
  angtol : Nat
  reprocess : Bool
  /-- Records handed on and not yet accepted, and whether all were handed on (R138). -/
  owed : Nat
  /-- The POINT records of the first pass, by ECHO, and those whose copies were destroyed (R548). -/
  passed : List (List Byte)
  destroyed : List Nat
  resolved : Bool
  /-- Candidate indices for which an EARLY record was released (R217). -/
  earlyDone : List Nat
  /-- The early pass: not started, running, or done (R42, R194). -/
  earlyRun : Bool
  deriving DecidableEq, Repr

/-- An early partial copy (R154): its context as it stood, and the bytes of the header and the coarse bins. -/
structure Partial where
  ctx : Ctx
  data : List Byte
  /-- Error syndromes of the copy's words of 32 bytes, by number (R34, R35). -/
  errs : FMap Word
  deriving DecidableEq, Repr

/-- The context pool (R129 to R174). -/
structure Pool where
  ctxs : List Ctx
  seq : Nat
  /-- The context queue: identities of CLOSED contexts in order (R138). -/
  queue : List Nat
  /-- Early partial copies waiting for a lane (R154). -/
  parts : List Partial
  /-- FRAME and COLUMN that contexts take (R340). -/
  frame : Nat
  column : Nat
  /-- Walk probe of each group: the context and the events buffered, position in 1/16 LSB and ToT (R247). -/
  probes : Vector (Option (Nat × List (Int × Nat))) 16
  /-- The channel at which each group's next probe starts. -/
  probeAt : Vector Nat 16
  deriving DecidableEq, Repr

/-- A threshold sweep (R244): the code it dwells at, crossings of the dwell, peak and mean so far, counts by code. -/
structure Sweep where
  code : Nat
  r : Nat
  pk : Nat
  mu : Nat
  counts : List (Nat × Nat)
  deriving DecidableEq, Repr

/-- The recalibration of a start channel (R263): path, start, and whether STCS has taken the input; whether the donor served at
step 3, and adoption reached. -/
structure StCal where
  st : Nat
  t0 : Nat
  switched : Bool
  donor : Bool
  adopted : Bool
  deriving DecidableEq, Repr

/-- A trim recalibration (R267): channel, start, passes done, the events of step 5 run, adoption reached, trims kept. -/
structure TrimCal where
  ch : Nat
  t0 : Nat
  passes : Nat
  final : Bool
  adopted : Bool
  saved : List Int
  deriving DecidableEq, Repr

/-- Calibration beside its registers and records. -/
structure Cal where
  /-- Tap counts: at 64 i + f, of path i (record number) tap f; and the total of each path (R239). -/
  taps : FMap Nat
  total : FMap Nat
  /-- Tables adopted that wait for the path's shot boundary: record number, offset and bytes (R24, R241). -/
  pending : List (Nat × Nat × List Byte)
  /-- Paths that adopted a fine table since reset; channels that completed a sweep; stale paths (R257, R258). -/
  adopted : List Nat
  swept : List Nat
  stale : List Nat
  /-- DLLs that have locked since reset: 0 to 15, and 16 (R261). -/
  begun : List Nat
  sweeps : FMap (Option Sweep)
  /-- Stamped events and crossings (dead-time losses in, HIT out) of the running RET_RATE window (R244, R245). -/
  rate : FMap Nat
  cross : FMap Nat
  /-- Walk sums: at 64 ch + c, S in 1/16 LSB (offset by 2^40 where not 0) and Nc (R247). -/
  walkS : FMap Int
  walkN : FMap Nat
  /-- Emission-delay acquisition of each output: pairings and their sum (R252). -/
  accN : FMap Nat
  accX : FMap Int
  /-- Staged calibration bytes by offset in the region; which bytes were written (R256). -/
  staged : List Host.Cell
  touched : List Nat
  /-- Queued recalibrations of start channels and spares, and trims that wait, by record number (R262, R266). -/
  queue : List Nat
  trims : List Nat
  /-- Recalibrations in progress: a start channel, STCS and spares by donor, trims (R263, R265, R267). -/
  stcal : Option StCal
  shadow : List (Nat × Nat)
  trimming : List TrimCal
  /-- Tap trims of return channels: at 64 ch + f (log 8). -/
  trim : FMap Int
  deriving DecidableEq, Repr

/-- What a pass of a lane serves (R42). -/
inductive PassKind where
  | close | replay | early
  deriving DecidableEq, Repr

/-- A pass in progress on a lane: its context, and the partial copy of an early pass. -/
structure Pass where
  kind : PassKind
  ctx : Nat
  part : Option Partial
  deriving DecidableEq, Repr

/-- A candidate block on its way to a Point Engine (R190, R349). -/
structure Block where
  kind : PassKind
  ctx : Nat
  slot : Nat
  bank : Nat
  data : List Byte
  part : Option Partial
  /-- A parity error struck the item in its queue (R535). -/
  bad : Bool
  deriving DecidableEq, Repr

/-- The Decanter and its blocks. -/
structure Dec where
  lanes : Vector (Option Pass) 16
  /-- Blocks handed on or waiting to be, in order (R194, R349). -/
  blocks : List Block
  deriving DecidableEq, Repr

/-- A loop level: the first and the last word index of its body, and whether it rotates (R343, R344). -/
structure LoopLv where
  top : Nat
  last : Nat
  rot : Bool
  deriving DecidableEq, Repr

/-- The registers of an engine. The Fire Sequencer uses G0 to G31, Q, LC and its PC; a Point Engine all of them. -/
structure Engine where
  /-- G0 to G31, or D0 to D63 by physical number (R344). -/
  d : Vector Word 64
  a : Vector (BitVec 72) 8
  p : Vector Word 16
  /-- Q0 to Q7; Q0 reads 1. -/
  q : BitVec 8
  lc : Vector Word 4
  pc : Nat
  /-- Bank in use: 0 A, 1 B. -/
  bank : Nat
  tpc : Nat
  /-- INTRAP, and the cause of the latest trap. -/
  intrap : Bool
  tcause : Nat
  /-- The handler was entered by an ending trap: every path out of it ends the work (R360). -/
  doomed : Bool
  /-- The engine is to be retired when its work ends (R362, R612). -/
  retire : Bool
  /-- Active loop levels, outermost first. -/
  loops : List LoopLv
  rrb : Nat
  dsat : Bool
  aov : Bool
  msat : Bool
  mode : BitVec 8
  /-- Registers that hold a parity error (R612): D by physical number, 64 + n for An, 80 + n for Pn. -/
  bad : List Nat
  /-- Instructions issued by the work in progress (R356). -/
  count : Nat
  deriving DecidableEq, Repr

/-- A dispatch (R349 to R353): its KIND (1 pixel, 2 early, 3 background, 4 replay, 5 management), its context (none once the
context has left it), slot, bank, budget, mailbox, partial copy, and the POINT records that it has emitted. -/
structure Disp where
  kind : Nat
  ctx : Option Nat
  slot : Nat
  bank : Nat
  budget : Option Nat
  block : List Byte
  header : List Byte
  part : Option Partial
  points : List (List Byte)
  deriving DecidableEq, Repr

/-- A Point Engine: its registers, the dispatch in progress and the staged one (R349). -/
structure Pe where
  eng : Engine
  work : Option Disp
  staged : Option Disp
  deriving DecidableEq, Repr

/-- What the FSQ waits for: a crossing of an axis, or the frame marker; with the predicate it writes (R339, R395). -/
inductive FWait where
  | axis (a target dir qd : Nat)
  | sync (qd : Nat)
  deriving DecidableEq, Repr

/-- A timed instruction that a full queue stalls (R31): its command, offset word and length. -/
structure Stall where
  kind : TKind
  off : Nat
  len : Nat
  deriving DecidableEq, Repr

/-- The Fire Sequencer (R336 to R342). -/
structure Fsq where
  eng : Engine
  /-- TC: coarse ticks and sub-tick part. -/
  tc : Nat
  sub : Nat
  /-- Row of the last ROW issued (R390). -/
  row : Nat
  stall : Option Stall
  wait : Option FWait
  /-- RUN was written 0 during a stall or a wait: the FSQ stops when that instruction ends (R342). -/
  stopping : Bool
  /-- The close of R342 waits for the queue to empty. -/
  flush : Bool
  deriving DecidableEq, Repr

/-- A pixel whose dispatch has ended and whose records wait for those of an earlier context (R225, R555): its context and its
POINT records. -/
structure Ended where
  ctx : Nat
  points : List (List Byte)
  deriving DecidableEq, Repr

/-- The engines. -/
structure Seq where
  fsq : Fsq
  pes : Vector Pe 16
  /-- Dispatches that retired engines returned, in order (R362). -/
  returned : List Disp
  ended : List Ended
  deriving DecidableEq, Repr

/-- An engine's registers after reset (DESIGN CHOICE, log 9). -/
def Engine.reset : Engine :=
  ⟨Vector.replicate 64 0#32, Vector.replicate 8 0#72, Vector.replicate 16 0#32, 1#8, Vector.replicate 4 0#32, 0, 0, 0, false, 0,
    false, false, [], 0, false, false, false, 0#8, [], 0⟩

/-- A host job of the Press (R430): the device offset of its descriptor, its fields, and the input as it was read. -/
structure PressHost where
  desc : Nat
  op : Nat
  ctl : Nat
  src : Nat
  srclen : Nat
  dst : Nat
  dstlen : Nat
  input : List Byte
  deriving DecidableEq, Repr

/-- What a Press engine works on: a stream job by its channel and number, or a host job (R434). -/
inductive PressJob where
  | stream (vc : Nat) (id : Nat)
  | host (h : PressHost)
  deriving DecidableEq, Repr

/-- A job in progress on a Press engine: the time it started and the static table it uses. -/
structure PressWork where
  job : PressJob
  started : Nat
  table : Option Nat
  deriving DecidableEq, Repr

/-- A position sample of an axis: its instant, the position, and when its code is available (R271, R295). -/
structure AxSample where
  t : Nat
  y : Int
  avail : Nat
  deriving DecidableEq, Repr

/-- A reading as a converter gives it (R323, R324). -/
structure Reading where
  code : Nat
  ovr : Bool
  undr : Bool
  deriving DecidableEq, Repr

/-- A plan of the set-point limiter: position, velocity and acceleration, 16 fraction bits (R288). -/
structure Plan where
  x : Int
  v : Int
  c : Int
  deriving DecidableEq, Repr

/-- What the law computation of a period has come to (R273 to R275). -/
inductive LawState where
  /-- No period is open, or the frame of the period carries nothing (R300). -/
  | idle
  /-- The code or the computation is awaited. -/
  | waiting
  | done (u : Int)
  /-- The computation was abandoned; its deadline is awaited (R276). -/
  | abandoned
  /-- The next frame repeats the drive word. -/
  | missed
  deriving DecidableEq, Repr

/-- The period in progress of an axis: its instant, resonant phase at it, reading, and what its trace entry holds (R311). -/
structure Period where
  t : Nat
  phi : Nat
  reading : Option Reading
  invalid : Bool
  clamp : Bool
  noAck : Bool
  changed : Bool
  repeated : Bool
  drive : Int
  fe : Int
  deriving DecidableEq, Repr

/-- A span of device time over which the resonant phase advanced evenly: its first and last coarse tick, the phase at the first and FTW
(R291). -/
structure Span where
  t : Nat
  stop : Nat
  phase : Nat
  ftw : Nat
  deriving DecidableEq, Repr

/-- The loop state of an axis beside its registers (R270 to R312). -/
structure Axis where
  /-- The latest valid samples, latest first. -/
  samples : List AxSample
  /-- Resonant phase at a device time, whether it advances, and I and Q of the latest completed cycle, 16 fraction bits (R291 to
  R293). -/
  phase : Nat
  phaseAt : Nat
  running : Bool
  iq : Int × Int
  /-- Earlier spans of the phase, latest first, and earlier I and Q with the device time at which they gave way, oldest first: a fire and
  a WAITA may ask for a time before the present span (R295, R296). -/
  spans : List Span
  iqPast : List (Nat × (Int × Int))
  /-- Measured amplitude, and whether a cycle since the latest start has formed it (R289, R293). -/
  amp : Int
  ampNew : Bool
  /-- The lowest valid sensed angle since the latest upward zero crossing (R329). -/
  low : Option Int
  /-- Sums of the cycle in progress: samples, Σ y cos, Σ y sin, Σ y sin(φ + DPH), in units of 2^-60; a cycle end that waits for
  the code of a sample before it; the last FTW written (R293, R294). -/
  sums : Nat × Int × Int × Int
  cycleDue : Bool
  f0 : Nat
  /-- Plans of the present period and the two after it; they and the raw set-point start from the first valid measure (R288,
  R289). -/
  plans : Plan × Plan × Plan
  starting : Bool
  raw : Int
  /-- When the axis was last enabled: it owns its converter's slots from then on (R316, R318). -/
  since : Nat
  /-- Set-points that enter at the next sample instant (R286). -/
  points : List Int
  /-- The period in progress and its computation. -/
  period : Option Period
  law : LawState
  /-- Law state (R278): integrator, e of the period before, usat, and s[j](k-1), s[j](k-2) for j = 0 to 6. -/
  integ : Int
  ePrev : Int
  usat : Int
  hist : Vector (Int × Int) 7
  /-- The records in force before the changes whose integrator is not yet recomputed, oldest first (R282). -/
  recOld : List Nat
  /-- A frame mark has passed since the record became pending (R283); the scheduled record of the next period and the region
  (R285). -/
  recMark : Bool
  recNext : Option Nat
  region : Nat
  /-- Runs of R298: periods over FELIM, overruns, invalid samples, frames without acknowledgement. -/
  feRun : Nat
  lateRun : Nat
  badRun : Nat
  ackRun : Nat
  /-- CLR waits for the next sample instant; EN was cleared and the SAFE frame is due (R300, R301). -/
  clr : Bool
  closing : Bool
  /-- Word of the latest frame; frames sent, modulo 4 (R304). -/
  word : Int
  seq : Nat
  /-- Trace: periods since the last entry, and entries left after a fault (R311, R312). -/
  skipped : Nat
  left : Option Nat
  deriving DecidableEq, Repr

/-- The KIND of a drive frame (R304). -/
inductive DKind where
  | drive | repeat | safe
  deriving DecidableEq, Repr

/-- A requested drive frame (R305): axis, kind, and its word, or the amplitude U of a RESONANT frame (R292). -/
structure DReq where
  axis : Nat
  kind : DKind
  word : Int
  resonant : Bool
  t : Nat
  deriving DecidableEq, Repr

/-- A frame sent and not yet acknowledged: axis, SEQ, and the end of the time of R307. -/
structure DSent where
  axis : Nat
  seq : Nat
  until_ : Nat
  deriving DecidableEq, Repr

/-- The drive link (R303 to R309). -/
structure Drive where
  reqs : List DReq
  /-- The device time from which the link is free. -/
  free : Nat
  sent : List DSent
  /-- A falling edge of DRVCLK since the time base locked, once a frame has shown one; the others are 64 coarse ticks apart (R303). -/
  edge : Option Nat
  /-- The bits of the latest frame, which ends when the link is free (R304). -/
  bits : Nat
  deriving DecidableEq, Repr

/-- An axis after reset (open points: DESIGN CHOICE, log 62). -/
def Axis.reset : Axis where
  samples := []
  phase := 0
  phaseAt := 0
  running := false
  iq := (0, 0)
  spans := []
  iqPast := []
  amp := 0
  ampNew := false
  low := none
  sums := (0, 0, 0, 0)
  cycleDue := false
  f0 := 0
  plans := (⟨0, 0, 0⟩, ⟨0, 0, 0⟩, ⟨0, 0, 0⟩)
  starting := false
  raw := 0
  since := 0
  points := []
  period := none
  law := .idle
  integ := 0
  ePrev := 0
  usat := 0
  hist := Vector.replicate 7 (0, 0)
  recOld := []
  recMark := false
  recNext := none
  region := 0
  feRun := 0
  lateRun := 0
  badRun := 0
  ackRun := 0
  clr := false
  closing := false
  word := 0
  seq := 0
  skipped := 0
  left := none

/-- What a conversion serves, highest rank first (R317, R320); a check with its CHKDAC code and tolerance (R326). -/
inductive ConvKind where
  | axis (a : Nat)
  | derate
  | check (code tol : Nat)
  | host
  | demand
  deriving DecidableEq, Repr

/-- A conversion requested, or started at a device time (R314). -/
structure Conv where
  kind : ConvKind
  input : Nat
  start : Nat
  deriving DecidableEq, Repr

/-- A converter: requests in the order raised, conversions running, the device time from which none of those started runs any more, the
next HOST input, and the end of the latest conversion that carried OVR or UNDR (R314 to R325). -/
structure Adc where
  reqs : List Conv
  runs : List Conv
  free : Nat
  next : Nat
  recover : Option Nat
  deriving DecidableEq, Repr

/-- A frequency meter (R328 to R334): start of the gate in progress; stamps that its source has given and the meter has not taken yet, in
1/16 fine LSB; stamps taken since enable and the latest of them; accepted stamps of the gate, oldest first; the latest stamp that was
accepted and kept; a discard in the gate. -/
structure Meter where
  gate : Nat
  given : List Nat
  count : Nat
  prev : Option Nat
  stamps : List Nat
  last : Option Nat
  loss : Bool
  deriving DecidableEq, Repr

/-- Sense converters and meters, beside the registers. -/
structure Sns where
  adcs : Vector Adc 4
  /-- Housekeeping step in force (SNS_CFG.STEP), and the latest step instant (R319). -/
  step : Nat
  stepAt : Option Nat
  /-- The check in progress, from its GO until its request is raised: converter, input, code, tolerance, GO (R326). -/
  check : Option (Nat × Nat × Nat × Nat × Nat)
  meters : Vector Meter 8
  deriving DecidableEq, Repr

/-- An EARLY record outstanding (R219): what resolution needs, the zones of the map in force that it tripped, whether it tripped
any, and whether its resolution has been formed. -/
structure Early where
  spec : Nat
  ctx : Nat
  cand : Nat
  range : Nat
  unc : Nat
  frame : Nat
  column : Nat
  pixrow : Nat
  tstamp : Nat
  zones : List Nat
  tripped : Bool
  resolved : Bool
  deriving DecidableEq, Repr

/-- The records that the zone monitor tells apart (R231, R232); a SKIPMARK only keeps its place among them (R173). -/
inductive ZKind where
  | point | early | confirm | withdraw | mark
  deriving DecidableEq, Repr

/-- A record on its way to the zone monitor and its stream buffer (R220, R224). -/
structure ZRec where
  kind : ZKind
  vc : Nat
  item : Item
  frame : Nat
  column : Nat
  pixrow : Nat
  range : Nat
  spec : Nat
  tstamp : Nat
  /-- The pixel's last record. -/
  last : Bool
  /-- The zone map changed after the record was handed on (R233). -/
  untested : Bool
  deriving DecidableEq, Repr

/-- Frame statistics that run (PNT_FSTAT). -/
structure FStat where
  frame : Nat
  pixels : Nat
  points : Nat
  notOpened : Nat
  overrun : Nat
  deriving DecidableEq, Repr

/-- Points, early records and zones beside their registers. -/
structure Pnt where
  outstanding : List Early
  /-- Records handed on, waiting for the zone monitor, in order (R224). -/
  zoneQ : List ZRec
  /-- Records held until the resolution of an earlier context of the same emitter and block has been handed on (R225). -/
  recsHeld : List ZRec
  /-- State of each zone of the map in force: 0 CLEAR, 1 SPEC, 2 FIRM (R232). -/
  zones : FMap Nat
  /-- The latest trip of each zone, and of each output, plus 1 (R232, R234). -/
  zoneTrip : FMap Nat
  outTrip : FMap Nat
  /-- Entries of the map in force that its check disabled (R230). -/
  disabled : List Nat
  /-- The map that comes into force at the next frame mark (R230). -/
  zpend : Nat
  stats : List FStat
  deriving DecidableEq, Repr

/-- A pending notice (R572, R575): its key (KIND and AUID), report window, PEAK, SCORE and CHAN of the strongest candidate, FRAME and
arrival of the first, the extreme columns with their frames, and the candidates merged. -/
structure Notice where
  kind : Nat
  auid : Nat
  window : Nat
  peak : Nat
  score : Nat
  chan : Nat
  frame : Nat
  first : Nat
  colFirst : Nat × Nat
  colLast : Nat × Nat
  detect : Nat
  deriving DecidableEq, Repr

/-- Units in company, beside the registers (R565 to R574). -/
structure Fle where
  /-- Accepted marker edges, latest first (R565, R566). -/
  syncs : List Nat
  /-- Captures of each group in the running window; drops since the last marker; the window, and the number after that of the latest one
  begun (R567 to R569). -/
  captured : FMap Nat
  drops : Nat
  window : Nat
  begun : Nat
  notices : List Notice
  deriving DecidableEq, Repr

/-- The states of the test access port's controller (R584, IEEE 1149.1). -/
inductive TapState where
  | logicReset | idle
  | selectDr | captureDr | shiftDr | exit1Dr | pauseDr | exit2Dr | updateDr
  | selectIr | captureIr | shiftIr | exit1Ir | pauseIr | exit2Ir | updateIr
  deriving DecidableEq, Repr

/-- The instructions of the test port (R584). -/
inductive TapInstr where
  | bypass | sample | extest
  deriving DecidableEq, Repr

/-- The test port (R584): its controller, the instruction in force, the instruction, bypass and boundary registers as they shift,
the boundary register's held values, and TDO, none at high impedance. -/
structure Tap where
  state : TapState
  instr : TapInstr
  irShift : BitVec 4
  bypass : Bool
  shift : BitVec 103
  hold : BitVec 103
  tdo : Option Bool
  deriving DecidableEq, Repr

/-- A command in progress on a queue (R497), with its completion once it waits for a free entry (R498). -/
structure QueueCmd where
  opcode : Nat
  tag : Nat
  haddr : Nat
  doff : Nat
  len : Nat
  pattern : Nat
  /-- Words that became protected or uncorrectable so far. -/
  result : Nat
  /-- STATUS of the completion that waits; none while the command runs. -/
  done : Option Nat
  deriving DecidableEq, Repr

/-- What the host interface holds beside its registers. -/
structure HifX where
  /-- Bus Master Enable (R489). -/
  bme : Bool
  /-- D3hot (R488). -/
  d3 : Bool
  /-- Mask bits of the MSI-X vectors and the PBA (R486, R510). -/
  mask : Nat
  pba : Nat
  /-- The command in progress on each queue. -/
  cmds : Vector (Option QueueCmd) 8
  /-- A queue that stops once its command in progress has completed (R494). -/
  stopping : Vector Bool 8
  /-- Unsignalled completions of each CQ (R511). -/
  unsig : Vector Nat 8
  /-- Words of the MSI-X table by number: address low and high, data; the mask bits have their own home (R486). -/
  table : FMap Word
  /-- Words of configuration space by number (R477 to R480); Bus Master Enable and the power state have their own home. -/
  cfg : FMap Word
  /-- The queue whose turn it is when more queues wait than engines are free (R497). -/
  turn : Nat
  deriving DecidableEq, Repr

/-- The whole state. -/
structure State where
  /-- RESET_N is low (R516). -/
  inReset : Bool
  /-- BAR0 registers by offset; an unlisted one holds its reset value. -/
  regs : FMap Word
  /-- Device time in coarse ticks (R18). -/
  dt : Nat
  /-- Bytes of the BAR2 memories by offset (R483); an unlisted byte reads 0 (log 3). -/
  mem : List Host.Cell
  /-- Syndromes of protected words by word number (BAR2 offset / 32): what the errors in a stored word add to its
  syndromes S0 to S3, 8 bits each from bit 0; 0 is a codeword (R35). -/
  synd : FMap Word
  /-- The MODEL's own: the bytes that the last read returned (log 5). -/
  lastRead : List Byte
  /-- The MODEL's own: what has left the part, in order (log 5). -/
  outs : List Out
  /-- The MODEL's own: the counter that fresh free values are drawn at (log 6). -/
  free : Nat
  /-- Fault reporting. -/
  flt : Flt
  /-- The emission block. -/
  emi : Emi
  /-- Return timing. -/
  ret : Ret
  /-- The stream link. -/
  stl : Stl
  /-- The context pool. -/
  pool : Pool
  /-- Calibration. -/
  cal : Cal
  /-- The Decanter. -/
  dec : Dec
  /-- The Fire Sequencer and the Point Engines. -/
  seq : Seq
  /-- The four Press engines (R434). -/
  prs : Vector (Option PressWork) 4
  /-- The scan axes. -/
  axs : Vector Axis 4
  /-- The drive link. -/
  drv : Drive
  /-- The sense converters and frequency meters. -/
  sns : Sns
  /-- Points and zones. -/
  pnt : Pnt
  /-- Units in company. -/
  fle : Fle
  /-- The test port. -/
  tap : Tap
  /-- The host interface beside its registers. -/
  hifx : HifX
  /-- The MODEL's own: the commands that wait, first in, first out. -/
  pending : List Instr
  deriving DecidableEq, Repr

/-- The state right after reset. -/
def State.reset : State where
  inReset := false
  regs := []
  dt := 0
  mem := []
  synd := []
  lastRead := []
  outs := []
  free := 0
  flt := ⟨[], [], 0⟩
  emi := {
    tq := [], lastFire := [], tokens := 64, tokenLog := [], pulses := [], rows := [], rowWait := none, rowHigh := none, rowNext := none,
    blanking := false, codeK := [], codeMarks := [], emLast := [], chainBuf := [], chainBusy := false, chainAt := none
    chainEdge := none, chainPrev := none, guard := false,
    chainPend := none, derImage := none, resuming := false, permit := false, lastEdge := none, watch := false, ack := false,
    echoes := [], inhN := false, inhRise := none, drStop := false, drMin := 0, past := [], slots := 0 }
  ret := {
    paths := [], gates := [], gateSeq := 0, shots := [], starts := [], startLast := [],
    groups := Vector.replicate 16 ⟨[], [], false⟩, spares := Vector.replicate 16 ⟨0, false, false⟩, spans := [],
    inForce := [], checks := [], startDll := false, stcsNext := none }
  stl := {
    bufs := Vector.replicate 4 [], held := Vector.replicate 4 [], unused := Vector.replicate 4 [], jobs := Vector.replicate 4 []
    jobSeq := Vector.replicate 4 0, losses := [],
    tx := Vector.replicate 4 ⟨.pll, Preset.builtin, none, none⟩, rx := Vector.replicate 4 ⟨Preset.builtin, [], 0, false⟩,
    presetsWait := false, upSerial := 0, upFeb := 0, seqTx := Vector.replicate 4 0, expect := Vector.replicate 4 none,
    heldRx := Vector.replicate 4 [], fwd := Vector.replicate 4 [], mtxBusy := false, mtxAt := 0, granted := false,
    grants := Vector.replicate 2 [], turn3 := false, turnNew := true, deficit := Vector.replicate 2 0, eiAt := 0,
    lastTx := 0, bootAt := none }
  pool := {
    ctxs := [], seq := 0, queue := [], parts := [], frame := 0, column := 0, probes := Vector.replicate 16 none,
    probeAt := Vector.replicate 16 0 }
  cal := {
    taps := [], total := [], pending := [], adopted := [], swept := [], stale := [], begun := [], sweeps := [], rate := [], cross := [],
    walkS := [], walkN := [], accN := [], accX := [], staged := [], touched := [], queue := [], trims := [], stcal := none,
    shadow := [], trimming := [], trim := [] }
  dec := ⟨Vector.replicate 16 none, []⟩
  seq := ⟨⟨Engine.reset, 0, 0, 0, none, none, false, false⟩, Vector.replicate 16 ⟨Engine.reset, none, none⟩, [], []⟩
  prs := Vector.replicate 4 none
  axs := Vector.replicate 4 Axis.reset
  drv := ⟨[], 0, [], none, 0⟩
  sns := ⟨Vector.replicate 4 ⟨[], [], 0, 0, none⟩, 100, none, none, Vector.replicate 8 ⟨0, [], 0, none, [], none, false⟩⟩
  pnt := ⟨[], [], [], [], [], [], [], 0, []⟩
  fle := ⟨[], [], 0, 0, 0, []⟩
  tap := ⟨.logicReset, .bypass, 0#4, false, 0#103, 0#103, none⟩
  hifx := ⟨false, false, 0xFFFFFFFF, 0, Vector.replicate 8 none, Vector.replicate 8 false, Vector.replicate 8 0, [], [], 0⟩
  pending := []

end Sys2Proof.Machine
end

