-- ==== Sys2Proof/Machine/Ops.lean ====
section
/-!
DEFINITION. The named operations over the state: keyed data, register fields and counters, events and messages, ignored
operations, device time, faults, and the protected memories. Every meaning is built of these.
-/
namespace Sys2Proof.Machine

/-! ### Keyed data in canonical form -/

/-- The value at a key; an unlisted key reads the default. -/
def FMap.get {β : Type} (d : Nat → β) : FMap β → Nat → β
  | [], a => d a
  | (k, v) :: m, a => if k = a then v else if a < k then d a else FMap.get d m a

/-- The list without its leading keys up to a. -/
def FMap.dropLe {β : Type} (a : Nat) : FMap β → FMap β
  | [] => []
  | (k, v) :: m => if k ≤ a then FMap.dropLe a m else (k, v) :: m

/-- The value at a key replaced; a default value takes the entry out (open points: DESIGN CHOICE, log 25). -/
def FMap.set {β : Type} [DecidableEq β] (d : Nat → β) : FMap β → Nat → β → FMap β
  | [], a, v => if v = d a then [] else [(a, v)]
  | (k, w) :: m, a, v =>
    if k < a then (k, w) :: FMap.set d m a v
    else if v = d a then FMap.dropLe a ((k, w) :: m) else (a, v) :: FMap.dropLe a ((k, w) :: m)

/-- Every key is above b, keys rise strictly, and no entry equals its default. -/
def FMap.wfFrom {β : Type} [DecidableEq β] (d : Nat → β) : Nat → FMap β → Bool
  | _, [] => true
  | b, (k, v) :: m => decide (b ≤ k) && decide (v ≠ d k) && FMap.wfFrom d (k + 1) m

/-- The canonical form (open points: DESIGN CHOICE, log 25). -/
def FMap.wf {β : Type} [DecidableEq β] (d : Nat → β) (m : FMap β) : Bool := FMap.wfFrom d 0 m

/-- A plain value keyed by a number, default 0. -/
abbrev FMap.nat (m : FMap Nat) (a : Nat) : Nat := FMap.get (fun _ => 0) m a

/-- Set of a plain value, default 0. -/
abbrev FMap.setNat (m : FMap Nat) (a v : Nat) : FMap Nat := FMap.set (fun _ => 0) m a v

/-! ### Bytes and numbers -/

/-- The low n bytes of a number, least significant first (R17). -/
def leBytes : Nat → Nat → List Byte
  | 0, _ => []
  | n + 1, v => BitVec.ofNat 8 v :: leBytes n (v / 256)

/-- The number that bytes spell, least significant first (R17). -/
def leNat : List Byte → Nat
  | [] => 0
  | b :: bs => b.toNat + 256 * leNat bs

/-- Bits [lo+w-1 : lo] of a number. -/
def bits (v lo w : Nat) : Nat := v / 2 ^ lo % 2 ^ w

/-- Bit i of a number. -/
def bit (v i : Nat) : Bool := v / 2 ^ i % 2 = 1

/-- A truth value as a bit. -/
def b01 (b : Bool) : Nat := if b then 1 else 0

/-- The signed value of the low w bits. -/
def sint (w v : Nat) : Int :=
  if v % 2 ^ w < 2 ^ (w - 1) then ((v % 2 ^ w : Nat) : Int) else ((v % 2 ^ w : Nat) : Int) - (2 ^ w : Nat)

/-- The low w bits of a signed value. -/
def uint (w : Nat) (x : Int) : Nat := (x % ((2 ^ w : Nat) : Int)).toNat

/-- A signed value held within bounds. -/
def clampInt (lo hi x : Int) : Int := if x < lo then lo else if hi < x then hi else x

/-- Saturation to w bits, signed. -/
def satInt (w : Nat) (x : Int) : Int := clampInt (-(2 ^ (w - 1) : Nat)) ((2 ^ (w - 1) : Nat) - 1) x

/-- The number of set bits among the low n. -/
def popcount : Nat → Nat → Nat
  | 0, _ => 0
  | n + 1, v => v % 2 + popcount n (v / 2)

/-- The numbers of the set bits among the low n, rising. -/
def setBits (n v : Nat) : List Nat := (List.range n).filter fun i => bit v i

/-- An element replaced where the list has it. -/
def modAt {α : Type} (l : List α) (i : Nat) (f : α → α) : List α :=
  match l, i with
  | [], _ => []
  | x :: xs, 0 => f x :: xs
  | x :: xs, n + 1 => x :: modAt xs n f

/-- The first element that passes a test, changed. -/
def modFirst {α : Type} (p : α → Bool) (f : α → α) : List α → List α
  | [] => []
  | x :: xs => if p x then f x :: xs else x :: modFirst p f xs

/-- Without the first element that passes a test. -/
def dropFirst {α : Type} (p : α → Bool) : List α → List α
  | [] => []
  | x :: xs => if p x then xs else x :: dropFirst p xs

/-! ### Registers -/

/-- The offset of a descriptor's register at indices. -/
def RegDesc.at (d : RegDesc) (i j : Nat) : Nat := d.base + d.stride * i + d.stride2 * j

/-- Whether a descriptor has a register at an offset, and its indices counted from 0. -/
def RegDesc.find (d : RegDesc) (off : Nat) : Option (Nat × Nat) :=
  if off < d.base then none
  else
    let x := off - d.base
    let i := if d.count ≤ 1 then 0 else if d.stride2 ≠ 0 ∧ d.stride < d.stride2 then x % d.stride2 / d.stride else x / d.stride
    let y := x - d.stride * i
    let j := if d.stride2 = 0 then 0 else y / d.stride2
    if d.at i j = off ∧ d.first ≤ i ∧ i < d.count ∧ j < d.count2 then some (i, j) else none

/-- The registers of the block that an offset lies in (R482). -/
def blockRegs (off : Nat) : List RegDesc :=
  if off < 0x4000 then regsSYS
  else if off < 0x8000 then regsHIF
  else if off < 0xC000 then regsTBS
  else if off < 0x10000 then regsEMI
  else if off < 0x30000 then regsRET
  else if off < 0x34000 then regsRGP
  else if off < 0x38000 then regsCTX
  else if off < 0x3C000 then regsDEC
  else if off < 0x40000 then regsPNT
  else if off < 0x44000 then regsCAL
  else if off < 0x48000 then regsAXS
  else if off < 0x4C000 then regsSNS
  else if off < 0x50000 then regsSEQ
  else if off < 0x54000 then regsPRS
  else if off < 0x58000 then regsSTL
  else if off < 0x5C000 then regsFLT
  else if off < 0x60000 then regsFLE
  else []

/-- The register at an offset, with its indices. -/
def findReg (off : Nat) : Option (RegDesc × Nat × Nat) :=
  (blockRegs off).findSome? fun d => (d.find off).map fun ij => (d, ij.1, ij.2)

/-- The reset value of the register at an offset (the reset column of its table) (open points: DESIGN CHOICE, log 25). -/
def resetVal (off : Nat) : Word :=
  match findReg off with
  | some (d, _, _) => BitVec.ofNat 32 d.reset
  | none => 0#32

/-- A register word (open points: DESIGN CHOICE, log 25). -/
def State.reg (s : State) (off : Nat) : Word := FMap.get resetVal s.regs off

/-- A register word replaced (open points: DESIGN CHOICE, log 25). -/
def State.setReg (s : State) (off : Nat) (v : Word) : State := { s with regs := FMap.set resetVal s.regs off v }

/-- w ones. -/
def maskW (w : Nat) : Word := BitVec.ofNat 32 (2 ^ w - 1)

/-- The value of a register field. -/
def State.get (s : State) (f : Fld) : Nat := ((s.reg f.off >>> f.lo) &&& maskW f.w).toNat

/-- Whether a field is not 0. -/
def State.is (s : State) (f : Fld) : Bool := s.get f ≠ 0

/-- A register field replaced by the low bits of a value. -/
def State.put (s : State) (f : Fld) (v : Nat) : State :=
  s.setReg f.off ((s.reg f.off &&& ~~~(maskW f.w <<< f.lo)) ||| ((BitVec.ofNat 32 v &&& maskW f.w) <<< f.lo))

/-- A one-bit field set from a truth value. -/
def State.putB (s : State) (f : Fld) (b : Bool) : State := s.put f (b01 b)

/-- A counter advanced, saturating at the largest value of its field. -/
def State.countN (s : State) (f : Fld) (n : Nat) : State := s.put f (min (s.get f + n) (2 ^ f.w - 1))

/-- A counter advanced by one. -/
def State.count (s : State) (f : Fld) : State := s.countN f 1

/-- The value of a field in a word that is being written. -/
def Fld.of (f : Fld) (v : Word) : Nat := ((v >>> f.lo) &&& maskW f.w).toNat

/-- Whether a field of a word that is being written is not 0. -/
def Fld.isOf (f : Fld) (v : Word) : Bool := f.of v ≠ 0

/-! ### The step's frame, time, free values, output -/

/-- What a command answers: its effect on everything but the queue, which the step keeps; while RESET_N is low the outputs are held and
nothing else changes (R516). -/
def act (s s' : State) : Host.Outcome State Fault Refusal :=
  .next (if s.inReset then s else { s' with pending := s.pending })

/-- A word of configuration space as it is kept (R479) (open points: PRESUMED, log 104). -/
def State.cfg (s : State) (i : Nat) : Word := FMap.get cfgReset s.hifx.cfg i

/-- A word of configuration space replaced. -/
def State.setCfg (s : State) (i : Nat) (v : Word) : State := { s with hifx := { s.hifx with cfg := FMap.set cfgReset s.hifx.cfg i v } }

/-- Something leaves the part (open points: DESIGN CHOICE, log 5; DESIGN CHOICE, log 98). -/
def State.out (s : State) (o : Out) : State := { s with outs := s.outs ++ [o] }

/-- An uncorrectable error is detected by the endpoint (R477, R503): its bit of the AER status, the Device Status bits of its class, and the
error message where it is not masked and its class is enabled (PRESUMED, log 104). -/
def State.aerError (s : State) (b : Nat) (dev : Word) : State :=
  let fatal := (s.cfg 67).getLsbD b
  let s' := (s.setCfg 65 (s.cfg 65 ||| BitVec.ofNat 32 (2 ^ b))).setCfg 26
    (s.cfg 26 ||| dev ||| (if fatal then 0x40000#32 else 0x20000#32))
  if (s.cfg 66).getLsbD b || !((s.cfg 26).getLsbD (if fatal then 2 else 1) || (s.cfg 1).getLsbD 8) then s' else s'.out (.errMsg fatal)

/-- A request that the endpoint refuses as unsupported: it has no effect but the error's report (R481) (PRESUMED, log 104). -/
def State.unsupported (s : State) : State := s.aerError 20 0x80000#32

/-- A read that is refused so returns no data (R481). -/
def State.refusedRead (s : State) : State := { s.unsupported with lastRead := [] }

/-- Device time at a command that the time base times: it does not run back, and it stands while the time base is
unlocked (R18, R103, R528) (open points: DESIGN CHOICE, log 23; DESIGN CHOICE, log 24)
(open points: DESIGN CHOICE, log 100). -/
def State.at (s : State) (t : Nat) : State :=
  if s.is F.SYS_STAT_TBLOCK then { s with dt := max s.dt t } else s

/-- A fresh free value (DESIGN CHOICE, log 6). -/
def State.fresh (s : State) : Word := Config.freeWord s.free

/-- The counter of free values advanced (open points: DESIGN CHOICE, log 6). -/
def State.draw (s : State) : State := { s with free := s.free + 1 }

/-- SOLO is in force (R2). -/
def State.solo (s : State) : Bool := s.is F.SYS_STRAP_CFGMODE

/-- The endpoint's memory space is enabled: Memory Space Enable of the Command register (R481). In SOLO there is no endpoint (R3)
(open points: PRESUMED, log 104). -/
def State.memEnabled (s : State) : Bool := s.solo || (s.cfg 1).getLsbD 1

/-- The endpoint takes the memory requests of a source: the host's only while its memory space is enabled, and not in D3hot, where it
answers configuration requests only (R481, R488) (open points: PRESUMED, log 104). -/
def State.hears (s : State) (src : Src) : Bool := !(src = .host && (s.hifx.d3 || !s.memEnabled))

/-- What a command answers that is an access of the host or the Postmaster: the host's may be refused (R481, R488). -/
def actBy (src : Src) (s s' : State) : Host.Outcome State Fault Refusal := act s (if s.hears src then s' else s.unsupported)

/-- The unit serial number (SYS_SERIALHI, SYS_SERIALLO). -/
def State.serial (s : State) : Nat := s.get F.SYS_SERIALLO_SERIAL + 2 ^ 32 * s.get F.SYS_SERIALHI_SERIAL

/-! ### What held at an earlier time -/

/-- The device time that no timed command still to act precedes (open points: DEDUCED, log 105). -/
def State.horizon (s : State) : Nat := s.emi.tq.foldl (fun m c => min m c.tc) s.dt

/-- A condition of R46 is about to change from its old value; changes that no t_fire can precede any more are dropped: t_fire lies
within 1,031 coarse ticks of its command's device time (R44, R55) (open points: DEDUCED, log 105). -/
def State.keep (s : State) (key old : Nat) : State :=
  { s with emi := { s.emi with past := (s.emi.past.filter fun x => s.horizon ≤ x.t + 1100) ++ [⟨s.dt, key, old⟩] } }

/-- The key of a register field. -/
def Fld.key (f : Fld) : Nat := 32 * f.off + f.lo

/-- A register field replaced, its old value kept where it changes. -/
def State.putKept (s : State) (f : Fld) (v : Nat) : State :=
  if s.get f = v then s else (s.keep f.key (s.get f)).put f v

/-- The value of a condition at a time in subticks, where its present value is now: a change acts on what follows it (R76, R84)
(open points: DEDUCED, log 105). -/
def State.wasAt (s : State) (key tf now : Nat) : Nat :=
  match s.emi.past.find? fun x => x.key = key && tf ≤ 16 * x.t with
  | some x => x.old
  | none => now

/-- The value of a register field at a time in subticks. -/
def State.getAt (s : State) (f : Fld) (tf : Nat) : Nat := s.wasAt f.key tf (s.get f)

/-- Whether a register field was not 0 at a time in subticks. -/
def State.isAt (s : State) (f : Fld) (tf : Nat) : Bool := s.getAt f tf ≠ 0

/-! ### Messages, events, ignored operations -/

/-- MSI-X is enabled and its function not masked, as the Message Control of configuration space says (R477)
(PRESUMED, log 104). -/
def State.msixOn (s : State) : Bool := (s.cfg 20).getLsbD 31 && !(s.cfg 20).getLsbD 30

/-- Whether the endpoint may send a message now (R477, R488 to R490) (open points: PRESUMED, log 104). -/
def State.mayMsg (s : State) : Bool := !s.solo && s.hifx.bme && !s.hifx.d3 && s.msixOn

/-- A word of the MSI-X table as it is kept (R486) (open points: PRESUMED, log 11). -/
def State.msixWord (s : State) (i : Nat) : Nat := (FMap.get (fun _ => 0#32) s.hifx.table i).toNat

/-- The message of a vector, with the address and the data of its table entry (R486, R508). -/
def State.message (s : State) (v : Nat) : Out :=
  .msix v (s.msixWord (4 * v) + 2 ^ 32 * s.msixWord (4 * v + 1)) (s.msixWord (4 * v + 2))

/-- A message on a vector: sent, or held in its PBA bit while it is masked or the endpoint may not send (R486 to R490,
R510). In SOLO there is no endpoint (open points: PRESUMED, log 11). -/
def State.msg (s : State) (v : Nat) : State :=
  if s.solo then s
  else if s.mayMsg && !bit s.hifx.mask v then (s.out (s.message v)).count (F.HIF_CNT_COUNT 4)
  else { s with hifx := { s.hifx with pba := s.hifx.pba ||| 2 ^ v } }

/-- Every held message whose vector is unmasked, sent when the endpoint may send (R488, R489, R510). -/
def State.flushMsgs (s : State) : State :=
  if s.mayMsg then
    (setBits 32 s.hifx.pba).foldl (fun s v =>
      if bit s.hifx.mask v then s
      else ({ s with hifx := { s.hifx with pba := s.hifx.pba - 2 ^ v } }.out (s.message v)).count (F.HIF_CNT_COUNT 4)) s
  else s

/-- The event of vector v, 9 to 21 (R509): its HIF_EVSTAT bit is set, and a message is sent where it was clear and
enabled. -/
def State.event (s : State) (v : Nat) : State :=
  let cause : Fld := ⟨F.HIF_EVSTAT_CAUSE.off, v, 1⟩
  let en : Fld := ⟨F.HIF_EVEN_EN.off, v, 1⟩
  let fresh := !s.is cause
  let s := s.put cause 1
  if fresh && s.is en then s.msg v else s

/-- The event where something changed. -/
def State.eventIf (s : State) (c : Bool) (v : Nat) : State := if c then s.event v else s

/-- The vector 8 event of a fault record: a message for each (R510). -/
def State.eventFault (s : State) : State :=
  let en : Fld := ⟨F.HIF_EVEN_EN.off, 8, 1⟩
  let s := s.put ⟨F.HIF_EVSTAT_CAUSE.off, 8, 1⟩ 1
  if s.is en then s.msg 8 else s

/-- Where an ignored operation was aimed (SYS_IGNLAST.KIND). -/
inductive IgnKind where
  | bar0 | bar2 | bar4 | command
  deriving DecidableEq, Repr

/-- SYS_IGNLAST.KIND of a kind. -/
def IgnKind.code : IgnKind → Nat
  | .bar0 => 1
  | .bar2 => 2
  | .bar4 => 3
  | .command => 4

/-- An operation ignored and counted in SYS_IGNORED (R11, R513, R606). -/
def State.ignore (s : State) (kind : IgnKind) (post : Bool) (loc : Nat) : State :=
  ((((s.count F.SYS_IGNORED_COUNT).put F.SYS_IGNLAST_KIND kind.code).putB F.SYS_IGNLAST_POST post).put
    F.SYS_IGNLAST_WHERE loc).event 9

/-- A register write ignored as a whole (R606). -/
def State.ignoreReg (s : State) (src : Src) (off : Nat) : State := s.ignore .bar0 (src = .postmaster) off

/-- A change of SYS_STAT, with its event where a bit changed (vector 21). -/
def State.setStat (s : State) (f : Fld) (b : Bool) : State :=
  let changed := s.is f ≠ b
  (s.putB f b).eventIf changed 21

/-! ### Faults -/

/-- Codes of R532. -/
abbrev Cause.tbunlock : Nat := 0x01
abbrev Cause.dll : Nat := 0x02
abbrev Cause.channel : Nat := 0x03
abbrev Cause.spare : Nat := 0x04
abbrev Cause.start : Nat := 0x05
abbrev Cause.pickoff : Nat := 0x06
abbrev Cause.memory : Nat := 0x07
abbrev Cause.petrap : Nat := 0x08
abbrev Cause.fsqhalt : Nat := 0x09
abbrev Cause.lane : Nat := 0x0A
abbrev Cause.press : Nat := 0x0B
abbrev Cause.axis : Nat := 0x0C
abbrev Cause.permit : Nat := 0x0D
abbrev Cause.thermal : Nat := 0x0E
abbrev Cause.chain : Nat := 0x0F
abbrev Cause.check : Nat := 0x10
abbrev Cause.parity : Nat := 0x11

/-- Whether a fault lies in the scope of a root (R540). For a PETRAP fault, mem names the memory of the word that its
MEMORY trap read (open points: DEDUCED, log 89). -/
def inScope (rcause rinst cause inst : Nat) (mem : Option Nat) : Bool :=
  if rcause = Cause.tbunlock then
    [Cause.dll, Cause.channel, Cause.spare, Cause.start, Cause.pickoff, Cause.axis, Cause.permit, Cause.chain,
      Cause.fsqhalt].contains cause
  else if rcause = Cause.dll then
    if rinst = 16 then cause = Cause.start || cause = Cause.pickoff
    else (cause = Cause.channel && inst / 32 = rinst) || (cause = Cause.spare && inst = rinst)
  else (cause = Cause.memory && inst = rinst) || (cause = Cause.petrap && mem = some rinst)

/-- FLT_STAT follows the active roots. -/
def State.showRoots (s : State) : State :=
  (((s.put F.FLT_STAT_ROOTS s.flt.roots.length).putB F.FLT_STAT_TBROOT (s.flt.roots.any fun r => r.cause = Cause.tbunlock)).putB
    F.FLT_STAT_DLLROOT (s.flt.roots.any fun r => r.cause = Cause.dll)).putB F.FLT_STAT_MEMROOT
    (s.flt.roots.any fun r => r.cause = Cause.memory)

/-- DEPS of a log entry (R537, bytes 12 and 13). -/
def logDeps (e : Nat) : Fld := ⟨0x5A000 + 32 * e + 12, 0, 16⟩

/-- A dependent fault is added to its root: in its log entry once written, else in the record to be written (R538,
R540) (open points: DEDUCED, log 89). -/
def State.absorb (s : State) (r : Root) (n : Nat) : State :=
  let s := s.countN (F.FLT_CNT_COUNT 1) n
  match r.entry with
  | some e => if e < 256 then s.countN (logDeps e) n else s
  | none =>
    let own : FaultRec → Bool := fun d => d.root && d.cause = r.cause && d.inst = r.inst
    let more : FaultRec → FaultRec := fun d => { d with deps := min (d.deps + n) 65535 }
    { s with flt := { s.flt with detected := modFirst own more s.flt.detected } }

/-- A fault is detected (R532, R536, R540): absorbed by an active root, or kept for its record; a new root absorbs the
faults of its scope whose records are not yet written, roots among them (open points: DEDUCED, log 89). -/
def State.raiseIn (s : State) (f : FaultRec) (mem : Option Nat) : State :=
  match s.flt.roots.find? fun r => inScope r.cause r.inst f.cause f.inst mem with
  | some r => s.absorb r 1
  | none =>
    let f := { f with dtDet := s.dt, frame := s.get F.SEQ_FPOS_FRAME, column := s.get F.SEQ_FPOS_COLUMN }
    if [Cause.tbunlock, Cause.dll, Cause.memory].contains f.cause then
      let dep := s.flt.detected.filter fun d => inScope f.cause f.inst d.cause d.inst none
      let keep := s.flt.detected.filter fun d => !inScope f.cause f.inst d.cause d.inst none
      let n := dep.length
      let roots := s.flt.roots.filter fun r => r.entry.isSome || !inScope f.cause f.inst r.cause r.inst none
      let s := s.countN (F.FLT_CNT_COUNT 1) n
      let flt : Flt := ⟨keep ++ [{ f with root := true, deps := min n 65535 }], roots ++ [⟨f.cause, f.inst, none, s.dt⟩], s.flt.seq⟩
      { s with flt := flt }.showRoots
    else { s with flt := { s.flt with detected := s.flt.detected ++ [f] } }

/-- A fault with its cause, instance and detail, and what its record's FLAGS and AFFECTED say: contexts sent to acquisition replay are
counted, those sent to processing replay named (R537, R558). -/
def State.raise (s : State) (cause inst : Nat) (detail : Nat := 0) (acq : Bool := false) (proc : List Nat := [])
    (retired : Bool := false) (affected : Nat := 0) : State :=
  s.raiseIn ⟨cause, inst, detail, false, acq, !proc.isEmpty, retired, 0, min (affected + proc.length) 65535, 0, 0, 0, proc⟩ none

/-- One more context goes to acquisition replay on account of a detected fault whose record is not written yet (R537, R609). -/
def State.moreAffected (s : State) (cause inst : Nat) : State :=
  let more : FaultRec → FaultRec := fun d => { d with acq := true, affected := min (d.affected + 1) 65535 }
  { s with flt := { s.flt with detected := modFirst (fun d => d.cause = cause && d.inst = inst) more s.flt.detected } }

/-- A root is no longer active (R540). -/
def State.endRoot (s : State) (cause inst : Nat) : State :=
  { s with flt := { s.flt with roots := s.flt.roots.filter fun r => !(r.cause = cause && r.inst = inst) } }.showRoots

/-! ### Protected memories -/

/-- The memory that a BAR2 offset lies in, by the numbers of R543; none for a reserved offset and for the broadcast
window (open points: DEDUCED, log 41). -/
def memIndex (a : Nat) : Option Nat :=
  if a < 0x80000 then some 1
  else if a < 0x100000 then none
  else if a < 0x300000 then some 2
  else if a < 0x400000 then none
  else if a < 0x800000 then some 3
  else if a < 0x1000000 then some 4
  else if a < 0x1100000 then some 7
  else if a < 0x2000000 then none
  else if a < 0x2200000 then some 5
  else if a < 0x8000000 then none
  else if a < 0x10000000 then some 0
  else none

/-- The first BAR2 offset of a memory. -/
def memBase (m : Nat) : Nat :=
  if m = 0 then 0x8000000 else if m = 1 then 0 else if m = 2 then 0x100000 else if m = 3 then 0x400000
  else if m = 4 then 0x800000 else if m = 5 then 0x2000000 else 0x1000000

/-- The canonical form of a memory: addresses strictly rising, no entry equal to what an unlisted address reads as. -/
def Memory.wf (m : List Host.Cell) : Bool := FMap.wf (fun _ => 0#8) m

/-- The stored byte at a BAR2 offset (open points: DESIGN CHOICE, log 3). -/
def State.byte (s : State) (a : Nat) : Byte := FMap.get (fun _ => 0#8) s.mem a

/-- The stored byte at a BAR2 offset replaced (open points: DESIGN CHOICE, log 3). -/
def State.setByte (s : State) (a : Nat) (v : Byte) : State := { s with mem := FMap.set (fun _ => 0#8) s.mem a v }

/-- n stored bytes from a BAR2 offset. -/
def State.bytes (s : State) (a n : Nat) : List Byte := (List.range n).map fun i => s.byte (a + i)

/-- Stored bytes replaced from a BAR2 offset. -/
def State.setBytes (s : State) : Nat → List Byte → State
  | _, [] => s
  | a, b :: bs => (s.setByte a b).setBytes (a + 1) bs

/-- The number that n stored bytes spell. -/
def State.num (s : State) (a n : Nat) : Nat := leNat (s.bytes a n)

/-- The error syndromes of word w (BAR2 offset / 32). -/
def State.errors (s : State) (w : Nat) : Word := FMap.get (fun _ => 0#32) s.synd w

/-- The error syndromes of word w replaced. -/
def State.setErrors (s : State) (w : Nat) (v : Word) : State := { s with synd := FMap.set (fun _ => 0#32) s.synd w v }

/-- An upset strikes symbol j of word w: a data symbol changes its stored byte, and the syndromes change. -/
def State.upset (s : State) (w j : Nat) (e : Byte) : State :=
  let s := s.setErrors w (s.errors w ^^^ errorSyndrome j e)
  if j < 32 then s.setByte (32 * w + j) (s.byte (32 * w + j) ^^^ e) else s

/-- Whether a read of word w can use it, by the decoder (R37). -/
def State.wordOk (s : State) (w : Nat) : Bool := (rsDecode (s.errors w)).isSome

/-- A correctable word corrected and written back, counted in FLT_CORRm (R37). -/
def State.correct (s : State) (w : Nat) (es : List (Nat × Byte)) : State :=
  let s := es.foldl (fun s e => if e.1 < 32 then s.setByte (32 * w + e.1) (s.byte (32 * w + e.1) ^^^ e.2) else s) s
  (s.setErrors w 0#32).count (F.FLT_CORR_COUNT ((memIndex (32 * w)).getD 0))

/-- A read finds word w uncorrectable: it counts in FLT_UNCm and is a detection of a MEMORY fault (R40)
(open points: DEDUCED, log 41). -/
def State.uncorrectable (s : State) (w : Nat) (acq : Bool) (affected : Nat) : State :=
  let m := (memIndex (32 * w)).getD 0
  (s.count (F.FLT_UNC_COUNT m)).raise Cause.memory m (detail := w - memBase m / 32) (acq := acq) (affected := affected)

/-- A read of word w: corrected where it is correctable, a detection where it is not (R37, R40). The outcome of R543 is its
caller's. -/
def State.touch (s : State) (w : Nat) : State :=
  match rsDecode (s.errors w) with
  | some [] => s
  | some es => s.correct w es
  | none => s.uncorrectable w false 0

/-- The words that a range of bytes touches. -/
def wordsOf (a n : Nat) : List Nat :=
  if n = 0 then [] else (List.range ((a + n - 1) / 32 - a / 32 + 1)).map fun i => a / 32 + i

/-- A read of a range: every word touched once. -/
def State.touchRange (s : State) (a n : Nat) : State := (wordsOf a n).foldl State.touch s

/-- Whether every word of a range can be used. -/
def State.rangeOk (s : State) (a n : Nat) : Bool := (wordsOf a n).all s.wordOk

/-- The bytes of a list that lie in word w, written there with fresh check symbols (R38). -/
def State.writeWord (s : State) (a : Nat) (bs : List Byte) (w : Nat) : State :=
  let lo := max a (32 * w)
  let hi := min (a + bs.length) (32 * w + 32)
  (s.setBytes lo ((bs.drop (lo - a)).take (hi - lo))).setErrors w 0#32

/-- Whether a write of n bytes from a covers all of word w (R38). -/
def covers (a n w : Nat) : Bool := a ≤ 32 * w && 32 * w + 32 ≤ a + n

/-- A write to the part of word w that a range covers: made outright where it covers the word, else after a read that
finds the word correctable (R38). -/
def State.storeWord (s : State) (a : Nat) (bs : List Byte) (w : Nat) : State :=
  if covers a bs.length w then s.writeWord a bs w
  else if s.wordOk w then (s.touch w).writeWord a bs w
  else s.touch w

/-- A write of bytes, word by word (R38). A word whose read finds it uncorrectable keeps its bytes. -/
def State.store (s : State) (a : Nat) (bs : List Byte) : State :=
  (wordsOf a bs.length).foldl (fun s w => s.storeWord a bs w) s

/-- Whether a write of n bytes from a would be made in every word (R38). -/
def State.storeOk (s : State) (a n : Nat) : Bool := (wordsOf a n).all fun w => covers a n w || s.wordOk w

/-- A table read (R543, memory 4): the number that n bytes spell, none where a word is uncorrectable. -/
def State.table (s : State) (a n : Nat) : Option Nat := if s.rangeOk a n then some (s.num a n) else none

end Sys2Proof.Machine
end

