-- ==== Sys2Proof/Machine/Meters.lean ====
section
/-!
DEFINITION. The frequency meters as the sources of their stamps see them (R328).
-/
namespace Sys2Proof.Machine

/-- Meter i. -/
def State.meter (s : State) (i : Nat) : Meter := s.sns.meters.getD i ⟨0, [], 0, none, [], none, false⟩

/-- Meter i replaced. -/
def State.setMeter (s : State) (i : Nat) (m : Meter) : State :=
  if h : i < 8 then { s with sns := { s.sns with meters := s.sns.meters.set i m h } } else s

/-- Meter i is enabled and takes its stamps from a source (R328). -/
def State.metered (s : State) (i src idx : Nat) : Bool :=
  s.is (F.SNS_FMCFG_EN i) && s.get (F.SNS_FMCFG_SRC i) = src && s.get (F.SNS_FMCFG_IDX i) = idx

/-- A stamp in 1/16 fine LSB waits for METER_STAMP of meter i. -/
def State.giveMeter (s : State) (i x : Nat) : State := s.setMeter i { s.meter i with given := (s.meter i).given ++ [x] }

/-- A source gives a stamp to every meter that takes it (R328) (open points: DEDUCED, log 65). -/
def State.feed (s : State) (src idx x : Nat) : State :=
  (List.range 8).foldl (fun s i => if s.metered i src idx then s.giveMeter i x else s) s

/-- The stamp of a coarse tick: its centre (R328). -/
def coarseStamp (c : Nat) : Nat := 1024 * c + 512

end Sys2Proof.Machine
end

