-- ==== Sys2Proof/Machine/Numeric.lean ====
section
/-!
DEFINITION. Integer arithmetic for the rules that compute with real numbers: rounding, square root, sine and logarithm in
fixed point. "Rounded to nearest" takes halves upward (log 16).
-/
namespace Sys2Proof.Machine

/-- a / b rounded to nearest, halves upward; b > 0 (open points: DESIGN CHOICE, log 16). -/
def roundDiv (a b : Int) : Int := (2 * a + b).fdiv (2 * b)

/-- The integer part of the square root of v, its bits from bit n-1 down. -/
def isqrtBits (v : Nat) : Nat → Nat → Nat
  | 0, r => r
  | n + 1, r => isqrtBits v n (if (r + 2 ^ n) * (r + 2 ^ n) ≤ v then r + 2 ^ n else r)

/-- The integer part of the square root, for arguments below 2^128 (open points: DESIGN CHOICE, log 16). -/
def isqrt (v : Nat) : Nat := isqrtBits v 64 0

/-- The square root rounded to nearest (open points: DESIGN CHOICE, log 16). -/
def rsqrt (v : Nat) : Nat := if isqrt v * isqrt v + isqrt v < v then isqrt v + 1 else isqrt v

/-- The unit of the fixed-point functions, 2^60. -/
def one60 : Int := 1152921504606846976

/-- π / 2 in units of 2^-60. -/
def halfPi60 : Int := 1810979367246450574

/-- The terms of the sine series after the term t of index k, for the square x2 (units 2^-60), n of them, summed. -/
def sinTerms (x2 : Int) : Nat → Nat → Int → Int
  | 0, _, t => t
  | n + 1, k, t => t + sinTerms x2 n (k + 1) (-(t * x2 / one60) / ((2 * k + 2) * (2 * k + 3)))

/-- The sine of an angle from 0 to π/2, in units of 2^-60. -/
def sinQuarter (x : Int) : Int := sinTerms (x * x / one60) 13 0 x

/-- The sine of a 32-bit phase (2^32 is one turn), in units of 2^-60 (open points: DESIGN CHOICE, log 61). -/
def sinPhase (p : Nat) : Int :=
  let p := p % 2 ^ 32
  let r : Nat := p % 2 ^ 30
  let a : Int := (r : Int) * halfPi60 / (2 ^ 30 : Nat)
  let up := sinQuarter a
  let down := sinQuarter (halfPi60 - a)
  match p / 2 ^ 30 with
  | 0 => up
  | 1 => down
  | 2 => -up
  | _ => -down

/-- The cosine of a 32-bit phase, in units of 2^-60 (open points: DESIGN CHOICE, log 61). -/
def cosPhase (p : Nat) : Int := sinPhase (p + 2 ^ 30)

/-- ln 2 in units of 2^-60. -/
def ln2u60 : Int := 799144290325165979

/-- The sum of z^(2k+1) / (2k+1) from index k on, n terms, for the power t = z^(2k+1) and z2 = z². -/
def atanhTerms (z2 : Int) : Nat → Nat → Int → Int
  | 0, _, _ => 0
  | n + 1, k, t => t / (2 * k + 1 : Nat) + atanhTerms z2 n (k + 1) (t * z2 / one60)

/-- The natural logarithm of n / d (both above 0) in units of 2^-60 (open points: DESIGN CHOICE, log 52). -/
def lnRatio (n d : Nat) : Int :=
  let e : Int := (Nat.log2 n : Int) - (Nat.log2 d : Int)
  let m := n * 2 ^ Nat.log2 d
  let k := d * 2 ^ Nat.log2 n
  let z : Int := ((m : Int) - (k : Int)) * one60 / ((m + k : Nat) : Int)
  e * ln2u60 + 2 * atanhTerms (z * z / one60) 40 0 z

end Sys2Proof.Machine
end

