-- ==== Sys2Proof/Machine/Angles.lean ====
section
/-!
DEFINITION. The axis angle at a device time, as the shot journal records it (R295).
-/
namespace Sys2Proof.Machine

/-- The loop state of axis a. -/
def State.axis (s : State) (a : Nat) : Axis := s.axs.getD a Axis.reset

/-- The loop state of axis a replaced. -/
def State.setAxis (s : State) (a : Nat) (x : Axis) : State :=
  if h : a < 4 then { s with axs := s.axs.set a x h } else s

/-- The phase over a span of device time, from its first tick on (R291). -/
def Span.at (b : Span) (t : Nat) : Nat := b.phase + (t - b.t) * b.ftw

/-- The phase advanced to a device time, cycles included; before the present span it is that of the span which held the time, and it stands
between two spans and while the axis is disabled (R291). -/
def State.phaseSum (s : State) (a t : Nat) : Nat :=
  let x := s.axis a
  if x.phaseAt ≤ t then (if x.running then x.phase + (t - x.phaseAt) * s.get (F.AXS_FTW_FTW a) else x.phase)
  else match x.spans.find? fun b => b.t ≤ t with
    | some b => b.at (min t b.stop)
    | none => (x.spans.getLast?.map (·.phase)).getD x.phase

/-- The resonant phase at a device time (R291). -/
def State.phaseAt (s : State) (a t : Nat) : Nat := s.phaseSum a t % 2 ^ 32

/-- I and Q of the latest cycle completed before a time in subticks (R295) (open points: DEDUCED, log 105). -/
def Axis.iqAt (x : Axis) (tf : Nat) : Int × Int := match x.iqPast.find? fun p => tf ≤ 16 * p.1 with
  | some p => p.2
  | none => x.iq

/-- The angle of axis a at t_fire, in subticks, by its enable, mode and period then (R295): a disabled axis reads 0 (open points: DEDUCED,
log 33). -/
def State.axisAngle (s : State) (a tFire : Nat) : Int :=
  let x := s.axis a
  if !s.isAt (F.AXS_CTRL_EN a) tFire then 0
  else if s.isAt (F.AXS_CTRL_MODE a) tFire then
    let p := s.phaseAt a (tFire / 16)
    let iq := x.iqAt tFire
    satInt 24 (roundDiv (iq.1 * cosPhase p + iq.2 * sinPhase p) (65536 * one60))
  else
    match x.samples.filter fun m => 16 * m.avail ≤ tFire with
    | m :: n :: _ =>
      let span : Int := (256 * s.getAt (F.AXS_TIME_PERIOD a) tFire : Nat)
      let dt : Int := (tFire : Int) - (16 * m.t : Nat)
      satInt 24 (m.y + (if span = 0 then 0 else roundDiv ((m.y - n.y) * dt) span))
    | m :: _ => satInt 24 m.y
    | [] => 0

end Sys2Proof.Machine
end

