-- ==== Sys2Proof/Machine/Pool.lean ====
section
/-!
DEFINITION. The context pool: headers, changes of a context, occupancy and queue skip, and the hand-on of records to the
stream buffers with its acceptance.
-/
namespace Sys2Proof.Machine

/-! ### Headers -/

/-- The state code of a header (R137). -/
def CtxState.code : CtxState → Nat
  | .open => 1
  | .zoom => 2
  | .closed => 3
  | .work => 4
  | .retained => 5
  | .reacq => 6

/-- The header of a context (R141). -/
def Ctx.header (c : Ctx) : List Byte :=
  leBytes 2 c.frame ++ leBytes 2 c.column ++ leBytes 2 c.pixrow ++ leBytes 2 c.emitter
  ++ leBytes 2 (c.chan + 512 * c.merge) ++ leBytes 1 c.nshot ++ leBytes 1 c.slots ++ leBytes 1 c.fired
  ++ leBytes 1 c.fshots ++ leBytes 1 c.pstart ++ leBytes 1 c.state.code
  ++ leBytes 1 (b01 c.binsat + 2 * b01 c.skip + 4 * b01 c.startPred + 8 * b01 c.stale + 16 * b01 c.prov
      + 32 * b01 c.satb + 64 * b01 c.nsat + 128 * b01 c.replayed)
  ++ leBytes 1 (b01 c.lost + 2 * b01 c.partialTaken + 4 * b01 c.late)
  ++ leBytes 1 (c.binw + 4 * c.nwin + 32 * c.nplaced) ++ leBytes 1 (c.k + 16 * c.map)
  ++ leBytes 2 c.origin ++ leBytes 2 (if c.nbin = 2048 then 0x1000 else c.nbin) ++ leBytes 8 c.t0
  ++ (List.range 4).flatMap (fun i => leBytes 4 (c.wstart.getD i 0))
  ++ leBytes 4 c.evtot ++ leBytes 2 c.evout ++ leBytes 2 c.prec ++ leBytes 2 c.pile ++ leBytes 2 c.jidx
  ++ leBytes 4 0

/-- The BAR2 offset of a context slot (R139). -/
def slotBase (slot : Nat) : Nat := 0x8000000 + 0xEC0 * slot

/-- A context's header written to its slot (two whole words). -/
def State.putHeader (s : State) (c : Ctx) : State := s.store (slotBase c.slot) c.header

/-- A range of memory cleared to zeros with fresh check symbols. -/
def State.clearRange (s : State) (a n : Nat) : State :=
  { s with
    mem := s.mem.filter fun e => !(a ≤ e.1 && e.1 < a + n)
    synd := s.synd.filter fun e => !(a ≤ 32 * e.1 && 32 * e.1 < a + n) }

/-! ### Contexts -/

/-- The context with an identity. -/
def State.ctx? (s : State) (id : Nat) : Option Ctx := s.pool.ctxs.find? fun c => c.id = id

/-- The context in a slot of the pool; none when the slot is FREE. -/
def State.ctxAt? (s : State) (slot : Nat) : Option Ctx := s.pool.ctxs.find? fun c => c.slot = slot

/-- A context's slot holds its snapshot (R546) (open points: DEDUCED, log 40). -/
def CtxState.snapshot (x : CtxState) : Bool := x = .closed || x = .work || x = .retained

/-- The STATE byte of a slot's header changed from one code to another, with the check symbols that the change makes: an error in the word stays
(R137, R546) (open points: DEDUCED, log 40). -/
def State.restate (s : State) (slot old new : Nat) : State :=
  if old = new then s
  else s.setByte (slotBase slot + 15) (s.byte (slotBase slot + 15) ^^^ BitVec.ofNat 8 old ^^^ BitVec.ofNat 8 new)

/-- A context replaced. Its header follows while it gathers; from its close on the slot is a snapshot, of which the life cycle moves STATE alone
(R138, R546) (open points: DEDUCED, log 40). -/
def State.putCtx (s : State) (c : Ctx) : State :=
  let t := { s with pool := { s.pool with ctxs := s.pool.ctxs.map fun (d : Ctx) => if d.id = c.id then c else d } }
  match s.ctx? c.id with
  | some d => if d.state.snapshot && c.state.snapshot then t.restate c.slot d.state.code c.state.code else t.putHeader c
  | none => t

/-- A context changed. -/
def State.modCtx (s : State) (id : Nat) (f : Ctx → Ctx) : State :=
  match s.ctx? id with
  | some c => s.putCtx (f c)
  | none => s

/-- A context accumulates live shots (R137). -/
def Ctx.live (c : Ctx) : Bool := c.state = .open || c.state = .zoom

/-- The early tap of a context is still ahead (R154, R191). -/
def Ctx.tapped (c : Ctx) : Bool := c.live && c.early && !c.partialTaken && c.fired < c.eshots

/-- The live contexts of an emitter that still take slots (R131, R134) (open points: DEDUCED, log 39). -/
def State.openOf (s : State) (e : Nat) : List Ctx :=
  s.pool.ctxs.filter fun c => c.live && c.emitter = e && !c.closing

/-- INUSE, PEAK and the queue skip follow the number of slots in use (R171) (open points: DESIGN CHOICE, log 107). -/
def State.showUse (s : State) : State :=
  let n := s.pool.ctxs.length
  let s := (s.put F.CTX_STAT_INUSE n).put F.CTX_PEAK_PEAK (max (s.get F.CTX_PEAK_PEAK) n)
  if s.is F.CTX_STAT_QSKIP then
    if n ≤ s.get F.CTX_HWM_LOW then (s.put F.CTX_STAT_QSKIP 0).event 13 else s
  else if s.get F.CTX_HWM_HIGH ≤ n then (s.put F.CTX_STAT_QSKIP 1).event 13 else s

/-- FLT_STAT.REACQ counts the contexts in REACQ. -/
def State.showReacq (s : State) : State :=
  s.put F.FLT_STAT_REACQ (s.pool.ctxs.filter fun c => c.state = .reacq).length

/-- DEC_STAT.HELD and SEQ_BANK.PHELD: a context still latches a set or a PE bank that is not in force (R198, R366). -/
def State.showHeld (s : State) : State :=
  (s.putB F.DEC_STAT_HELD (s.pool.ctxs.any fun c => match c.set with
    | some x => x ≠ s.get F.DEC_STAT_CUR
    | none => false)).putB F.SEQ_BANK_PHELD (s.pool.ctxs.any fun c => c.bank ≠ s.get F.SEQ_BANK_PCUR)

/-- A context becomes FREE: its slot returns to the pool (R138). -/
def State.freeCtx (s : State) (id : Nat) : State :=
  match s.ctx? id with
  | some c =>
    ({ s with pool := { s.pool with ctxs := s.pool.ctxs.filter fun (d : Ctx) => d.id ≠ id } }.restate c.slot c.state.code 0).showUse.showHeld
  | none => s

/-- A lowest free slot of the pool. -/
def State.freeSlot (s : State) : Option Nat :=
  (List.range 32768).find? fun n => s.pool.ctxs.all fun c => c.slot ≠ n

/-! ### Records on their way to the link -/

/-- One record of a context is accepted by the link; a RETAINED context whose every record is accepted becomes FREE (R138,
R468) (open points: DEDUCED, log 95). -/
def State.acceptFor (s : State) (id : Nat) : State :=
  match s.ctx? id with
  | some c =>
    let s := s.putCtx { c with owed := c.owed - 1 }
    if c.state = .retained && c.owed ≤ 1 then s.freeCtx id else s
  | none => s

/-- An item is accepted (R412, R468). -/
def State.accept (s : State) (it : Item) : State :=
  match it.ctx with
  | some id => s.acceptFor id
  | none => s

/-- Sizes of the own stream buffers (R471). -/
def bufSize (vc : Nat) : Nat :=
  if vc = 0 then 1048576 else if vc = 1 then 65536 else if vc = 2 then 65536 else 262144

/-- The items of a channel that wait for the link: in its buffer, then in its stream jobs (DEDUCED, log 15). -/
def State.bufItems (s : State) (vc : Nat) : List Item :=
  (s.stl.jobs.getD vc []).flatMap (fun j => j.items) ++ s.stl.bufs.getD vc []

/-- Bytes held for a channel (open points: DEDUCED, log 15). -/
def State.bufBytes (s : State) (vc : Nat) : Nat := ((s.bufItems vc).map fun i => i.data.length).sum

/-- A buffer's words that items fill were written whole: no error of the unused word is left in them (R38, R544). -/
def State.filled (s : State) (vc : Nat) : State :=
  let n := (s.bufItems vc).length
  { s with stl := { s.stl with unused := s.stl.unused.setIfInBounds vc ((s.stl.unused.getD vc []).filter fun e => n ≤ e.1) } }

/-- STL_BUFv shows the bytes held (open points: DEDUCED, log 80). -/
def State.showBuf (s : State) (vc : Nat) : State := (s.filled vc).put (F.STL_BUF_BYTES vc) (s.bufBytes vc)

/-- A cause discarded traffic on a channel in the running window (R473) (open points: DEDUCED, log 95). -/
def State.lose (s : State) (cause vc src frames items : Nat) : State :=
  let same : Loss → Bool := fun l => l.cause = cause && l.vc = vc
  let more : Loss → Loss := fun l =>
    { l with src := src, frames := l.frames + frames, items := l.items + items, last := s.dt }
  let losses :=
    if s.stl.losses.any same then modFirst same more s.stl.losses
    else s.stl.losses ++ [⟨cause, vc, src, frames, items, s.dt, s.dt⟩]
  { s with stl := { s.stl with losses := losses } }

/-- PRS_SCFG of a channel: VC0 or VC3 (R411). -/
def scfgOff (vc : Nat) : Nat := if vc = 0 then 0x50010 else 0x50014

/-- SINMAX of a stream job's configuration, in bytes (R424). -/
def Job.sinmax (j : Job) : Nat := 32 * bits j.cfg.toNat 8 10

/-- Input bytes of a stream job. -/
def Job.bytes (j : Job) : Nat := (j.items.map fun i => i.data.length).sum

/-- Whether a job still takes records. -/
def Job.isOpen (j : Job) : Bool := match j.state with
  | .open _ => true
  | _ => false

/-- A job with one more item, closed where R424 closes it (open points: DEDUCED, log 77). -/
def Job.take (j : Job) (it : Item) : Job :=
  let j := { j with items := j.items ++ [it] }
  if j.sinmax ≤ j.bytes || it.skipmark then { j with state := .closed } else j

/-- A stream job takes an item (R412, R424): the open job while the item fits, else a new one (open points: DEDUCED, log 77). -/
def State.jobTake (s : State) (vc : Nat) (it : Item) : State :=
  let js := s.stl.jobs.getD vc []
  let seq := s.stl.jobSeq.getD vc 0
  let fresh : Job := (⟨seq, [], s.reg (scfgOff vc), .open s.dt, 0⟩ : Job).take it
  let (js, seq) := match js.getLast? with
    | some j =>
      if j.isOpen && j.bytes + it.data.length ≤ j.sinmax then (js.dropLast ++ [j.take it], seq)
      else if j.isOpen then (js.dropLast ++ [{ j with state := .closed }, fresh], seq + 1)
      else (js ++ [fresh], seq + 1)
    | none => ([fresh], seq + 1)
  { s with stl := { s.stl with jobs := s.stl.jobs.setIfInBounds vc js, jobSeq := s.stl.jobSeq.setIfInBounds vc seq } }

/-- While a channel is compressed, its records enter stream jobs in buffer order (R411, R412). -/
def State.pressTake (s : State) (vc : Nat) : State :=
  if (vc = 0 || vc = 3) && (s.reg (scfgOff vc)).getLsbD 0 then
    let items := s.stl.bufs.getD vc []
    items.foldl (fun s it => s.jobTake vc it) { s with stl := { s.stl with bufs := s.stl.bufs.setIfInBounds vc [] } }
  else s

/-- An item enters a stream buffer. -/
def State.enterBuf (s : State) (vc : Nat) (it : Item) : State :=
  let b := s.stl.bufs.getD vc [] ++ [it]
  ({ s with stl := { s.stl with bufs := s.stl.bufs.setIfInBounds vc b } }.pressTake vc).showBuf vc

/-- The transmit port is ACTIVE, electrical idle included (R470, R472, R449). -/
def State.txActive (s : State) : Bool := s.get F.STL_STAT_TXST ≠ 0

/-- Whether a channel has room for n more bytes (open points: DEDUCED, log 15; DEDUCED, log 95). -/
def State.hasRoom (s : State) (vc n : Nat) : Bool := s.bufBytes vc + n ≤ bufSize vc

/-- A record is handed to a stream buffer: it enters where there is room; a full buffer holds it back while the port is
ACTIVE, and else it is dropped, which counts as accepted (R470, R472) (open points: DEDUCED, log 95). -/
def State.handOn (s : State) (vc : Nat) (it : Item) : State :=
  let it := { it with entered := s.dt }
  let h := s.stl.held.getD vc []
  if h.isEmpty && s.hasRoom vc it.data.length then s.enterBuf vc it
  else if s.txActive then { s with stl := { s.stl with held := s.stl.held.setIfInBounds vc (h ++ [it]) } }
  else ((s.count (F.STL_CNT_COUNT 7)).lose 1 vc 0xFFF 0 1).accept it

/-- The running statistics of a frame changed, made where the frame has none (PNT_FSTAT) (open points: DEDUCED, log 49). -/
def State.stat (s : State) (frame : Nat) (f : FStat → FStat) : State :=
  let mine : FStat → Bool := fun x => x.frame = frame
  let l := if s.pnt.stats.any mine then s.pnt.stats else s.pnt.stats ++ [⟨frame, 0, 0, 0, 0⟩]
  { s with pnt := { s.pnt with stats := modFirst mine f l } }

/-- Whether a context keeps its frame from being complete (PNT_FSTAT) (open points: DEDUCED, log 49). -/
def Ctx.keepsFrame (c : Ctx) : Bool := c.state ≠ .retained

/-- The oldest frame that is complete: not the present one, and no context of it is short of RETAINED; its statistics are
latched together, with the vector 12 event (PNT_FSTAT, R508) (open points: DEDUCED, log 49). -/
def State.latchFrame (s : State) : State :=
  match s.pnt.stats.find? fun x =>
      x.frame ≠ s.pool.frame && s.pool.ctxs.all fun c => c.frame ≠ x.frame || !c.keepsFrame with
  | some x =>
    let s := { s with pnt := { s.pnt with stats := dropFirst (fun y => y.frame = x.frame) s.pnt.stats } }
    (((((s.put (F.PNT_FSTAT_VALUE 0) x.frame).put (F.PNT_FSTAT_VALUE 1) x.pixels).put (F.PNT_FSTAT_VALUE 2) x.points).put
      (F.PNT_FSTAT_VALUE 3) x.notOpened).put (F.PNT_FSTAT_VALUE 4) x.overrun).event 12
  | none => s

/-- A plain record of no context. -/
def Item.of (data : List Byte) : Item := ⟨data, none, 0, 0, 0#32, false, false, false⟩

/-- The item of a SKIPMARK (R211). -/
def skipItem (map frame column emitter nctx t : Nat) : Item :=
  { Item.of (leBytes 1 7 ++ leBytes 1 map ++ leBytes 2 frame ++ leBytes 2 column ++ leBytes 2 0
    ++ leBytes 2 emitter ++ leBytes 2 nctx ++ leBytes 16 0 ++ leBytes 4 t) with skipmark := true }

/-- A SKIPMARK that waits behind the point records handed on before it (R173). -/
def markRec (it : Item) : ZRec where
  kind := .mark
  vc := 0
  item := it
  frame := 0
  column := 0
  pixrow := 0
  range := 0
  spec := 0
  tstamp := 0
  last := false
  untested := true

/-- A SKIPMARK is emitted on VC0, in its order among the point records: behind those that the zone monitor still has to hand on (R173, R211,
R224) (open points: DEDUCED, log 39; DEDUCED, log 94). -/
def State.skipMark (s : State) (map frame column emitter nctx t : Nat) : State :=
  let s := s.stat frame fun x => { x with notOpened := x.notOpened + nctx }
  let it := skipItem map frame column emitter nctx t
  if s.pnt.zoneQ.any fun z => z.vc = 0 then { s with pnt := { s.pnt with zoneQ := s.pnt.zoneQ ++ [markRec it] } }
  else s.handOn 0 it

end Sys2Proof.Machine
end

