-- ==== Sys2Proof/Machine/Tables.lean ====
section
/-!
DEFINITION. Calibration records and their use: tap positions, walk and range zero of a timing path, tables that wait for a
shot boundary (R24, R98), the qualifying events of code density (R237) and the walk probes (R247, R248).
-/
namespace Sys2Proof.Machine

/-! ### Records -/

/-- Record numbers of the timing paths (R253). -/
def pathNum : Path → Nat
  | .ret ch => ch.val
  | .spare k => 512 + k.val
  | .start s => 528 + s.val
  | .stcs => 532

/-- The BAR2 offset of a calibration record (R253). -/
def recBase (i : Nat) : Nat := 0xA00000 + 0x200 * i

/-- The VALID byte of a record; an uncorrectable word makes it invalid (R543). -/
def State.recValid (s : State) (i : Nat) : Nat := (s.table (recBase i + 16) 1).getD 0

/-- A path holds a fine table (R242). -/
def State.hasFine (s : State) (i : Nat) : Bool := bit (s.recValid i) 0

/-- The tap position T[f] of a path in 1/16 LSB; without a fine table, the nominal table (R239, R242). -/
def State.tapPos (s : State) (i f : Nat) : Nat :=
  if s.hasFine i then (s.table (recBase i + 32 + 2 * f) 2).getD (16 * f + 8) else 16 * f + 8

/-- A path's record is stale, or its table is the nominal one (R242, R258). -/
def State.pathStale (s : State) (i : Nat) : Bool := s.cal.stale.contains i || (528 ≤ i && !s.hasFine i)

/-- RET_STAT.STALE shows a return channel's staleness. -/
def State.setStale (s : State) (i : Nat) (b : Bool) : State :=
  let stale := if b then (if s.cal.stale.contains i then s.cal.stale else s.cal.stale ++ [i]) else s.cal.stale.filter (· ≠ i)
  let s := { s with cal := { s.cal with stale := stale } }
  if i < 512 then s.putB (F.RET_STAT_STALE i) b else s

/-- A path's recalibration is queued once (R262) (open points: DEDUCED, log 55). -/
def State.queueRecal (s : State) (i : Nat) : State :=
  if s.cal.queue.contains i then s else { s with cal := { s.cal with queue := s.cal.queue ++ [i] } }

/-- A path's recalibration leaves the queue. -/
def State.unqueue (s : State) (i : Nat) : State :=
  { s with cal := { s.cal with queue := s.cal.queue.filter (· ≠ i) } }

/-- A path that collects only while it recalibrates: a start path, or a spare without an owner (R238, R262). -/
def State.collectsOnRequest (s : State) (i : Nat) : Bool := 528 ≤ i || (512 ≤ i && s.get (F.RGP_SPC_OWNER (i - 512)) = 0)

/-- A recalibration of a path runs: a spare's or STCS's in shadow, or a start channel's (R263, R265). -/
def State.recalRuns (s : State) (i : Nat) : Bool :=
  s.cal.shadow.any (fun p => p.1 = i) || match s.cal.stcal with
    | some c => 528 + c.st = i
    | none => false

/-- A path's record is found stale: its recalibration is queued where it does not collect in service. One that runs then and adopts takes it
from the queue; one that has adopted already, or is abandoned, leaves it there (R262)
(open points: DEDUCED, log 55; DEDUCED, log 91). -/
def State.foundStale (s : State) (i : Nat) : State :=
  let s := s.setStale i true
  if s.collectsOnRequest i then s.queueRecal i else s

/-- A read of n bytes of a record: corrected, or a detection, which makes its path stale (R37, R40, R543). -/
def State.recTouch (s : State) (i o n : Nat) : State :=
  let t := s.touchRange (recBase i + o) n
  if s.rangeOk (recBase i + o) n then t else t.foundStale i

/-- CAL_STAT.NFULL counts the channels that are FULL. -/
def State.showFull (s : State) : State :=
  s.put F.CAL_STAT_NFULL ((List.range 512).filter fun ch => s.get (F.RET_STAT_CALST ch) = 1).length

/-- RET_STAT.CALST of a channel, with the vector 15 event where it changes (R260, R508). -/
def State.setCalst (s : State) (ch v : Nat) : State :=
  if s.get (F.RET_STAT_CALST ch) = v then s
  else ((s.put (F.RET_STAT_CALST ch) v).showFull).event 15

/-- The emission delay E_n in 1/256 LSB, where it is valid (R251, R255) (open points: DEDUCED, log 57). -/
def State.emDelay (s : State) (n : Nat) : Option Int :=
  match s.table (0xA50020 + 8 * n) 5 with
  | some v => if bit v 32 then some (sint 32 v) else none
  | none => none

/-! ### Shot boundaries -/

/-- No gate of a channel is open (R98) (open points: DEDUCED, log 35). -/
def State.noGate (s : State) (ch : Nat) : Bool := s.ret.gates.all fun g => g.ch ≠ ch || g.closed

/-- The channel whose shot boundaries are a path's: its own, a spare's target, none for an idle spare or a start path
(open points: DEDUCED, log 51). -/
def State.boundaryOf (s : State) (i : Nat) : Option Nat :=
  if i < 512 then some i
  else if i < 528 && s.get (F.RGP_SPC_OWNER (i - 512)) ≠ 0 then some (32 * (i - 512) + s.get (F.RGP_SPC_TARGET (i - 512)))
  else none

/-- A record's temperature differs from the die's by more than TSTEP (R258) (open points: DEDUCED, log 56). -/
def State.tempStale (s : State) (temp : Nat) : Bool :=
  s.get F.CAL_CFG_TSTEP < (sint 16 temp - sint 16 (s.get F.CAL_TEMP_TEMP)).natAbs

/-- One part of a table written to its record. The VALID byte gains bits, so its word is read first, and one that cannot be read is left as it
is; gaining bit 0 is a fine table taken: staleness is judged anew, a channel is FULL, a spare is READY (R37, R40, R241, R242, R258, R260)
(open points: DEDUCED, log 51). -/
def State.writePart (s : State) (i off : Nat) (bs : List Byte) : State :=
  if off = 16 then
    let ok := s.wordOk ((recBase i + 16) / 32)
    let s := s.recTouch i 16 1
    if !ok then s else
    let s := s.store (recBase i + 16) (leBytes 1 (s.num (recBase i + 16) 1 ||| leNat bs))
    if bit (leNat bs) 0 then
      let s := s.setStale i (s.tempStale (s.num (recBase i + 4) 2))
      if i < 512 then s.setCalst i 1
      else if i < 528 then s.put (F.RGP_SPC_READY (i - 512)) 1
      else s
    else s
  else s.store (recBase i + off) bs

/-- The tables that a path waits to take, taken (R24) (open points: DEDUCED, log 51). -/
def State.takeTables (s : State) (i : Nat) : State :=
  let mine := s.cal.pending.filter fun p => p.1 = i
  let rest := s.cal.pending.filter fun p => p.1 ≠ i
  mine.foldl (fun s p => s.writePart p.1 p.2.1 p.2.2) { s with cal := { s.cal with pending := rest } }

/-- Parts of a table adopted for a path: they take effect at its next shot boundary, which is now while no gate is open (R24,
R98) (open points: DEDUCED, log 51). -/
def State.adoptParts (s : State) (i : Nat) (parts : List (Nat × List Byte)) : State :=
  let s := { s with cal := { s.cal with pending := s.cal.pending ++ parts.map fun (p : Nat × List Byte) => (i, p.1, p.2) } }
  match s.boundaryOf i with
  | some ch => if s.noGate ch then s.takeTables i else s
  | none => s.takeTables i

/-- What is in force of a channel's setting: the register's value, or the older one that a boundary still holds (R98)
(open points: DEDUCED, log 35). -/
def State.inForce (s : State) (ch what now : Nat) : Nat :=
  let v := FMap.nat s.ret.inForce (4 * ch + what)
  if v = 0 then now else v - 1

/-- A channel's setting is about to change from its old register value: it stays in force until the boundary (R98, R166)
(open points: DEDUCED, log 35). -/
def State.holdOld (s : State) (ch what old : Nat) : State :=
  if s.noGate ch || FMap.nat s.ret.inForce (4 * ch + what) ≠ 0 then s
  else { s with ret := { s.ret with inForce := FMap.setNat s.ret.inForce (4 * ch + what) (old + 1) } }

/-- A channel's shot boundary: pending thresholds, slope, coincidence settings and tables take effect, the tables of the spare
that serves it with them (R24, R98, R166) (open points: DEDUCED, log 35). -/
def State.boundary (s : State) (ch : Nat) : State :=
  let f := (List.range 4).foldl (fun m w => FMap.setNat m (4 * ch + w) 0) s.ret.inForce
  let s := { s with ret := { s.ret with inForce := f } }.takeTables ch
  let k := ch / 32
  if s.get (F.RGP_SPC_OWNER k) ≠ 0 && s.get (F.RGP_SPC_TARGET k) = ch % 32 then s.takeTables (512 + k) else s

/-- LCODE or HCODE of a channel set, in force at its boundary (open points: DESIGN CHOICE, log 52). -/
def State.setLcode (s : State) (ch v : Nat) : State :=
  (s.holdOld ch 1 (s.get (F.RET_THR_LCODE ch))).put (F.RET_THR_LCODE ch) v

/-- CAL_STAT.SWEEP while a sweep runs. -/
def State.showSweep (s : State) : State := s.putB F.CAL_STAT_SWEEP (!s.cal.sweeps.isEmpty)

/-- A channel's sweep set or ended. -/
def State.setSweep (s : State) (ch : Nat) (w : Option Sweep) : State :=
  { s with cal := { s.cal with sweeps := FMap.set (fun _ => none) s.cal.sweeps ch w } }.showSweep

/-- A channel has valid threshold data. -/
def State.hasThr (s : State) (ch : Nat) : Bool := bit (s.recValid ch) 1

/-- A channel starts its sweep where R244 calls for it: TAUTO set, no valid threshold data, no sweep in progress
(open points: DEDUCED, log 53). -/
def State.startSweep (s : State) (ch : Nat) : State :=
  match FMap.get (fun _ => none) s.cal.sweeps ch with
  | some _ => s
  | none =>
    if !s.is (F.RET_CFG_TAUTO ch) then s
    else
      let s := s.recTouch ch 16 1
      if s.hasThr ch then s else (s.setSweep ch (some ⟨0, 0, 0, 0, []⟩)).setLcode ch 0

/-- The sweep follows TAUTO: it starts where it is called for and the DLL is locked, and ends with TAUTO 0 (R244, R246)
(open points: DEDUCED, log 53). -/
def State.sweepFollow (s : State) (ch : Nat) : State :=
  if !s.is (F.RET_CFG_TAUTO ch) then s.setSweep ch none
  else if bit (s.get F.RGP_DLL_LOCK) (ch / 32) then s.startSweep ch
  else s

/-! ### Code density -/

/-- An event qualifies by its own fields (R237). -/
def State.qualifies (s : State) (e : Ev) : Bool :=
  e.stamp.fine && !e.hit && e.tot ≤ s.get F.CAL_CFG_TOTX && !e.satb && !e.nsat

/-- The events that a path gathers: 160,000 for a trim pass, else the 640,000 of a candidate (R239, R267). -/
def State.tapLimit (s : State) (i : Nat) : Nat :=
  if s.cal.trimming.any fun c => c.ch = i && !c.final then 160000 else 640000

/-- One more count of tap f of a path, up to its limit. -/
def State.tapCount (s : State) (i f : Nat) : State :=
  if s.tapLimit i ≤ FMap.nat s.cal.total i then s
  else
    let k := 64 * i + f
    { s with cal := { s.cal with
        taps := FMap.setNat s.cal.taps k (FMap.nat s.cal.taps k + 1)
        total := FMap.setNat s.cal.total i (FMap.nat s.cal.total i + 1) } }

/-- A path's tap counts cleared. -/
def State.clearTaps (s : State) (i : Nat) : State :=
  { s with cal := { s.cal with
      taps := (List.range 64).foldl (fun m f => FMap.setNat m (64 * i + f) 0) s.cal.taps
      total := FMap.setNat s.cal.total i 0 } }

/-- A qualifying event counts for the path that stamped it (R237, R238). -/
def State.density (s : State) (e : Ev) : State := if s.qualifies e then s.tapCount e.path e.f else s

/-! ### Walk -/

/-- An element inserted into a list in rising order. -/
def insertInt (x : Int) : List Int → List Int
  | [] => [x]
  | y :: ys => if x ≤ y then x :: y :: ys else y :: insertInt x ys

/-- Twice the median of a list: for an even number of elements, the two middle ones added (DESIGN CHOICE, log 17). -/
def median2 (l : List Int) : Int :=
  let t := l.foldr insertInt []
  let n := t.length
  if n % 2 = 1 then 2 * t.getD (n / 2) 0 else t.getD (n / 2 - 1) 0 + t.getD (n / 2) 0

/-- The buffered events of a probe added to the walk sums of its channel (R247); positions in 1/16 LSB, sums in 1/256 LSB
(open points: DESIGN CHOICE, log 17). -/
def State.walkAdd (s : State) (ch : Nat) (evs : List (Int × Nat)) : State :=
  if evs.length < 4 then s
  else
    let m2 := median2 (evs.map (·.1))
    let span : Int := (32 * s.get F.CAL_WALK_SPAN : Nat)
    let keep := evs.filter fun e => -span ≤ 2 * e.1 - m2 && 2 * e.1 - m2 ≤ span
    if keep.length < 4 then s
    else
      let a := roundDiv (16 * (keep.map (·.1)).sum) (keep.length : Nat)
      keep.foldl (fun s e =>
        let k := 64 * ch + min e.2 63
        { s with cal := { s.cal with
            walkS := FMap.set (fun _ => 0) s.cal.walkS k (FMap.get (fun _ => 0) s.cal.walkS k + (16 * e.1 - a))
            walkN := FMap.setNat s.cal.walkN k (FMap.nat s.cal.walkN k + 1) } }) s

/-- The walk value of class c: its mean, or by interpolation between the nearest classes with 64 samples (R248). -/
def walkValue (n : Nat → Nat) (v : Nat → Int) (c : Nat) : Int :=
  if 64 ≤ n c then v c
  else
    let below := (List.range c).reverse.find? fun j => 64 ≤ n j
    let above := ((List.range (63 - c)).map fun j => c + 1 + j).find? fun j => 64 ≤ n j
    match below, above with
    | some a, some b => v a + roundDiv ((v b - v a) * ((c - a : Nat) : Int)) ((b - a : Nat) : Int)
    | some a, none => v a
    | none, some b => v b
    | none, none => 0

/-- A walk table is formed and adopted once the channel has its samples (R248). The spec gives no precision for a mean before v[TREF] is
subtracted: each v[c] is held in 1/256 LSB (open points: DESIGN CHOICE, log 17). -/
def State.walkForm (s : State) (ch : Nat) : State :=
  let n := fun c => FMap.nat s.cal.walkN (64 * ch + c)
  let total := ((List.range 64).map n).sum
  let tref := s.get F.CAL_WALK_TREF
  if total < 4096 * s.get F.CAL_WALK_NUPD || n tref < 64 then s
  else
    let v := fun c => roundDiv (FMap.get (fun _ => 0) s.cal.walkS (64 * ch + c)) (max (n c) 1 : Nat)
    let w := (List.range 64).map fun c => walkValue n v c - walkValue n v tref
    let s := s.adoptParts ch [(160, w.flatMap fun x => leBytes 4 (uint 32 x)), (16, [4#8])]
    let s := s.count (F.CAL_CNT_COUNT 9)
    { s with cal := { s.cal with
        walkS := (List.range 64).foldl (fun m c => FMap.set (fun _ => 0) m (64 * ch + c) 0) s.cal.walkS
        walkN := (List.range 64).foldl (fun m c => FMap.setNat m (64 * ch + c) 0) s.cal.walkN } }

/-- A read of a stamp's tap position: its words are corrected, or detected, first (R37, R40, R543). -/
def State.tapTouch (s : State) (i f : Nat) : State := (s.recTouch i 16 1).recTouch i (32 + 2 * f) 2

/-- A group's probe set. -/
def State.setProbe (s : State) (g : Nat) (p : Option (Nat × List (Int × Nat))) : State :=
  { s with pool := { s.pool with probes := s.pool.probes.setIfInBounds g p } }

/-- The channel whose turn it is in a group, from index i on: the next one that is in service and enabled (DESIGN CHOICE, log 18). -/
def State.probeTurn (s : State) (g i : Nat) : Nat :=
  (((List.range 32).map fun j => (i + j) % 32).find? fun j =>
    s.is (F.RET_CFG_EN (32 * g + j)) && !s.is (F.RET_STAT_OOS (32 * g + j))).getD i

/-- A context that has entered ZOOM and has its windows may become its group's walk probe (R247) (open points: DESIGN CHOICE,
DESIGN CHOICE, log 18). -/
def State.probeStart (s : State) (c : Ctx) : State :=
  let g := c.chan / 32
  match s.pool.probes.getD g none with
  | some _ => s
  | none =>
    if s.is F.CAL_WALK_EN && c.state = .zoom && c.merge = 0 && 1 ≤ c.nplaced && s.probeTurn g (s.pool.probeAt.getD g 0) = c.chan % 32 then
      s.setProbe g (some (c.id, []))
    else s

/-- An event added to window 0 of a probe's context is buffered, up to 64 (R247). -/
def State.probeEvent (s : State) (c : Ctx) (d : Int) (tot : Nat) : State :=
  let g := c.chan / 32
  match s.pool.probes.getD g none with
  | some (id, evs) => if id = c.id && evs.length < 64 then s.setProbe g (some (id, evs ++ [(d, tot)])) else s
  | none => s

/-- A group's probe moves on to the next channel (open points: DESIGN CHOICE, log 18). -/
def State.probeNext (s : State) (g i : Nat) : State :=
  let s := s.setProbe g none
  { s with pool := { s.pool with probeAt := s.pool.probeAt.setIfInBounds g ((i + 1) % 32) } }

/-- At a context's close its probe's events enter the walk sums, and the probe moves on; a context that leaves by REACQ
gives nothing (R247, R613). -/
def State.probeClose (s : State) (c : Ctx) (use : Bool) : State :=
  let g := c.chan / 32
  match s.pool.probes.getD g none with
  | some (id, evs) =>
    if id = c.id then
      let s := s.probeNext g (c.chan % 32)
      if use then (s.walkAdd c.chan evs).walkForm c.chan else s
    else s
  | none => s

end Sys2Proof.Machine
end

