-- ==== Sys2Proof/Machine/Replay.lean ====
section
/-!
DEFINITION. The ends of a context: closing (R135, R136), entry to REACQ with its replay slots (R550, R613), giving up and
completing a replay (R554, R555), processing replay (R547), and what an uncorrectable histogram word does (R543, R544).
-/
namespace Sys2Proof.Machine

/-! ### Resolution records -/

/-- PNT_SPEC.OUTST counts the records not yet resolved (R219) (open points: DEDUCED, log 45). -/
def State.showOutst (s : State) : State :=
  s.put F.PNT_SPEC_OUTST (s.pnt.outstanding.filter fun e => !e.resolved).length

/-- A CONFIRM or WITHDRAW record (R223); its ZFLAG is set when the zone monitor meets it. -/
def resolution (confirm : Bool) (reason range : Nat) (e : Early) : ZRec where
  kind := if confirm then .confirm else .withdraw
  vc := 1
  item := { Item.of (leBytes 1 (if confirm then 3 else 4) ++ leBytes 1 reason ++ leBytes 2 e.spec ++ leBytes 2 e.frame
    ++ leBytes 2 e.column ++ leBytes 2 e.pixrow ++ leBytes 3 range ++ leBytes 1 0 ++ leBytes 14 0 ++ leBytes 4 e.tstamp)
    with ctx := some e.ctx }
  frame := e.frame
  column := e.column
  pixrow := e.pixrow
  range := e.range
  spec := e.spec
  tstamp := e.tstamp
  last := false
  untested := false

/-- The unresolved EARLY records of a context, in ascending CAND order (R221). -/
def State.earliesOf (s : State) (id : Nat) : List Early :=
  let l := s.pnt.outstanding.filter fun e => e.ctx = id && !e.resolved
  (List.range 8).flatMap fun n => l.filter fun e => e.cand = n

/-- Two contexts read the same block with the same emitter. -/
def Ctx.twin (c d : Ctx) : Bool := c.id ≠ d.id && c.emitter = d.emitter && c.chans = d.chans

/-- An EARLY record of a context may still be released: its early tap is ahead, or its copy, pass, block or dispatch goes on (R154, R194,
R217). -/
def State.mayEmit (s : State) (c : Ctx) : Bool :=
  let mine : Disp → Bool := fun d => d.kind = 2 && d.ctx = some c.id
  c.tapped || (s.pool.parts.any fun p => p.ctx.id = c.id)
    || (s.dec.lanes.toList.any fun l => match l with
      | some p => p.kind = .early && p.ctx = c.id
      | none => false)
    || (s.dec.blocks.any fun b => b.kind = .early && b.ctx = c.id)
    || (s.seq.pes.toList.any fun p => p.work.any mine || p.staged.any mine) || s.seq.returned.any mine

/-- A CONFIRM or WITHDRAW. -/
def ZRec.resolves (z : ZRec) : Bool := z.kind = .confirm || z.kind = .withdraw

/-- A context's records wait for an earlier one of the same emitter and block, of an earlier frame: it has early records to resolve, or may
come to have some, or its resolution is itself held (R225). -/
def State.waitsFor (s : State) (c : Ctx) : Bool :=
  s.pool.ctxs.any fun d => c.twin d && d.id < c.id && d.frame ≠ c.frame
    && ((!d.resolved && (!(s.earliesOf d.id).isEmpty || s.mayEmit d))
      || s.pnt.recsHeld.any fun z => z.item.ctx = some d.id && z.resolves)

/-- A record handed on toward the zone monitor and its buffer, or held behind the resolution that it follows; its context owes one more
acceptance (R224, R225). -/
def State.handRec (s : State) (z : ZRec) : State :=
  let wait : Bool := match z.item.ctx.bind s.ctx? with
    | some c => s.waitsFor c || s.pnt.recsHeld.any fun y => y.item.ctx = some c.id
    | none => false
  let s := if wait then { s with pnt := { s.pnt with recsHeld := s.pnt.recsHeld ++ [z] } }
    else { s with pnt := { s.pnt with zoneQ := s.pnt.zoneQ ++ [z] } }
  match z.item.ctx with
  | some id => s.modCtx id fun c => { c with owed := c.owed + 1 }
  | none => s

/-- An outstanding EARLY record resolved into a CONFIRM or a WITHDRAW (R221, R222). -/
def State.resolve (s : State) (confirm : Bool) (reason range : Nat) (e : Early) : State :=
  let mark : Early → Early := fun x => if x.spec = e.spec then { x with resolved := true } else x
  let s := { s with pnt := { s.pnt with outstanding := s.pnt.outstanding.map mark } }.showOutst
  (s.count (F.PNT_CNT_COUNT (if confirm then 2 else 3))).handRec (resolution confirm reason range e)

/-! ### Closing -/

/-- A shot of the context is in progress (R135). -/
def State.shotInProgress (s : State) (id : Nat) : Bool := s.ret.shots.any fun x => x.members.contains id

/-- The gates of a channel that a loss interval, in fine LSB, overlaps (R169). -/
def State.lossGates (s : State) (ch first last : Nat) : List Gate :=
  s.ret.gates.filter fun g => g.ch = ch && 64 * g.opens ≤ last && first < 64 * g.closes

/-- A loss record concerns a context: it covers the channel and has a shot whose gates overlap the interval, complete or not (R169, R170). -/
def State.lossConcerns (s : State) (c : Ctx) (ch first last : Nat) : Bool :=
  c.chans.contains ch && (s.lossGates ch first last).any fun g =>
    s.ret.shots.any fun h => g.slot = some h.slot && h.owners.contains c.id

/-- A loss record that concerns the context is still in a queue (R170). -/
def State.lossPending (s : State) (c : Ctx) : Bool :=
  (s.ret.groups.getD (c.chan / 32) ⟨[], [], false⟩).queue.any fun q => match q with
    | .loss ch first last => s.lossConcerns c ch first last
    | .ev _ => false

/-- A context closes: it joins the tail of the context queue, leaves the shots that it still had, and a partial copy not yet taken up is
dropped (R42, R135 to R138, R155). -/
def State.closeNow (s : State) (c : Ctx) : State :=
  let s := s.probeClose c true
  let s := if c.binsat then s.count (F.CTX_CNT_COUNT 2) else s
  let c := { c with state := .closed, skip := c.skip || c.skipSeen || c.lost, closing := false, placing := false }
  let dropped := (s.pool.parts.filter fun (p : Partial) => p.ctx.id = c.id).length
  let s := (s.putCtx c).countN (F.DEC_CNT_COUNT 2) dropped
  let leave : Shot → Shot := fun x => { x with members := x.members.filter (· ≠ c.id) }
  { s with
    pool := { s.pool with
      queue := s.pool.queue ++ [c.id]
      parts := s.pool.parts.filter fun (p : Partial) => p.ctx.id ≠ c.id }
    ret := { s.ret with shots := s.ret.shots.map leave } }

/-- A context that is to close does so once no shot of it is in progress, except after a loss of time-base lock, and no loss record
concerns it (R135, R170, R542) (open points: DEDUCED, log 39). -/
def State.tryClose (s : State) (id : Nat) : State :=
  match s.ctx? id with
  | some c => if c.closing && (c.atOnce || !s.shotInProgress id) && !s.lossPending c then (s.closeNow c).showReacq else s
  | none => s

/-- A context is to close; a late command or a lost slot marks it (R135, R136) (open points: DEDUCED, log 39). -/
def State.requestClose (s : State) (id : Nat) (marked : Bool) : State :=
  (s.modCtx id fun c => { c with closing := true, skipSeen := c.skipSeen || marked }).tryClose id

/-! ### Acquisition replay -/

/-- A replay is given up: the context closes with the slots it has, SKIP and REPLAYED set (R554). -/
def State.giveUp (s : State) (id : Nat) : State :=
  ((s.modCtx id fun c => { c with replayed := true, replay := [] }).count (F.FLT_CNT_COUNT 6)).requestClose id true

/-- The BAR2 offset of the journal entry of a slot number (R545). -/
def journalBase (slot : Nat) : Nat := 0x2000000 + 32 * (slot % 65536)

/-- The four angles of a journal entry. -/
def State.journalAngles (s : State) (slot : Nat) : List Int :=
  (List.range 4).map fun a => sint 24 (s.num (journalBase slot + 16 + 3 * a) 3)

/-- The journal holds the entry of a slot number: its WRAP matches (R545, R550). -/
def State.hasEntry (s : State) (k : Nat) : Bool := s.num (journalBase k + 14) 2 = k / 65536 % 65536

/-- The first n slot numbers of an emitter among these, as the journal's EMITTER fields give them, and whether every entry on the way
could be read and was still there; each is corrected, or detected, first (R37, R40, R550) (open points: DEDUCED, log 48). -/
def State.journalScan (s : State) (e : Nat) : Nat → List Nat → State × List Nat × Bool
  | 0, _ => (s, [], true)
  | _ + 1, [] => (s, [], true)
  | n + 1, k :: ks =>
    let s := s.touch (journalBase k / 32)
    if !s.wordOk (journalBase k / 32) || !s.hasEntry k then
      let r := s.journalScan e (n + 1) ks
      (r.1, r.2.1, false)
    else if bits (s.num (journalBase k + 8) 2) 0 10 = e then
      let r := s.journalScan e n ks
      (r.1, k :: r.2.1, r.2.2)
    else s.journalScan e (n + 1) ks

/-- The replay slots that a context's known original slots give, each with the angles of the slot before it
(open points: DESIGN CHOICE, log 19). -/
def State.replaySlots (s : State) : List Int → List Nat → List RSlot
  | _, [] => []
  | before, n :: ns =>
    let angles := s.journalAngles n
    ⟨true, sint 11 (s.num (journalBase n + 12) 2), angles, before, none⟩ :: s.replaySlots angles ns

/-- A context cleared as R613 says; PROV where a channel of its block is provisional now. -/
def Ctx.cleared (c : Ctx) (prov : List Nat) : Ctx :=
  { c with
    slots := 0, fired := 0, fshots := 0, pstart := 0, evtot := 0, evout := 0, prec := 0, pile := 0, nplaced := 0, wstart := []
    binsat := false, skip := false, startPred := false, stale := false, prov := !prov.isEmpty, satb := false, nsat := false
    replayed := false, lost := false, partialTaken := false, late := false, provChans := prov, skipSeen := false
    closing := false, placing := false, planned := [], placedAt := none, earlyRun := false, reprocess := false, inflight := [], clipped := []
    atOnce := false, view := ⟨0, 0, 0, false, false, false, false, !prov.isEmpty⟩ }

/-- The channels of a block that are in PROVISIONAL service: without a fine table (R147, R260). -/
def State.provOf (s : State) (chans : List Nat) : List Nat := chans.filter fun ch => s.get (F.RET_STAT_CALST ch) ≠ 1

/-- The passes, blocks and dispatches of a context are void: it has entered REACQ (R138, R550) (open points: DEDUCED, log 48). -/
def State.cancelWork (s : State) (id : Nat) : State :=
  let lanes := s.dec.lanes.map fun (p : Option Pass) => match p with
    | some x => if x.ctx = id then none else some x
    | none => none
  let busy := ((List.range 16).map fun l => if (lanes.getD l none).isSome then 2 ^ l else 0).sum
  let drop : Disp → Disp := fun x => if x.ctx = some id then { x with ctx := none } else x
  let s := { s with
    dec := ⟨lanes, s.dec.blocks.filter fun (b : Block) => b.ctx ≠ id⟩
    seq := { s.seq with
      pes := s.seq.pes.map fun (p : Pe) => { p with work := p.work.map drop, staged := p.staged.filter fun x => x.ctx ≠ some id }
      returned := s.seq.returned.filter fun (x : Disp) => x.ctx ≠ some id
      ended := s.seq.ended.filter fun (x : Ended) => x.ctx ≠ id } }
  s.put F.DEC_LANE_BUSY busy

/-- Entry to REACQ (R138, R222, R550, R613). Slots of the context that have not happened yet have no original (DESIGN CHOICE, log 19). -/
def State.enterReacq (s : State) (id : Nat) : State :=
  match s.ctx? id with
  | none => s
  | some c =>
    if !(c.live || c.state = .closed || c.state = .work) then s
    else
      let s := (s.earliesOf id).foldl (fun s e => s.resolve false 3 0 e) s
      let s := s.count (F.FLT_CNT_COUNT 4)
      let s := s.probeClose c false
      let first := c.first.getD s.emi.slots
      let found := s.journalScan c.emitter (min c.given c.nshot) ((List.range (s.emi.slots - first)).map (first + ·))
      let s := found.1
      let known := found.2.1
      let room := ((s.pool.ctxs.map fun d => d.replay.length).sum + c.nshot) ≤ 32768
      let slots := s.replaySlots c.before known
        ++ List.replicate (c.nshot - known.length) ⟨false, 0, [0, 0, 0, 0], [0, 0, 0, 0], none⟩
      let leave : Shot → Shot := fun x => { x with members := x.members.filter (· ≠ id), owners := x.owners.filter (· ≠ id) }
      let s := { s with
        pool := { s.pool with
          queue := s.pool.queue.filter (· ≠ id)
          parts := s.pool.parts.filter fun (p : Partial) => p.ctx.id ≠ id }
        ret := { s.ret with shots := s.ret.shots.map leave } }.cancelWork id
      let s := s.clearRange (slotBase c.slot + 64) (0xEC0 - 64)
      let c := (((s.ctx? id).getD c).cleared (s.provOf c.chans))
      let s := s.putCtx { c with
        state := .reacq, replay := slots, reacqAt := s.dt, angtol := s.get F.FLT_RCFG_ANGTOL }
      let s := s.showReacq
      if found.2.2 && room && known.length = min c.given c.nshot then s else s.giveUp id

/-! ### Processing replay -/

/-- A pixel goes to processing replay: its context returns to CLOSED and is served first (R547) (open points: DEDUCED, log 48). -/
def State.toReplay (s : State) (id : Nat) : State :=
  match s.ctx? id with
  | some c =>
    if c.state = .work || c.state = .retained then
      let s := s.putCtx { c with state := .closed, reprocess := true }
      { s with pool := { s.pool with queue := s.pool.queue ++ [id] } }.count (F.FLT_CNT_COUNT 3)
    else s
  | none => s

/-! ### Reads of protected words with their outcome -/

/-- A word without live data rewritten as zeros (R544) (open points: DEDUCED, log 40). -/
def State.rewrite (s : State) (w : Nat) : State := s.clearRange (32 * w) 32

/-- A read of word w, with the outcome of R543 and R544 for histogram memory and the journal; for the other memories the outcome
is the reader's (open points: DEDUCED, log 40). -/
def State.readWord (s : State) (w : Nat) : State :=
  if s.wordOk w then s.touch w
  else
    let a := 32 * w
    match memIndex a with
    | some 0 =>
      match s.ctxAt? ((a - 0x8000000) / 0xEC0) with
      | some c =>
        if c.live || c.state = .closed || c.state = .work then (s.uncorrectable w true 1).enterReacq c.id
        else s.uncorrectable w false 0
      | none => (s.uncorrectable w false 0).rewrite w
    | some 5 => if s.emi.slots ≤ (a - 0x2000000) / 32 then (s.uncorrectable w false 0).rewrite w else s.uncorrectable w false 0
    | _ => s.uncorrectable w false 0

/-- A read of a range with its outcomes (open points: DEDUCED, log 40). -/
def State.readRange (s : State) (a n : Nat) : State := (wordsOf a n).foldl State.readWord s

end Sys2Proof.Machine
end

