-- ==== Sys2Proof/Machine/Slots.lean ====
section
/-!
DEFINITION. The timed command queue, fire slots with their skip reasons and journal entries, rows and blanking, the fire budget,
late commands (02_emission.md, R29 to R31, R134, R160, R545, R551, R611).
-/
namespace Sys2Proof.Machine

/-! ### The timed command queue -/

/-- The device time of a command in subticks. -/
def TCmd.due (c : TCmd) : Nat := 16 * c.tc + c.sub

/-- What a command was before a parity error struck it (R535). -/
def TKind.plain : TKind → TKind
  | .parity k => k.plain
  | k => k

/-- The map that a MAP command names; it stays outstanding until it acts or is discarded, struck or not (R161, R535). -/
def TCmd.mapNamed (c : TCmd) : Option Nat := match c.kind.plain with
  | .map m => some m
  | _ => none

/-- SEQ_STAT and CTX_MAPSEL follow the queue (R31, R161). -/
def State.showQ (s : State) : State :=
  let n := s.emi.tq.length
  let s := (s.put F.SEQ_STAT_QLEVEL n).putB F.SEQ_STAT_QFULL (512 ≤ n)
  match (s.emi.tq.filterMap TCmd.mapNamed).getLast? with
  | some m => (s.put F.CTX_MAPSEL_PENDV 1).put F.CTX_MAPSEL_PEND m
  | none => (s.put F.CTX_MAPSEL_PENDV 0).put F.CTX_MAPSEL_PEND 0

/-- The queue replaced. -/
def State.setQ (s : State) (q : List TCmd) : State := { s with emi := { s.emi with tq := q } }.showQ

/-- The command that is due first: the earliest device time, equal times in issue order (R396). -/
def firstDue : List TCmd → Option TCmd
  | [] => none
  | c :: cs => match firstDue cs with
    | some d => if d.due < c.due then some d else some c
    | none => some c

/-- The axis and value of a SETPT command that is to act; a late one does not (R30). -/
def TCmd.setpt? (c : TCmd) : Option (Nat × Nat) := match c.kind with
  | .setpt a v => if c.late then none else some (a, v)
  | _ => none

/-- A command inserted before those of a later or equal device time; a queue folded from its end so gives the order in which its
commands act (R396). -/
def insertCmd (c : TCmd) : List TCmd → List TCmd
  | [] => [c]
  | d :: ds => if d.due < c.due then d :: insertCmd c ds else c :: d :: ds

/-- The commands of a queue in the order in which they act (R396). -/
def inOrder (q : List TCmd) : List TCmd := q.foldr insertCmd []

/-- A SETPT reaches its device time: it waits for the axis's next sample instant, or is ignored while SRC is 1 (R286). -/
def State.enterSetpt (s : State) (a v : Nat) : State :=
  if s.is (F.AXS_CTRL_SRC a) then s.count (F.AXS_CNT_COUNT a 5)
  else s.setAxis a { s.axis a with points := (s.axis a).points ++ [sint 24 v] }

/-- The SETPT commands that are due by a device time (in subticks) leave the queue. -/
def State.setptsUntil (s : State) (due : Nat) : State :=
  let now : TCmd → Bool := fun c => c.setpt?.isSome && c.due ≤ due
  if s.emi.tq.any now then
    ((inOrder (s.emi.tq.filter now)).filterMap TCmd.setpt?).foldl (fun s x => s.enterSetpt x.1 x.2) (s.setQ (s.emi.tq.filter fun c => !now c))
  else s

/-- A command that the fire and timing logic executes when its time comes: no SETPT, which enters by itself, and no late one (R30). -/
def TCmd.acts (c : TCmd) : Bool := c.setpt?.isNone && !c.late

/-- The first due command, taken from the queue when it is of the wanted kind; device time reaches it, and with it the SETPT
commands before it. While the time base is out of lock device time stands, and none comes due (R527, R528, R542). -/
def State.takeDue {α : Type} (s : State) (want : TKind → Option α) : Option (α × TCmd × State) :=
  match (if s.is F.SYS_STAT_TBLOCK then firstDue (s.emi.tq.filter TCmd.acts) else none) with
  | some c => (want c.kind).map fun x =>
    let same : TCmd → Bool := fun d => d.due = c.due && d.acts
    (x, c, ((s.setQ (dropFirst same s.emi.tq)).at c.tc).setptsUntil c.due)
  | none => none

/-- The operands of a fire command. -/
def TKind.fire? : TKind → Option (Nat × Nat × Option Int)
  | .fire mask r code => some (mask, r, code)
  | _ => none

/-- The row of a row command. -/
def TKind.row? : TKind → Option Nat
  | .row r => some r
  | _ => none

/-- The operands of a gate command. -/
def TKind.gate? : TKind → Option (Nat × Nat × Nat)
  | .gate mask r len => some (mask, r, len)
  | _ => none

/-- The map of a map command. -/
def TKind.map? : TKind → Option Nat
  | .map m => some m
  | _ => none

/-- The operands of a context open. -/
def TKind.ctxo? : TKind → Option (Nat × Nat)
  | .ctxo e n => some (e, n)
  | _ => none

/-- The emitter of a context close. -/
def TKind.ctxc? : TKind → Option Nat
  | .ctxc e => some e
  | _ => none

/-- Whether a mark marks a column. -/
def TKind.mark? : TKind → Option Bool
  | .mark b => some b
  | _ => none

/-- EMI_CFG.MODE is matrix mode. -/
def State.matrix (s : State) : Bool := s.is F.EMI_CFG_MODE

/-- The emitter of output n in row r (R390). -/
def State.emitterOf (s : State) (row n : Nat) : Nat := if s.matrix then 64 * row + n else n

/-! ### Maps -/

/-- A map entry read (R157): CHMASK as a number, ORIGIN, NBIN, MERGE, NWIN, K, ROWBASE. -/
structure MapEntry where
  mask : Nat
  origin : Nat
  nbin : Nat
  merge : Nat
  nwin : Nat
  k : Nat
  rowbase : Nat
  deriving DecidableEq, Repr

/-- The BAR2 offset of a map entry (R156). -/
def mapBase (m e : Nat) : Nat := 0x900000 + 0x20000 * m + 128 * e

/-- The entry of emitter e in map m; none where R159 treats it as naming no channel, or where a word of it is uncorrectable
(R543). -/
def State.mapEntry (s : State) (m e : Nat) : Option MapEntry :=
  match s.table (mapBase m e) 128 with
  | none => none
  | some v =>
    let nb := bits v (8 * 66) 16
    let nbin := if nb = 0x1000 then 2048 else bits nb 0 12
    let x : MapEntry := ⟨bits v 0 512, bits v (8 * 64) 16, nbin, bits v (8 * 68) 8, bits v (8 * 69) 8, bits v (8 * 70) 8,
      bits v (8 * 72) 16⟩
    if nbin = 0 || 2048 < nbin || (nb ≠ 0x1000 && bits nb 12 4 ≠ 0) || 5 < x.merge || 4 < x.nwin || x.k = 0 || 8 < x.k
        || bits v (8 * 71) 8 ≠ 0 || bits v (8 * 74) 432 ≠ 0 then none else some x

/-- A read of a map entry: its words are corrected, or detected, first (R37, R40). -/
def State.mapTouch (s : State) (m e : Nat) : State := s.touchRange (mapBase m e) 128

/-- The blocks of an entry that hold a channel, lowest first: each the list of its channels (R158). -/
def MapEntry.blocks (x : MapEntry) : List (List Nat) :=
  ((List.range (512 / 2 ^ x.merge)).map fun b =>
    ((List.range (2 ^ x.merge)).map fun i => b * 2 ^ x.merge + i).filter fun ch => bit x.mask ch).filter fun l => !l.isEmpty

/-- The map in force (R160). -/
def State.mapNow (s : State) : Nat := s.get F.CTX_MAPSEL_CUR

/-- The map in force at a device time, for the command that stood at a place of the queue: the last MAP command that acts before it
names it (R160, R396). -/
def State.mapAt (s : State) (due place : Nat) : Nat :=
  let before := (s.emi.tq.zipIdx.filter fun x => !x.1.late && (x.1.due < due || (x.1.due = due && x.2 < place))).map fun x => x.1
  (((inOrder before).filterMap fun c => c.kind.map?).getLast?).getD s.mapNow

/-- The contexts that a CTXO of emitter e would open under map m: in direct mode, none above 63 (R393)
(open points: DEDUCED, log 94). -/
def State.wouldOpen (s : State) (m e : Nat) : Nat :=
  if !s.matrix && 63 < e then 0
  else match s.mapEntry m e with
    | some x => x.blocks.length
    | none => 0

/-- The channels that the map names for an emitter. -/
def State.channelsOf (s : State) (m e : Nat) : List Nat :=
  match s.mapEntry m e with
  | some x => setBits 512 x.mask
  | none => []

/-! ### Code dither -/

/-- The dither of slot k for amplitude amp (R564). -/
def codeDither (seed uid k amp : Nat) : Int :=
  let m : Nat := 2 ^ 32
  let x := (seed + k * 0x9E3779B9) % m
  let x := x ^^^ (uid * 65536 % m)
  let x := (x ^^^ (x / 65536)) * 0x85EBCA6B % m
  let x := (x ^^^ (x / 8192)) * 0xC2B2AE35 % m
  let x := x ^^^ (x / 65536)
  let v := x / 2 ^ 21
  ((v * (2 * amp + 1) / 2048 : Nat) : Int) - (amp : Int)

/-- A dither held to ±AMP (R55, R391). -/
def State.heldDither (s : State) (d : Int) : Int := clampInt (-(s.get F.EMI_CFG_AMP : Int)) (s.get F.EMI_CFG_AMP) d

/-- The dither of a slot of the unit's own code, or FIREC's clamped to ±AMP (R55, R391, R564). -/
def State.dither (s : State) (k : Nat) (code : Option Int) : Int := match code with
  | some d => s.heldDither d
  | none => codeDither (s.get F.FLE_SEED_SEED) (s.get F.FLE_UID_UID) k (s.get F.EMI_CFG_AMP)

/-- The code indices restart at the TC of each FSQ start (R564). -/
def State.codeRestart (s : State) (tc : Nat) : State :=
  if s.emi.codeMarks.any (· ≤ tc) then { s with emi := { s.emi with codeK := [], codeMarks := s.emi.codeMarks.filter (tc < ·) } }
  else s

/-! ### Inhibits and skip reasons, at a t_fire -/

/-- The thermal inhibit now (R69, R607). -/
def State.thermal (s : State) : Bool :=
  s.is F.EMI_STAT_TFLATCH || s.emi.resuming
    || (s.is F.EMI_STAT_TFLT && (s.get F.EMI_CFG_TFACT = 1 || s.get F.EMI_CFG_TFACT = 2))

/-- Keys of conditions that are no register field: the delay of R69, the last rise of EMI_INH_N (plus 1), the derating in force. -/
abbrev keyResume : Nat := 0
abbrev keyRise : Nat := 1
abbrev keyDerate : Nat := 2

/-- The 1 ms delay after a release starts or ends (R69). -/
def State.setResuming (s : State) (b : Bool) : State :=
  if s.emi.resuming = b then s
  else { s.keep keyResume (b01 s.emi.resuming) with emi := { (s.keep keyResume (b01 s.emi.resuming)).emi with resuming := b } }

/-- The thermal inhibit at a time (R69, R607). -/
def State.thermalAt (s : State) (tf : Nat) : Bool :=
  s.isAt F.EMI_STAT_TFLATCH tf || s.wasAt keyResume tf (b01 s.emi.resuming) ≠ 0
    || (s.isAt F.EMI_STAT_TFLT tf && (s.getAt F.EMI_CFG_TFACT tf = 1 || s.getAt F.EMI_CFG_TFACT tf = 2))

/-- A t_fire lies in the latch guard of a frame with this last falling edge: 45 µs to 60 µs after it (R66). -/
def guardHolds (tf : Nat) : Option Nat → Bool
  | some e => 16 * (e + 72000) ≤ tf && tf < 16 * (e + 96000)
  | none => false

/-- A t_fire in subticks lies in the latch guard of the last frame, or of the one before it (R66). -/
def State.inGuard (s : State) (tf : Nat) : Bool :=
  s.isAt F.EMI_CHCFG_LGUARD tf && (guardHolds tf s.emi.chainEdge || guardHolds tf s.emi.chainPrev)

/-- The axes behind an output (EMI_AXMAP). -/
def State.axesOf (s : State) (n : Nat) : Nat := bits (s.get (F.EMI_AXMAP_AXM (n / 8))) (4 * (n % 8)) 4

/-- The axes behind an output at a time in subticks (EMI_AXMAP, R86). -/
def State.axesAt (s : State) (n tf : Nat) : Nat := bits (s.getAt (F.EMI_AXMAP_AXM (n / 8)) tf) (4 * (n % 8)) 4

/-- An axis behind the output is faulted, or disabled, which is reported alike (R86, R302) (open points: DEDUCED, log 33). -/
def State.axisInhibit (s : State) (n tf : Nat) : Bool :=
  (setBits 4 (s.axesAt n tf)).any fun a => s.isAt (F.AXS_STAT_FAULT a) tf || !s.isAt (F.AXS_CTRL_EN a) tf

/-- Blanking in coarse ticks: BLANK × 50 ns (R50). -/
def State.blankTicks (s : State) : Nat := 80 * s.get F.EMI_CFG_BLANK

/-- The row change that governs a t_fire: the latest one made at or before it (open points: DEDUCED, log 20). -/
def State.rowAt (s : State) (tf : Nat) : Option RowEv := s.emi.rows.find? fun e => e.t ≤ tf

/-- The fire is inside blanking, no row is selected, or not the slot's row (R46, R53, R390) (open points: DEDUCED, log 20). -/
def State.blanked (s : State) (row tf : Nat) : Bool :=
  s.isAt F.EMI_CFG_MODE tf && match s.rowAt tf with
    | some e => tf < e.blankEnd || e.row ≠ some row
    | none => true

/-- The output's last fire at or before a t_fire lies less than a number of coarse ticks before it (R46, R76). -/
def State.tooSoon (s : State) (n tf ticks : Nat) : Bool :=
  (FMap.get (fun _ => []) s.emi.lastFire n).any fun l => l ≤ tf && tf < l + 16 * ticks

/-- The derating in force as one number: 0 while it is off, else bit 0, STOP in bit 1, MINSP above (R76). -/
def State.derating (s : State) : Nat :=
  if s.is F.EMI_DRCFG_EN then 1 + 2 * b01 s.emi.drStop + 4 * s.emi.drMin else 0

/-- The derating entry selected before a t_fire forbids the fire (R76). -/
def State.derated (s : State) (n tf : Nat) : Bool :=
  let d := s.wasAt keyDerate tf s.derating
  bit d 0 && (bit d 1 || s.tooSoon n tf (max (d / 4) 1600))

/-- The hard inhibit holds at a t_fire: EMI_INH_N low, or risen less than 1 µs before; R88's table names the low pin, and the
microsecond after its rise carries the same reason (R85, R88) (open points: DESIGN CHOICE, log 106). -/
def State.hardInh (s : State) (tf : Nat) : Bool :=
  let rise := s.wasAt keyRise tf (match s.emi.inhRise with
    | some t => t + 1
    | none => 0)
  s.isAt F.EMI_STAT_INH tf || (rise ≠ 0 && tf < 16 * (rise - 1 + 1600))

/-- The tokens that the budget has for the next edge that it serves in the coarse tick of a time in subticks: those of the changes up to that
tick, the fires that it has served in the tick before among them (R47). -/
def State.tokensAt (s : State) (tf : Nat) : Nat :=
  (s.emi.tokenLog.filter fun x => x.1 / 16 ≤ tf / 16).foldl (fun n x => if x.2 then min 64 (n + 1) else n - 1) s.emi.tokens

/-- A change of the budget inserted into the list by time, after those of the same time. -/
def insertToken (x : Nat × Bool) : List (Nat × Bool) → List (Nat × Bool)
  | [] => [x]
  | y :: ys => if x.1 < y.1 then x :: y :: ys else y :: insertToken x ys

/-- A token is added, or spent, at a time in subticks; changes that no t_fire can precede any more enter the count (R47)
(open points: DEDUCED, log 105). -/
def State.token (s : State) (t : Nat) (add : Bool) : State :=
  let old : Nat × Bool → Bool := fun x => x.1 + 17600 < 16 * s.horizon
  let n := (s.emi.tokenLog.filter old).foldl (fun n x => if x.2 then min 64 (n + 1) else n - 1) s.emi.tokens
  { s with emi := { s.emi with
      tokens := n, tokenLog := insertToken (t, add) (s.emi.tokenLog.filter fun x => !old x) } }

/-- The reason code for which a slot of output n is skipped at its t_fire, the lowest that applies; 0: it fires (R46, R88)
(open points: DEDUCED, log 28; DEDUCED, log 105). -/
def State.skipReason (s : State) (n e row tf : Nat) : Nat :=
  if s.hardInh tf then 1
  else if s.isAt F.EMI_STAT_PTRIP tf then 2
  else if s.thermalAt tf then 3
  else if s.isAt F.EMI_STAT_CHFLT tf || s.inGuard tf then 4
  else if s.axisInhibit n tf then 5
  else if !s.isAt F.EMI_STAT_ARMED tf then 6
  else if !s.isAt (F.EMI_FOUT_EN n) tf then 7
  else if s.blanked row tf then 8
  else if s.derated n tf then 9
  else if s.tooSoon n tf 1600 then 10
  else if s.tokensAt tf = 0 then 11
  else if s.is F.CTX_STAT_QSKIP && (s.openOf e).isEmpty then 13
  else 0

/-! ### Rows -/

/-- The row changes that a t_fire can still meet: those from the horizon on, and the one before them. -/
def keepRows (from_ : Nat) : List RowEv → List RowEv
  | [] => []
  | e :: es => if e.t < from_ then [e] else e :: keepRows from_ es

/-- A row change takes effect at t, in subticks (R50). -/
def State.rowChange (s : State) (t r : Nat) : State :=
  { s with emi := { s.emi with
      rows := ⟨t, some r, t + 16 * s.blankTicks⟩ :: keepRows (16 * s.horizon - 17600) s.emi.rows
      rowWait := none, rowHigh := none, rowNext := some r, blanking := true } }

/-- A pulse is active at a time. -/
def FirePulse.activeAt (t : Nat) (p : FirePulse) : Bool := p.lead ≤ t && t < p.trail

/-- The time at which no pulse is active any more, from t on: the trailing edge of the pulse that is, and so on (R51). -/
def releaseAt (ps : List FirePulse) : Nat → Nat → Nat
  | 0, t => t
  | n + 1, t => match ps.find? (FirePulse.activeAt t) with
    | some p => releaseAt ps n p.trail
    | none => t

/-- A row change that waits, made where its pulses have ended by x (R51) (open points: DEDUCED, log 20). -/
def State.rowRelease (s : State) (x : Nat) : State := match s.emi.rowWait with
  | some (r, t) =>
    let u := releaseAt s.emi.pulses s.emi.pulses.length t
    if u ≤ x then s.rowChange u r else s
  | none => s

/-- A ROW command acts at t, in subticks: a pulse that is active then, whether its slot has been decided or lies ahead in the queue,
delays it (R50 to R54) (open points: DEDUCED, log 20). -/
def State.rowCommand (s : State) (t r : Nat) (ahead : List FirePulse) : State :=
  if !s.matrix then s.count F.EMI_IGNORED_CMD
  else
    let s := s.rowRelease t
    if (match s.emi.rows.head? with
      | some e => e.row = some r && e.blankEnd ≤ t
      | none => false) && s.emi.rowWait.isNone then s
    else if (s.emi.pulses ++ ahead).any (FirePulse.activeAt t) then { s with emi := { s.emi with rowWait := some (r, t) } }
    else s.rowChange t r

/-! ### Slots and the order of their edges -/

/-- The four axis angles at t_fire (open points: DEDUCED, log 33). -/
def State.anglesAt (s : State) (tf : Nat) : List Int := (List.range 4).map fun a => s.axisAngle a tf

/-- The angles of an emitter's last slot. -/
def State.lastAngles (s : State) (e : Nat) : List Int :=
  (List.range 4).map fun a => sint 24 (FMap.nat s.emi.emLast (4 * e + a) - 1)

/-- A replay slot of a context waits, and the slot at these angles serves it (R551): any fired slot without axes, else one
within the tolerance and with the same direction of motion (open points: DESIGN CHOICE, log 19; DEDUCED, log 48). -/
def replayMatch (nibble : Nat) (c : Ctx) (angles prev : List Int) : Option RSlot :=
  match c.replay.find? fun r => r.found.isNone with
  | some r =>
    match (setBits 4 nibble).head? with
    | none => some r
    | some a =>
      let diff := angles.getD a 0 - r.angles.getD a 0
      let near := -(c.angtol : Int) ≤ diff && diff ≤ (c.angtol : Int)
      let same := (angles.getD a 0 - prev.getD a 0).sign = (r.angles.getD a 0 - r.prev.getD a 0).sign
      if !r.known || (near && same) then some r else none
  | none => none

/-- The REACQ contexts of an emitter whose next replay slot a slot at these angles serves, with that slot (R551)
(open points: DEDUCED, log 28). -/
def State.replayable (s : State) (n e : Nat) (angles : List Int) : List (Ctx × RSlot) :=
  (s.pool.ctxs.filter fun c => c.state = .reacq && c.emitter = e && !c.closing).filterMap fun c =>
    (replayMatch (s.axesOf n) c angles (s.lastAngles e)).map fun r => (c, r)

/-- A fire slot as its command gives it: output, emitter, row, code index, its own dither and the one that it fires with, t_fire by
either in subticks, whether it is FIREC's, and the replay slots that it can serve (R44, R390, R551, R552). -/
structure Edge where
  n : Nat
  e : Nat
  row : Nat
  k : Nat
  own : Int
  d : Int
  tf0 : Nat
  tf : Nat
  firec : Bool
  cand : List (Ctx × RSlot)
  deriving DecidableEq, Repr

/-- t_fire in subticks of a command of output n with dither d (R44). -/
def State.tFire (s : State) (c : TCmd) (n : Nat) (d : Int) : Nat :=
  ((c.due : Int) + 16 * d + sint 8 (s.get (F.EMI_FOUT_TRIM n))).toNat

/-- The slot of output n of a fire command (R44, R56, R390, R552). -/
def State.bindSlot (s : State) (c : TCmd) (row : Nat) (code : Option Int) (n : Nat) : Edge :=
  let e := s.emitterOf row n
  let k := FMap.nat s.emi.codeK e
  let own := s.dither k code
  let tf0 := s.tFire c n own
  let cand := s.replayable n e (s.anglesAt tf0)
  let d := match cand.head? with
    | some (_, r) => if r.known then s.heldDither r.dither else own
    | none => own
  ⟨n, e, row, k, own, d, tf0, s.tFire c n d, code.isSome, cand⟩

/-- The code index of an emitter advances by one slot (R56). -/
def State.stepCode (s : State) (e : Nat) : State :=
  { s with emi := { s.emi with codeK := FMap.setNat s.emi.codeK e (FMap.nat s.emi.codeK e + 1) } }

/-- The slots of a fire command in ascending output, and the code indices after it. -/
def State.bindAll (s : State) (c : TCmd) (row : Nat) (code : Option Int) : List Nat → List Edge × State
  | [] => ([], s)
  | n :: ns =>
    let x := s.bindSlot c row code n
    let r := (s.stepCode x.e).bindAll c row code ns
    (x :: r.1, r.2)

/-- An event that the order of time decides: a slot's edge, or a row command, with the place of its command. -/
inductive Ahead where
  | edge (x : Edge) (place : Nat)
  | row (t r : Nat) (place : Nat)
  deriving DecidableEq, Repr

/-- The edges and row commands that commands give, in the order in which they act; a frame mark restarts the code indices (R564). -/
def State.aheadOf (s : State) : Nat → List TCmd → List Ahead
  | _, [] => []
  | i, c :: cs =>
    let s := s.codeRestart c.tc
    match c.kind with
    | .fire mask row code =>
      let r := s.bindAll c row code (setBits 64 mask)
      r.1.map (fun x => .edge x i) ++ r.2.aheadOf (i + 1) cs
    | .row r => .row c.due r i :: s.aheadOf (i + 1) cs
    | .mark false => { s with emi := { s.emi with codeK := [] } }.aheadOf (i + 1) cs
    | _ => s.aheadOf (i + 1) cs

/-- The edges of a list with the places of their commands, in the order in which the budget serves them: by coarse tick, then by ascending
output (R47) (open points: DEDUCED, log 105). -/
def insertEdge (x : Edge × Nat) : List (Edge × Nat) → List (Edge × Nat)
  | [] => [x]
  | y :: ys =>
    if y.1.tf / 16 < x.1.tf / 16 || (y.1.tf / 16 = x.1.tf / 16 && (y.1.n < x.1.n || (y.1.n = x.1.n && y.1.tf < x.1.tf))) then
      y :: insertEdge x ys
    else x :: y :: ys

/-- Row commands placed among edges: after those of an earlier time, or of the same time and an earlier command (R396)
(open points: DEDUCED, log 20). -/
def weave : List (Nat × Nat × Nat) → List (Edge × Nat) → List Ahead
  | [], es => es.map fun x => .edge x.1 x.2
  | (t, r, j) :: rs, es =>
    let first : Edge × Nat → Bool := fun x => x.1.tf < t || (x.1.tf = t && x.2 < j)
    (es.filter first).map (fun x => .edge x.1 x.2) ++ .row t r j :: weave rs (es.filter fun x => !first x)

/-- The time of an event in subticks. -/
def Ahead.time : Ahead → Nat
  | .edge x _ => x.tf
  | .row t _ _ => t

/-- Events in the order in which they are decided. -/
def decideOrder (l : List Ahead) : List Ahead :=
  weave (l.filterMap fun x => match x with
      | .row t r j => some (t, r, j)
      | .edge _ _ => none)
    ((l.filterMap fun x => match x with
      | .edge x i => some (x, i)
      | .row _ _ _ => none).foldr insertEdge [])

/-- A slot fires: its token, its time and its pulse (R45 to R47). -/
def State.spendToken (s : State) (x : Edge) : State :=
  let s := s.token x.tf false
  let width := s.get (F.EMI_FOUT_WIDTH x.n)
  { s with emi := { s.emi with
      lastFire := FMap.set (fun _ => []) s.emi.lastFire x.n (x.tf :: (FMap.get (fun _ => []) s.emi.lastFire x.n).take 3)
      pulses := s.emi.pulses ++ [⟨x.n, x.tf, x.tf + 16 * width⟩] } }

/-- Events acted out in order: the reason of each edge of the command at place 0, and the state that they leave. -/
def State.actOut (s : State) : List Ahead → List (Nat × Nat) × State
  | [] => ([], s)
  | .row t r _ :: es => (s.rowCommand t r []).actOut es
  | .edge x i :: es =>
    let s := s.rowRelease x.tf
    let reason := s.skipReason x.n x.e x.row x.tf
    let r := (if reason = 0 then s.spendToken x else s).actOut es
    (if i = 0 then (x.n, reason) :: r.1 else r.1, r.2)

/-- The commands that are still to act. -/
def State.toAct (s : State) : List TCmd := inOrder (s.emi.tq.filter TCmd.acts)

/-- The reasons of the slots of a fire command that acts now: its edges, with those of queued commands that come before its last one,
decided in the order of time (R46, R47, R51) (open points: DEDUCED, log 105). -/
def State.reasons (s : State) (c : TCmd) (own : List Edge) : List (Nat × Nat) :=
  let last := own.foldl (fun m x => max m x.tf) 0
  (s.actOut (decideOrder ((s.aheadOf 0 (c :: s.toAct)).filter fun x => x.time / 16 ≤ last / 16))).1

/-- The pulses of queued fire commands whose edges precede a time, as far as they will fire (R51)
(open points: DEDUCED, log 20). -/
def State.pulsesAhead (s : State) (t : Nat) : List FirePulse :=
  (s.actOut (decideOrder ((s.aheadOf 1 s.toAct).filter fun x => x.time < t))).2.emi.pulses.drop s.emi.pulses.length

/-! ### Fire slots -/

/-- Journal entry of a slot (R545). -/
def journalEntry (tf e d : Int) (reason flags wrap : Nat) (angles : List Int) (frame column : Nat) : List Byte :=
  leBytes 8 (uint 64 tf) ++ leBytes 2 (uint 16 e) ++ leBytes 1 flags ++ leBytes 1 reason ++ leBytes 2 (uint 11 d)
  ++ leBytes 2 wrap ++ angles.flatMap (fun a => leBytes 3 (uint 24 a)) ++ leBytes 2 frame ++ leBytes 2 column

/-- A context takes a slot among its own (R134): its first one gives T0 and JIDX (open points: DEDUCED, log 39). -/
def Ctx.takeSlot (c : Ctx) (slot t : Nat) (before : List Int) (skipped : Bool) : Ctx :=
  let c := if c.given = 0 then { c with t0 := t, jidx := slot % 65536, first := some slot, before := before } else c
  { c with given := c.given + 1, last := slot, skipSeen := c.skipSeen || skipped }

/-- A REACQ context takes a slot as its next replay slot (R551). -/
def Ctx.takeReplay (c : Ctx) (slot : Nat) : Ctx :=
  { c with replay := modFirst (fun r => r.found.isNone) (fun r => { r with found := some slot }) c.replay }

/-- A slot's T lies in a gate of its emitter (R611). -/
def gateHolds (e due : Nat) (g : Gate) : Bool := g.emitter = e && 16 * g.opens ≤ due && due < 16 * g.closes

/-- A gate takes a slot: it has none, or a later one by T (R611). -/
def State.gateTakes (s : State) (e due : Nat) (g : Gate) : Bool :=
  gateHolds e due g && match g.slot with
    | some n => s.ret.shots.any fun h => h.slot = n && due < h.t
    | none => true

/-- A gate that a slot's fault span cuts sends the slot's live contexts of its channel to REACQ, each counted in the record of the fault of
this cause and instance (R537, R609). -/
def State.cutGate (s : State) (g : Gate) (members : List Nat) (cause inst : Nat) : State :=
  if g.cut then
    members.foldl (fun s id => match s.ctx? id with
      | some c => if c.live && c.chans.contains g.ch then (s.enterReacq id).moreAffected cause inst else s
      | none => s) s
  else s

/-- A fire slot is numbered, journalled and given to its contexts and gates; the map in force at its T says which channels read it
(R20, R21, R134, R160, R545, R611). Its pairing window is that of PWIN at the fire (R108) (open points: DESIGN CHOICE, log 106). -/
def State.putSlot (s : State) (c : TCmd) (x : Edge) (map : Nat) (reason flags : Nat) (members replaying : List Nat) : State :=
  let slot := s.emi.slots
  let tf := if reason = 0 then x.tf else x.tf0
  let d := if reason = 0 then x.d else x.own
  let angles := s.anglesAt tf
  let before := s.lastAngles x.e
  let s := s.store (journalBase slot)
    (journalEntry tf x.e d reason flags (slot / 65536 % 65536) angles c.frame c.column)
  let emLast := (List.range 4).foldl (fun m a => FMap.setNat m (4 * x.e + a) (uint 24 (angles.getD a 0) + 1)) s.emi.emLast
  let s := { s with emi := { s.emi with slots := slot + 1, emLast := emLast } }
  let s := members.foldl (fun s id => s.modCtx id fun y => y.takeSlot slot c.tc before (reason ≠ 0)) s
  let s := replaying.foldl (fun s id => s.modCtx id fun y => y.takeReplay slot) s
  let st := s.get (F.EMI_FOUT_STC x.n)
  let s := (s.touchRange (0xA50020 + 8 * x.n) 5).mapTouch map x.e
  let en := s.emDelay x.n
  let p : Int := 1024 * tf + en.getD 0
  let w : Int := (16384 * s.get (F.RGP_STCFG_PWIN st) : Nat)
  let shot : Shot := {
    slot := slot, emitter := x.e, output := x.n, st := st, t := c.due, tFire := tf, fired := reason = 0, k := x.k, p := p
    lo := if en.isSome then p - w else p
    hi := if en.isSome then p + w else p + (16384 * s.get F.CAL_EDLY_ACQ : Nat)
    eValid := en.isSome, other := false, start := none, members := members ++ replaying
    owners := members ++ replaying, chans := s.channelsOf map x.e, before := before, behind := false }
  let taken := s.ret.gates.filter (s.gateTakes x.e c.due)
  let give : Gate → Gate := fun g => if s.gateTakes x.e c.due g then { g with slot := some slot } else g
  let s := { s with ret := { s.ret with shots := s.ret.shots ++ [shot], gates := s.ret.gates.map give } }
  taken.foldl (fun s g => s.cutGate g members Cause.channel g.ch) s

/-- STCS takes over its start input at the next fire on it; the miss run starts anew (R112). -/
def State.stcsTakes (s : State) (st : Nat) : State :=
  if s.ret.stcsNext = some st then
    ({ s with ret := { s.ret with stcsNext := none } }.put (F.RGP_STSTAT_SPARED st) 1).put (F.RGP_STSTAT_MISSRUN st) 0
  else s

/-- One slot made of its edge and its reason: it fires or is skipped (R46, R88, R552, R553). -/
def State.makeSlot (s : State) (c : TCmd) (map : Nat) (members : List Nat) (x : Edge) (reason : Nat) : State :=
  let firec := if x.firec then 4 else 0
  if reason ≠ 0 then (s.count (F.EMI_SKIP_COUNT reason)).putSlot c x map reason (1 + firec) members []
  else
    let replaying := (x.cand.filter fun y => !y.2.known || s.heldDither y.2.dither = x.d).map fun y => y.1.id
    let s := (s.out (.fire x.n x.tf (s.get (F.EMI_FOUT_WIDTH x.n)) (s.get F.EMI_CFG_AMP))).spendToken x
    let s := s.stcsTakes (s.get (F.EMI_FOUT_STC x.n))
    s.putSlot c x map 0 ((if replaying.isEmpty then 0 else 2) + firec) members replaying

/-- One slot of a fire command that acts now, of output n. -/
def State.fireOutput (s : State) (c : TCmd) (row : Nat) (code : Option Int) (reason n : Nat) : State :=
  let s := s.codeRestart c.tc
  let x := s.bindSlot c row code n
  (s.stepCode x.e).makeSlot c s.mapNow ((s.openOf x.e).map fun y => y.id) x reason

/-- A fire command acts: each output that it names fires or is skipped, the slots numbered in ascending output number; device time goes
on to the last of their edges (R46, R47) (open points: DEDUCED, log 28; DEDUCED, log 105). -/
def State.fireAll (s : State) (c : TCmd) (mask row : Nat) (code : Option Int) : State :=
  let own := ((s.codeRestart c.tc).bindAll c row code (setBits 64 mask)).1
  let why := s.reasons c own
  let s := own.foldl (fun s x => s.fireOutput c row code ((why.find? fun y => y.1 = x.n).map (·.2) |>.getD 0) x.n) s
  s.at (own.foldl (fun m x => max m x.tf) 0 / 16)

/-- FIRE_SLOT: the first due command is a fire command. -/
def State.fireSlot (s : State) : State := match s.takeDue TKind.fire? with
  | some ((mask, row, code), c, s) => s.fireAll c mask row code
  | none => s

/-- The meaning of FIRE_SLOT (open points: DESIGN CHOICE, log 2). -/
def execFireSlot (s : State) : Host.Outcome State Fault Refusal := act s s.fireSlot

/-- ROW_CHANGE: the first due command is a row command. -/
def State.rowDue (s : State) : State := match s.takeDue TKind.row? with
  | some (r, c, s) => s.rowCommand c.due r (s.pulsesAhead c.due)
  | none => s

/-- The meaning of ROW_CHANGE. -/
def execRowChange (s : State) : Host.Outcome State Fault Refusal := act s s.rowDue

/-- The meaning of ROW_SELECT_RISE: the row of the last change goes high (R50). -/
def execRowSelectRise (s : State) : Host.Outcome State Fault Refusal :=
  act s (match s.emi.rowNext with
    | some r => { s with emi := { s.emi with rowHigh := some r, rowNext := none } }
    | none => s)

/-- The meaning of BLANKING_END (R50). -/
def execBlankingEnd (s : State) : Host.Outcome State Fault Refusal :=
  act s { s with emi := { s.emi with blanking := false } }

/-- A pulse of output n ends; a row change that waits for it follows (R45, R51). -/
def State.pulseEnd (s : State) (n : Nat) : State :=
  match s.emi.pulses.find? fun p => p.output = n with
  | some p =>
    let s := s.rowRelease p.trail
    { s with emi := { s.emi with pulses := dropFirst (fun q => q.output = n) s.emi.pulses } }.at (p.trail / 16)
  | none => s

/-- The meaning of PULSE_TRAILING_EDGE. -/
def execPulseTrailingEdge (n : Fin 64) (s : State) : Host.Outcome State Fault Refusal := act s (s.pulseEnd n.val)

/-- The meaning of BUDGET_TOKEN_ADD: one token, up to 64 (R47) (open points: DESIGN CHOICE, log 7; DESIGN CHOICE, log 23). -/
def execBudgetTokenAdd (s : State) : Host.Outcome State Fault Refusal := act s (s.token (16 * s.dt) true)

/-! ### Late commands -/

/-- The device time that lateness is measured against, in coarse ticks (R30, R57) (open points: DEDUCED, log 30). -/
def State.lateAt (s : State) (c : TCmd) : Nat := match c.kind with
  | .fire .. => c.tc - (s.get F.EMI_CFG_AMP + 8)
  | _ => c.tc

/-- The queued commands that act before a device time, or at it with an earlier place in the queue, with their places (R396). -/
def State.actsBefore (s : State) (due place : Nat) : List (TCmd × Nat) :=
  s.emi.tq.zipIdx.filter fun x => x.1.acts && (x.1.due < due || (x.1.due = due && x.2 < place))

/-- A queued command will close a context of an emitter: a CTXC of the emitter, or a CTXO that overlaps it (R132, R134). -/
def State.closes (s : State) (d : TCmd) (place e : Nat) (y : Ctx) : Bool := match d.kind with
  | .ctxc f => f = e
  | .ctxo f _ => f = e && y.chans.any (s.channelsOf (s.mapAt d.due place) e).contains
  | _ => false

/-- A slot of a fire command that is late or was flushed: skipped with reason LATE, which R30 and R542 name, whatever lower code of R88
would apply (R30, R88, R542) (open points: DESIGN CHOICE, log 106) (open points: DEDUCED, log 30). -/
def State.lateOutput (s : State) (c : TCmd) (row : Nat) (code : Option Int) (place n : Nat) : State :=
  let s := s.codeRestart c.tc
  let x := { s.bindSlot c row code n with cand := [] }
  let map := s.mapAt c.due place
  let before := s.actsBefore c.due place
  let open_ := (s.openOf x.e).filter fun y => !before.any fun d => s.closes d.1 d.2 x.e y
  let s := (s.stepCode x.e).makeSlot c map (open_.map fun y => y.id) x 12
  let same : Bool := before.any fun d => d.1.due = c.due && (d.1.kind.ctxo?.map (·.1)) = some x.e
  if same then
    let last := s.ret.shots.getLast?.toList.map fun (h : Shot) => { h with behind := true }
    { s with ret := { s.ret with shots := s.ret.shots.dropLast ++ last } }
  else s

/-- The action of a late command that stood at a place of the queue (R30); a parity error in the queue has the same (R535)
(open points: DEDUCED, log 30; DEDUCED, log 94). -/
def State.lateAction (s : State) (c : TCmd) (place : Nat) : State :=
  let s := s.count (F.SEQ_CNT_COUNT 0)
  let m := s.mapAt c.due place
  match c.kind with
  | .fire mask row code => (setBits 64 mask).foldl (fun s n => s.lateOutput c row code place n) s
  | .ctxo e nshot =>
    let s := s.mapTouch m e
    s.skipMark m c.frame c.column e (if nshot = 0 then 0 else s.wouldOpen m e) c.tc
  | .ctxc e => (s.openOf e).foldl (fun s x => s.requestClose x.id true) s
  | .gate mask row _ =>
    (setBits 64 mask).foldl (fun s n =>
      let e := s.emitterOf row n
      let s := s.mapTouch m e
      let chs := s.channelsOf m e
      (s.openOf e).foldl (fun s x => if x.chans.any chs.contains then s.requestClose x.id true else s) s) s
  | .row _ => s
  | .map _ => s
  | .mark _ => s
  | .setpt _ _ => s
  | .parity _ => s

/-- LATE_COMMAND, which comes to nothing while the time base is out of lock (R527): command i of the queue was late when it was issued, or
reaches the logic at t, less than 64 coarse ticks before its device time (R30); an item with a parity error is treated so whenever it is met
(R535) (open points: DEDUCED, log 30). -/
def State.lateCommand (s : State) (i t : Nat) : State :=
  match (if s.is F.SYS_STAT_TBLOCK then s.emi.tq[i]? else none) with
  | some c =>
    match c.kind with
    | .parity k => (((s.at t).setQ (s.emi.tq.eraseIdx i)).raise Cause.parity 16).lateAction { c with kind := k.plain } i
    | _ => if c.late || s.lateAt c < t + 64 then ((s.at t).setQ (s.emi.tq.eraseIdx i)).lateAction c i else s
  | none => s

/-- The meaning of LATE_COMMAND. -/
def execLateCommand (i t : Nat) (s : State) : Host.Outcome State Fault Refusal := act s (s.lateCommand i t)

end Sys2Proof.Machine
end

