-- ==== Sys2Proof/Machine/Emission.lean ====
section
/-!
DEFINITION. The emission block beside its slots: the driver chain, the thermal line, the permit, arming, the inhibits
(02_emission.md).
-/
namespace Sys2Proof.Machine

/-! ### EMI_STAT with its event -/

/-- A bit of EMI_STAT whose change is a vector 16 event: ARMED, PTRIP, TFLATCH, CHFLT (R508). -/
def State.emiStat (s : State) (f : Fld) (b : Bool) : State := (s.putKept f (b01 b)).eventIf (s.is f ≠ b) 16

/-! ### Driver chain -/

/-- CHBUSY: a frame in progress or pending (R68, R77). -/
def State.showChain (s : State) : State :=
  s.putB F.EMI_STAT_CHBUSY (s.emi.chainBusy || s.emi.chainPend.isSome || s.emi.derImage.isSome)

/-- The trailer of a chain frame (R61). -/
def chainTrailer (seq : Nat) : Word := BitVec.ofNat 32 ((0xA500 + seq) * 65536 + (65535 - (0xA500 + seq)))

/-- The bits of a frame, most significant bit of each word first (R61) (open points: DESIGN CHOICE, log 102). -/
def chainBits (ws : List Word) : List Bool := ws.flatMap fun w => (List.range 32).map fun i => w.getLsbD (31 - i)

/-- The last falling edge of a frame that starts at t: that of its last bit (R60, R62). -/
def lastFall (t : Nat) (bits : List Bool) : Nat := t + 640 * (bits.length - 1) + (if bits.getLastD false then 480 else 160)

/-- A chain frame starts at t with these configuration words (R60 to R62); the edge of the frame before it is kept for its latch guard
(R66). -/
def State.chainStart (s : State) (ws : List Word) (t : Nat) : State :=
  let seq := (s.get F.EMI_CHSTAT_SEQ + 1) % 256
  let all := ws ++ [chainTrailer seq]
  let s := (s.put F.EMI_CHSTAT_SEQ seq).out (.chainFrame (chainBits all))
  { s with emi := { s.emi with
      chainBuf := all, chainBusy := true, chainAt := some t, chainEdge := some (lastFall t (chainBits all)), chainPrev := s.emi.chainEdge
      guard := false, chainPend := none } }.showChain

/-- The level of EDQ at a coarse tick: from each bit's rising edge on, every 640 ticks, high for 160 ticks of a 0 and 480 of a 1; low
between frames (R60, R90). -/
def State.edqLevel (s : State) (t : Nat) : Bool := match s.emi.chainAt with
  | some t0 => t0 ≤ t && match (chainBits s.emi.chainBuf)[(t - t0) / 640]? with
    | some b => (t - t0) % 640 < (if b then 480 else 160)
    | none => false
  | none => false

/-- Less than 60 µs have passed since the last frame's last falling edge (R62). -/
def State.chainHeld (s : State) (t : Nat) : Bool := match s.emi.chainEdge with
  | some e => t < e + 96000
  | none => false

/-- The words of a chain image that a frame sends; none where a word of the image is uncorrectable (R67, R543)
(open points: DESIGN CHOICE, log 21). -/
def State.chainImage (s : State) (img : Nat) : Option (List Word) :=
  let len := s.get F.EMI_CHCFG_LEN
  let a := 0x840000 + 256 * img
  if s.rangeOk a (4 * len) then some ((List.range len).map fun k => BitVec.ofNat 32 (s.num (a + 4 * k) 4)) else none

/-- An image is copied into the chain buffer and sent, now or when R62 allows (R62, R67). -/
def State.chainLaunch (s : State) (ws : List Word) (t : Nat) : State :=
  if s.chainHeld t then { s with emi := { s.emi with chainPend := some ws } }.showChain else s.chainStart ws t

/-- A write of EMI_CHCTRL (R67, R68). An image that cannot be read is not sent, and the write is ignored (DESIGN CHOICE, log 21). -/
def State.chctrlWrite (s : State) (src : Src) (v : Word) (t : Nat) : State :=
  let img := F.EMI_CHCTRL_IMAGE.of v
  let len := s.get F.EMI_CHCFG_LEN
  if !F.EMI_CHCTRL_GO.isOf v then s.put F.EMI_CHCTRL_IMAGE img
  else if s.is F.EMI_STAT_CHBUSY || len = 0 then s.ignoreReg src 0xC024
  else
    let s := s.touchRange (0x840000 + 256 * img) (4 * len)
    match s.chainImage img with
    | some ws => ((s.put F.EMI_CHCTRL_IMAGE img).at t).chainLaunch ws t
    | none => s.ignoreReg src 0xC024

/-- The meaning of CHAIN_GO. -/
def execChainGo (src : Src) (image : Fin 8) (t : Nat) (s : State) : Host.Outcome State Fault Refusal :=
  actBy src s (s.chctrlWrite src (BitVec.ofNat 32 (2 * image.val + 1)) t)

/-- The result of a frame from the bits decoded on EDR (R63). -/
def chainResultOf (trailer : Word) (rx : List Bool) : Nat :=
  if rx.length = 0 then 5
  else if rx.length < 32 then 3
  else if 32 < rx.length then 4
  else if rx = chainBits [trailer] then 1 else 2

/-- The end of a frame's EDR window: 10 µs after the end of its last bit period (R63). -/
def State.edrEnd (s : State) : Nat := s.emi.chainAt.getD 0 + 20480 * s.emi.chainBuf.length + 16000

/-- The bits decoded from pulses on EDR, each its rising and its falling edge: those that rise in the frame's window, sampled 320 ticks
after they rise (R60, R63) (open points: DEDUCED, log 105). -/
def State.edrBits (s : State) (edr : List (Nat × Nat)) : List Bool :=
  (edr.filter fun p => s.emi.chainAt.getD 0 ≤ p.1 && p.1 ≤ s.edrEnd).map fun p => p.1 + 320 < p.2

/-- CHAIN_RESULT: the EDR window of the frame in progress closes (R63, R65). -/
def State.chainResult (s : State) (edr : List (Nat × Nat)) : State :=
  if !s.emi.chainBusy then s
  else
    let rx := s.edrBits edr
    let r := chainResultOf (s.emi.chainBuf.getLastD 0#32) rx
    let s := ((s.at s.edrEnd).put F.EMI_CHSTAT_BITS (min rx.length 255)).put F.EMI_CHSTAT_RESULT r
    let s := { s with emi := { s.emi with chainBusy := false } }.showChain
    let s := if r = 1 then s else
      (if s.is F.EMI_CHCFG_FACT then s.emiStat F.EMI_STAT_CHFLT true else s).raise Cause.chain 0
    s.event 16

/-- The meaning of CHAIN_RESULT. -/
def execChainResult (edr : List (Nat × Nat)) (s : State) : Host.Outcome State Fault Refusal := act s (s.chainResult edr)

/-- The meaning of LATCH_GUARD_START: 45 µs after the last falling edge (R66). -/
def execLatchGuardStart (s : State) : Host.Outcome State Fault Refusal :=
  act s (match s.emi.chainEdge with
    | some e => { s with emi := { s.emi with guard := true } }.at (e + 72000)
    | none => s)

/-- LATCH_GUARD_END: 60 µs after the last falling edge; a frame that waits starts (R62, R66). -/
def State.guardEnd (s : State) : State :=
  match s.emi.chainEdge with
  | some e =>
    let s := { s with emi := { s.emi with guard := false } }.at (e + 96000)
    match s.emi.chainPend with
    | some ws => if s.emi.chainBusy then s else s.chainStart ws (e + 96000)
    | none => s
  | none => s

/-- The meaning of LATCH_GUARD_END. -/
def execLatchGuardEnd (s : State) : Host.Outcome State Fault Refusal := act s s.guardEnd

/-- DERATE_IMAGE_SEND: the image of the latest derating entry is sent once any frame in progress has cleared its guard
(R77); without a chain there is none to send; an image that waits is copied when it is sent, which R77 leaves open
(open points: DESIGN CHOICE, log 21) (open points: DESIGN CHOICE, log 31). -/
def State.derateSend (s : State) (t : Nat) : State :=
  match s.emi.derImage with
  | some img =>
    if s.emi.chainBusy || s.emi.chainPend.isSome || s.chainHeld t then s
    else
      let s := ({ s with emi := { s.emi with derImage := none } }.at t).showChain
      let len := s.get F.EMI_CHCFG_LEN
      if len = 0 then s
      else
        let s := s.touchRange (0x840000 + 256 * img) (4 * len)
        match s.chainImage img with
        | some ws => s.chainStart ws t
        | none => s
  | none => s

/-- The meaning of DERATE_IMAGE_SEND. -/
def execDerateImageSend (t : Nat) (s : State) : Host.Outcome State Fault Refusal := act s (s.derateSend t)

/-! ### Thermal line -/

/-- TFLT_ASSERT (R69): one fault record, and the latch under TFACT 2. -/
def State.tfltAssert (s : State) : State :=
  if s.is F.EMI_STAT_TFLT then s
  else
    let s := ((s.setResuming false).putKept F.EMI_STAT_TFLT 1).raise Cause.thermal 0
    if s.get F.EMI_CFG_TFACT = 2 then s.emiStat F.EMI_STAT_TFLATCH true else s

/-- The meaning of TFLT_ASSERT (open points: DEDUCED, log 32). -/
def execTfltAssert (s : State) : Host.Outcome State Fault Refusal := act s s.tfltAssert

/-- TFLT_RELEASE (R69): under TFACT 1, the 1 ms delay starts. -/
def State.tfltRelease (s : State) : State :=
  if s.is F.EMI_STAT_TFLT then
    (s.setResuming (s.get F.EMI_CFG_TFACT = 1)).putKept F.EMI_STAT_TFLT 0
  else s

/-- The meaning of TFLT_RELEASE (open points: DEDUCED, log 32). -/
def execTfltRelease (s : State) : Host.Outcome State Fault Refusal := act s s.tfltRelease

/-- The meaning of THERMAL_RESUME: the delay of R69 ends. -/
def execThermalResume (s : State) : Host.Outcome State Fault Refusal :=
  act s (s.setResuming false)

/-- A write of EMI_CFG: the checks of R49, R69 and BLANK's range; a change of MODE deselects the rows (R53); TFACT acts at
once (R607). -/
def State.emiCfgWrite (s : State) (src : Src) (v : Word) : State :=
  let mode := F.EMI_CFG_MODE.of v
  let blank := F.EMI_CFG_BLANK.of v
  let tfact := F.EMI_CFG_TFACT.of v
  let change := mode ≠ s.get F.EMI_CFG_MODE
  if (change && s.is F.EMI_CTRL_ARM) || tfact = 3 || blank < 4 || 256 < blank then s.ignoreReg src 0xC008
  else
    let s := if change then s.rowRelease (16 * s.dt) else s
    let s := (((s.putKept F.EMI_CFG_MODE mode).put F.EMI_CFG_BLANK blank).putKept F.EMI_CFG_TFACT tfact).put F.EMI_CFG_AMP
      (F.EMI_CFG_AMP.of v)
    let s := if change then { s with emi := { s.emi with
      rows := ⟨16 * s.dt, none, 16 * s.dt⟩ :: keepRows (16 * s.horizon - 17600) s.emi.rows, rowWait := none, rowHigh := none
      rowNext := none, blanking := false } } else s
    let s := if tfact = 0 then s.setResuming false else s
    if tfact = 2 && s.is F.EMI_STAT_TFLT then s.emiStat F.EMI_STAT_TFLATCH true else s

/-- The meaning of TFACT_WRITE. -/
def execTfactWrite (src : Src) (v : Word) (s : State) : Host.Outcome State Fault Refusal := actBy src s (s.emiCfgWrite src v)

/-! ### Permit -/

/-- PERMIT_EDGE: a transition to a level at t (R78, R79, R82, R83). While the time base is unlocked only the level follows
(open points: DEDUCED, log 32). -/
def State.permitEdge (s : State) (level : Bool) (t : Nat) : State :=
  if level = s.emi.permit then s
  else
    let s := ({ s with emi := { s.emi with permit := level } }).at t
    if !s.is F.SYS_STAT_TBLOCK then s
    else
      let soon : Bool := match s.emi.lastEdge with
        | some l => t < l + 3200
        | none => false
      if soon then s.count F.EMI_IGNORED_PFAST
      else
        let good : Bool := match s.emi.lastEdge with
          | some l => t ≤ l + 16000
          | none => false
        let s := { s with emi := { s.emi with
          lastEdge := some t, echoes := s.emi.echoes ++ [t + 1600], watch := s.emi.watch || good } }
        let s := s.feed 2 0 (coarseStamp t)
        if good then s.put F.EMI_STAT_PERMOK 1 else s

/-- The meaning of PERMIT_EDGE. -/
def execPermitEdge (level : Bool) (t : Nat) (s : State) : Host.Outcome State Fault Refusal :=
  if s.inReset then .next { s with emi := { s.emi with permit := level } } else act s (s.permitEdge level t)

/-- PERMIT_ACK_TOGGLE: the oldest echo due at t (R79, ± 1 tick) (open points: DEDUCED, log 32). -/
def State.ackToggle (s : State) (t : Nat) : State :=
  match s.emi.echoes with
  | e :: es =>
    if e ≤ t + 1 && s.is F.SYS_STAT_TBLOCK then { s with emi := { s.emi with ack := !s.emi.ack, echoes := es } }.at t else s
  | [] => s

/-- The meaning of PERMIT_ACK_TOGGLE. -/
def execPermitAckToggle (t : Nat) (s : State) : Host.Outcome State Fault Refusal := act s (s.ackToggle t)

/-- PERMIT_WATCHDOG_EXPIRE: 16,160 coarse ticks have passed since the last valid edge while the watchdog runs (R81, R83)
(open points: DEDUCED, log 32). -/
def State.permitExpire (s : State) (t : Nat) : State :=
  match s.emi.lastEdge with
  | some l =>
    if s.emi.watch && l + 16160 ≤ t && s.is F.SYS_STAT_TBLOCK then
      let s := { s with emi := { s.emi with lastEdge := none } }.at t
      ((s.emiStat F.EMI_STAT_PTRIP true).put F.EMI_STAT_PERMOK 0).raise Cause.permit 0
    else s
  | none => s

/-- The meaning of PERMIT_WATCHDOG_EXPIRE. -/
def execPermitWatchdogExpire (t : Nat) (s : State) : Host.Outcome State Fault Refusal := act s (s.permitExpire t)

/-- What a loss of time-base lock does to the permit: no PERMOK, the watchdog idle, PERMIT_ACK low without echoes; PTRIP keeps
its value (R79, R83) (open points: DEDUCED, log 88). -/
def State.permitIdle (s : State) : State :=
  { s.put F.EMI_STAT_PERMOK 0 with emi := { s.emi with lastEdge := none, watch := false, ack := false, echoes := [] } }

/-! ### Arming -/

/-- The last chain result is OK, or there is no chain (R84, R91). -/
def State.chainOk (s : State) : Bool := s.get F.EMI_CHSTAT_RESULT = 1 || s.get F.EMI_CHCFG_LEN = 0

/-- The conditions of REARM (R84) (open points: DEDUCED, log 29). -/
def State.mayRearm (s : State) : Bool := s.is F.EMI_STAT_PERMOK && !s.is F.EMI_STAT_TFLT && s.chainOk

/-- The conditions of ARM (R91); while EXTEST is selected, emission stays disarmed (R584)
(open points: DEDUCED, log 29; DEDUCED, log 99). -/
def State.mayArm (s : State) : Bool :=
  s.tap.instr ≠ .extest && s.is F.SYS_STAT_TBLOCK && s.is F.EMI_STAT_PERMOK && s.chainOk && !s.is F.EMI_STAT_PTRIP && !s.is F.EMI_STAT_TFLATCH
    && !s.is F.EMI_STAT_CHFLT

/-- EMI_CTRL.ARM and EMI_STAT.ARMED set; the budget is full when the block is armed (R47, R91, R92)
(open points: DESIGN CHOICE, log 7). -/
def State.setArm (s : State) (b : Bool) : State :=
  let s := if b && !s.is F.EMI_STAT_ARMED then { s with emi := { s.emi with tokens := 64, tokenLog := [] } } else s
  (s.putB F.EMI_CTRL_ARM b).emiStat F.EMI_STAT_ARMED b

/-- The latched inhibits cleared (R84). -/
def State.clearLatches (s : State) : State :=
  ((s.emiStat F.EMI_STAT_PTRIP false).emiStat F.EMI_STAT_TFLATCH false).emiStat F.EMI_STAT_CHFLT false

/-- A write of EMI_CTRL with REARM and ARM (R84, R91, R92): REARM acts first, so a write with both is judged by the latches as it leaves
them; either condition that fails ignores the whole write (R606) (open points: DEDUCED, log 29). -/
def State.emiCtrlWrite (s : State) (src : Src) (rearm arm : Bool) : State :=
  let t := if rearm then s.clearLatches else s
  if (rearm && !s.mayRearm) || (arm && !t.mayArm) then s.ignoreReg src 0xC000 else t.setArm arm

/-- The meaning of REARM. -/
def execRearm (src : Src) (arm : Bool) (s : State) : Host.Outcome State Fault Refusal := actBy src s (s.emiCtrlWrite src true arm)

/-- The meaning of ARM. -/
def execArm (src : Src) (s : State) : Host.Outcome State Fault Refusal := actBy src s (s.emiCtrlWrite src false true)

/-- The meaning of DISARM. -/
def execDisarm (src : Src) (s : State) : Host.Outcome State Fault Refusal := actBy src s (s.emiCtrlWrite src false false)

/-! ### Hard inhibit -/

/-- The level of EMI_INH_N, kept whether or not the part is in reset (R85). -/
def State.setInhN (s : State) (b : Bool) : State := { s with emi := { s.emi with inhN := b } }

/-- EMI_STAT.INH follows a low pin: every output is inactive and pulses in progress are cut short (R85). -/
def State.inhAssert (s : State) : State :=
  let s := s.putKept F.EMI_STAT_INH 1
  let s := s.keep keyRise (match s.emi.inhRise with
    | some t => t + 1
    | none => 0)
  let s := { s with emi := { s.emi with inhRise := none, pulses := [] } }
  match s.emi.rowWait with
  | some (r, t) => s.rowChange (max t (16 * s.dt)) r
  | none => s

/-- HARD_INHIBIT_ASSERT: EMI_INH_N falls. -/
def execHardInhibitAssert (s : State) : Host.Outcome State Fault Refusal :=
  if s.inReset then .next (s.setInhN false) else act s (s.setInhN false).inhAssert

/-- EMI_STAT.INH follows a pin that rises at t (R85). -/
def State.inhRelease (s : State) (t : Nat) : State :=
  if s.is F.EMI_STAT_INH then
    let s := s.at t
    let s := (s.putKept F.EMI_STAT_INH 0).keep keyRise 0
    { s with emi := { s.emi with inhRise := some t } }
  else s

/-- HARD_INHIBIT_RELEASE: EMI_INH_N rises at t. -/
def execHardInhibitRelease (t : Nat) (s : State) : Host.Outcome State Fault Refusal :=
  if s.inReset then .next (s.setInhN true) else act s ((s.setInhN true).inhRelease t)

/-- A write of EMI_AXMAP (R87); what it was is kept for fires before the write (R86). -/
def State.axmapWrite (s : State) (src : Src) (k : Nat) (v : Word) : State :=
  if s.is F.EMI_CTRL_ARM then s.ignoreReg src (0xC060 + 4 * k) else s.putKept (F.EMI_AXMAP_AXM k) v.toNat

end Sys2Proof.Machine
end

