-- ==== Sys2Proof/Machine/Axes.lean ====
section
/-!
DEFINITION. The scan axes: registers, limiter, control law, coefficient records, resonant mode, drive link and trace (R268 to
R312).
-/
namespace Sys2Proof.Machine

/-! ### Ownership of converter inputs (R315, R316) -/

/-- The owner of input m of converter n. -/
def ownFld (n m : Nat) : Fld := ⟨0x48020 + 4 * n, 2 * m, 2⟩

/-- The enabled axis that converter n serves. -/
def State.axisOn (s : State) (n : Nat) : Option Nat :=
  (List.range 4).find? fun a => s.is (F.AXS_CTRL_EN a) && s.get (F.AXS_SENS_CONV a) = n

/-- The owner of the converter input that AXS_SENSa names. -/
def State.axisOwn (s : State) (a : Nat) : Fld := ownFld (s.get (F.AXS_SENS_CONV a)) (s.get (F.AXS_SENS_INPUT a))

/-! ### The edges of the common trigger (R317, R318, R320) -/

/-- Converter n. -/
def State.adc (s : State) (n : Nat) : Adc := s.sns.adcs.getD n ⟨[], [], 0, 0, none⟩

/-- Converter n replaced. -/
def State.setAdc (s : State) (n : Nat) (c : Adc) : State :=
  if h : n < 4 then { s with sns := { s.sns with adcs := s.sns.adcs.set n c h } } else s

/-- The first sample instant of axis a at or after t (R270). -/
def State.nextSample (s : State) (a t : Nat) : Nat :=
  let off := 16 * s.get (F.AXS_TIME_PHASE a)
  let n := 16 * s.get (F.AXS_TIME_PERIOD a)
  if t ≤ off then off else off + n * ((t - off + n - 1) / n)

/-- The first edge at or after t at which converter n, which runs nothing then, may start a conversion: outside the gap of the enabled
axis that it serves it waits for the end of that axis's conversion; before the axis was enabled every edge was free (R317, R318)
(open points: DEDUCED, log 64). -/
def State.gapEdge (s : State) (n t : Nat) : Nat := match s.axisOn n with
  | some a => if t < (s.axis a).since || t + 4800 ≤ s.nextSample a t then t else s.nextSample a t + 1600
  | none => t

/-- The edge at which converter n starts its next conversion, the first that R318 allows after a request has been raised (R320)
(open points: DEDUCED, log 64). -/
def State.convEdge (s : State) (n : Nat) : Option Nat := match (s.adc n).reqs.map (·.start) with
  | q :: qs => some (s.gapEdge n (max (s.adc n).free (qs.foldl min q)))
  | [] => none

/-- Axis a is about to release its converter: a request that waits for its gap starts where the gap lets it, or once the axis is disabled, no
earlier (R318, R320) (open points: DEDUCED, log 64). -/
def State.edgesHeld (s : State) (a : Nat) : State :=
  let n := s.get (F.AXS_SENS_CONV a)
  match s.convEdge n with
  | some e => s.setAdc n { s.adc n with free := max (s.adc n).free (min e s.dt) }
  | none => s

/-! ### Law records (R279, R280) -/

/-- The first byte of law record r of axis a. -/
def lawRec (a r : Nat) : Nat := 0x8A0000 + 0x1000 * a + 0x100 * r

/-- Whether a record is valid: every word readable and its reserved bits 0 (R280, R543). -/
def State.recOk (s : State) (a r : Nat) : Bool :=
  let b := lawRec a r
  s.rangeOk b 256 && s.num b 4 / 4096 = 0 && s.num (b + 16) 4 < 2 ^ 31
    && ((List.range 6).all fun j => s.num (b + 52 + 24 * j) 4 = 0) && s.num (b + 176) 80 = 0

/-- A record comes into force and is counted; the integrator follows at the next computation, change by change (R282). An invalid one does not
(open points: DESIGN CHOICE, log 59). -/
def State.recordIn (s : State) (a r : Nat) : State :=
  let old := s.get (F.AXS_REC_CUR a)
  let s := s.touchRange (lawRec a r) 256
  if old = r || !s.recOk a r then s
  else
    let x := s.axis a
    let x := { x with recOld := x.recOld ++ [old], period := x.period.map fun (p : Period) => { p with changed := true } }
    ((s.put (F.AXS_REC_CUR a) r).count (F.AXS_CNT_COUNT a 4)).setAxis a x

/-- The pending record after its frame mark, or the scheduled one, at a sample instant (R283, R285)
(open points: DESIGN CHOICE, log 60). -/
def State.recordDue (s : State) (a : Nat) : State :=
  let x := s.axis a
  let s := match x.recNext with
    | some r => (s.setAxis a { x with recNext := none }).recordIn a r
    | none => s
  if s.is (F.AXS_REC_PENDV a) && x.recMark then
    let r := s.get (F.AXS_REC_PEND a)
    let s := s.setAxis a { s.axis a with recMark := false }
    (((s.recordIn a r).put (F.AXS_REC_PENDV a) 0).put (F.AXS_REC_PEND a) 0).eventIf (s.recOk a r) 20
  else s

/-- A frame mark acts: pending records wait for their axis's first sample instant (R283). -/
def State.axisMark (s : State) : State :=
  (List.range 4).foldl (fun s a => if s.is (F.AXS_REC_PENDV a) then s.setAxis a { s.axis a with recMark := true } else s) s

/-- A write to AXS_RECa (R283) (open points: DESIGN CHOICE, log 60). -/
def State.recWrite (s : State) (src : Src) (a : Nat) (v : Word) : State :=
  let sel := (F.AXS_REC_SEL a).of v
  let go := (F.AXS_REC_GO a).isOf v
  let s := s.touchRange (lawRec a (sel % 8)) 256
  if go && (1 < sel || sel = s.get (F.AXS_REC_CUR a) || !s.recOk a sel || s.solo) then s.ignoreReg src (F.AXS_REC_SEL a).off
  else
    let s := s.put (F.AXS_REC_SEL a) sel
    if !s.is (F.AXS_CTRL_EN a) then s.recordIn a sel
    else if go then ((s.put (F.AXS_REC_PENDV a) 1).put (F.AXS_REC_PEND a) sel).setAxis a { s.axis a with recMark := false }
    else s

/-- The meaning of AXIS_RECORD_GO: a write of AXS_RECa with GO = 1. -/
def execAxisRecordGo (src : Src) (a : Fin 4) (v : Word) (s : State) : Host.Outcome State Fault Refusal :=
  actBy src s (s.recWrite src a.val (v ||| 0x8000#32))

/-! ### Gain scheduling (R284, R285) -/

/-- The region table of axis a: its first byte, COUNT, and LO and REC of an entry. -/
def regionBase (a : Nat) : Nat := 0x8A0800 + 0x1000 * a

/-- COUNT of the region table. -/
def State.regionCount (s : State) (a : Nat) : Nat := (s.table (regionBase a) 1).getD 0

/-- LO of region i. -/
def State.regionLo (s : State) (a i : Nat) : Int := sint 32 (s.num (regionBase a + 8 + 8 * i) 4)

/-- REC of region i. -/
def State.regionRec (s : State) (a i : Nat) : Nat := s.num (regionBase a + 12 + 8 * i) 1 % 8

/-- Whether the region table may be used: readable, COUNT from 1 to 8, LO of entries 1 and above rising, every record valid
(R284, R543). -/
def State.regionsOk (s : State) (a : Nat) : Bool :=
  let n := s.regionCount a
  1 ≤ n && n ≤ 8 && s.rangeOk (regionBase a) (8 + 8 * n)
    && ((List.range n).all fun i => i < 2 || s.regionLo a (i - 1) < s.regionLo a i)
    && ((List.range n).all fun i => s.recOk a (s.regionRec a i))

/-- A read of the region table, and of every record that its entries name (R37, R40). -/
def State.regionTouch (s : State) (a : Nat) : State :=
  let s := s.touchRange (regionBase a) 72
  (List.range (min 8 (s.regionCount a))).foldl (fun s i => s.touchRange (lawRec a (s.regionRec a i)) 256) s

/-- A write to AXS_SCHEDa (R284). -/
def State.schedWrite (s : State) (src : Src) (a : Nat) (v : Word) : State :=
  let en := (F.AXS_SCHED_EN a).isOf v
  let off := (F.AXS_SCHED_EN a).off
  let s := if en && s.solo then s.regionTouch a else s
  if en && (!s.solo || !s.regionsOk a) then s.ignoreReg src off
  else
    let start := en && !s.is (F.AXS_SCHED_EN a)
    let s := s.setReg off (v &&& 0xFFFFFF07#32)
    if start then s.setAxis a { s.axis a with region := 0 } else s

/-- The meaning of SCHEDULE_ENABLE: a write of AXS_SCHEDa with EN = 1. -/
def execScheduleEnable (src : Src) (a : Fin 4) (v : Word) (s : State) : Host.Outcome State Fault Refusal :=
  actBy src s (s.schedWrite src a.val (v ||| 1#32))

/-- The highest region i below n with i = 0 or LO of i at most x. -/
def State.regionAt (s : State) (a n : Nat) (x : Int) : Nat :=
  ((List.range n).filter fun i => i = 0 || s.regionLo a i ≤ x).getLastD 0

/-- The schedule variable (R285). -/
def State.schedVar (s : State) (a : Nat) (x v : Int) : Int := match s.get (F.AXS_SCHED_VAR a) with
  | 1 => (v.natAbs : Int)
  | 3 => sint 16 (s.get F.CAL_TEMP_TEMP)
  | _ => x

/-- A value with 16 fraction bits rounded to a whole one (open points: DESIGN CHOICE, log 59). -/
def whole (x : Int) : Int := (x + 32768) / 65536

/-- After the limiter of a period the region is selected, for the record of the next one (R285). An unreadable table selects none
(open points: DESIGN CHOICE, log 60). -/
def State.schedule (s : State) (a : Nat) : State :=
  let s := if s.is (F.AXS_SCHED_EN a) then s.touchRange (regionBase a) 72 else s
  let n := s.regionCount a
  if s.is (F.AXS_SCHED_EN a) && s.rangeOk (regionBase a) (8 + 8 * n) then
    let cur := (s.axis a).region
    let p := (s.axis a).plans.1
    let q := s.schedVar a (whole p.x) (whole p.v)
    let j := s.regionAt a n q
    let j := if j < cur && s.regionLo a cur - (s.get (F.AXS_SCHED_HYS a) : Nat) ≤ q then cur else j
    s.setAxis a { s.axis a with region := j, recNext := some (s.regionRec a j) }
  else s

/-- Whether a write to n bytes from BAR2 offset b touches a law record in force or pending, or in SOLO with scheduling the
region table or a record that it names (R281) (open points: DESIGN CHOICE, log 58). -/
def State.lawProtected (s : State) (b n : Nat) : Bool :=
  let hits : Nat → Nat → Bool := fun lo len => b < lo + len && lo < b + n
  (List.range 4).any fun a =>
    hits (lawRec a (s.get (F.AXS_REC_CUR a))) 256
      || (s.is (F.AXS_REC_PENDV a) && hits (lawRec a (s.get (F.AXS_REC_PEND a))) 256)
      || (s.solo && s.is (F.AXS_SCHED_EN a)
        && (hits (regionBase a) 72
          || (List.range (min 8 (s.regionCount a))).any fun i => hits (lawRec a (s.regionRec a i)) 256))

/-! ### Trace (R310 to R312) -/

/-- AXS_TRCSa.DONE set, with its event. -/
def State.traceDone (s : State) (a : Nat) : State := (s.put (F.AXS_TRCS_DONE a) 1).event 17

/-- A signed value as little-endian bytes. -/
def sBytes (n : Nat) (x : Int) : List Byte := leBytes n (uint (8 * n) x)

/-- The bytes of the trace entry of a period (R311) (open points: DESIGN CHOICE, log 60). -/
def State.traceEntry (s : State) (a : Nat) (x : Axis) (p : Period) : List Byte :=
  let flags := b01 p.repeated + 2 * b01 p.invalid + 4 * b01 p.clamp + 8 * b01 p.noAck + 16 * b01 (s.is (F.AXS_STAT_FAULT a))
    + 32 * b01 p.changed
  leBytes 4 p.t ++ leBytes 3 (s.get (F.AXS_POS_Y a)) ++ leBytes 1 flags ++ sBytes 3 (whole x.plans.1.x) ++ sBytes 3 x.raw
    ++ sBytes 3 (satInt 24 p.fe) ++ sBytes 3 p.drive ++ sBytes 4 x.integ
    ++ leBytes 2 (match p.reading with
      | some r => r.code
      | none => 0)
    ++ leBytes 1 (s.get (F.AXS_REC_CUR a)) ++ leBytes 1 0 ++ sBytes 4 x.plans.1.v

/-- An entry written: the write pointer moves, a ring wraps, a full ONESHOT region and a ring after a fault stop (R312). -/
def State.traceWrite (s : State) (a : Nat) (entry : List Byte) : State :=
  let w := s.get (F.AXS_TRCS_WPTR a)
  let s := s.store (0x1000000 + 4096 * s.get (F.AXS_TRC_BASE a) + 32 * w) entry
  let full := 128 * s.get (F.AXS_TRC_LEN a) ≤ w + 1
  let s := s.put (F.AXS_TRCS_WPTR a) (if full && s.get (F.AXS_TRC_MODE a) = 1 then 0 else w + 1)
  let s := if full then (if s.get (F.AXS_TRC_MODE a) = 1 then s.put (F.AXS_TRCS_WRAP a) 1 else s.traceDone a) else s
  let x := s.axis a
  match x.left with
  | some n =>
    let s := s.setAxis a { x with left := some (n - 1) }
    if n ≤ 1 && !s.is (F.AXS_TRCS_DONE a) then s.traceDone a else s
  | none => s

/-- The entry of a period that has ended: one every DEC + 1 periods (R311) (open points: DESIGN CHOICE, log 60). -/
def State.traceDue (s : State) (a : Nat) : State :=
  let x := s.axis a
  match x.period with
  | some p =>
    if s.get (F.AXS_TRC_MODE a) = 0 || s.is (F.AXS_TRCS_DONE a) then s
    else if x.skipped = 0 then
      (s.setAxis a { x with skipped := s.get (F.AXS_TRC_DEC a) }).traceWrite a (s.traceEntry a x p)
    else s.setAxis a { x with skipped := x.skipped - 1 }
  | none => s

/-- The pages that the trace regions of other axes own (R310). -/
def State.cellarTaken (s : State) (a base len : Nat) : Bool :=
  (List.range 4).any fun b => b ≠ a && s.get (F.AXS_TRC_MODE b) ≠ 0 && base < s.get (F.AXS_TRC_BASE b) + s.get (F.AXS_TRC_LEN b)
    && s.get (F.AXS_TRC_BASE b) < base + len

/-- A write to AXS_TRCa: a mode other than 0 takes its region and starts the trace; 0 releases it (R310, R312). -/
def State.trcWrite (s : State) (src : Src) (a : Nat) (v : Word) : State :=
  let mode := (F.AXS_TRC_MODE a).of v
  let len := (F.AXS_TRC_LEN a).of v
  let base := (F.AXS_TRC_BASE a).of v
  let off := (F.AXS_TRC_MODE a).off
  if mode = 3 || (mode ≠ 0 && (len = 0 || 256 < base + len || s.cellarTaken a base len)) then s.ignoreReg src off
  else
    let s := s.setReg off (v &&& 0xFFFFFFF3#32)
    if mode = 0 then s
    else
      let s := ((s.put (F.AXS_TRCS_WPTR a) 0).put (F.AXS_TRCS_WRAP a) 0).put (F.AXS_TRCS_DONE a) 0
      s.setAxis a { s.axis a with skipped := 0, left := none }

/-- The meaning of TRACE_CONFIG. -/
def execTraceConfig (src : Src) (a : Fin 4) (v : Word) (s : State) : Host.Outcome State Fault Refusal :=
  actBy src s (s.trcWrite src a.val v)

/-! ### Faults (R298 to R300) -/

/-- An axis fault, unless the axis is already faulted (R298, R299). -/
def State.axisFault (s : State) (a cause : Nat) : State :=
  if s.is (F.AXS_STAT_FAULT a) then s
  else
    let s := ((s.putKept (F.AXS_STAT_FAULT a) 1).put (F.AXS_STAT_CAUSE a) cause).put (F.AXS_STAT_RUN a) 0
    let ring := s.get (F.AXS_TRC_MODE a) = 1 && !s.is (F.AXS_TRCS_DONE a)
    let n := 16 * s.get (F.AXS_TRC_POST a)
    let x := s.axis a
    let x := { x with integ := 0, hist := Vector.replicate 7 (0, 0), recOld := [], left := if ring then some n else x.left }
    let s := (s.setAxis a x).raise Cause.axis a (detail := cause)
    let s := s.event 17
    if ring && n = 0 then s.traceDone a else s

/-- A CLR at the sample instant: the fault is cleared and the axis restarts (R289, R300) (open points: DESIGN CHOICE, log 58). -/
def State.clearDue (s : State) (a : Nat) : State :=
  let x := s.axis a
  if x.clr && s.is (F.AXS_STAT_FAULT a) then
    let s := ((s.putKept (F.AXS_STAT_FAULT a) 0).put (F.AXS_STAT_CAUSE a) 0).put (F.AXS_STAT_RUN a) (s.get (F.AXS_CTRL_EN a))
    let x := { x with clr := false, starting := true, ampNew := false, law := .idle, feRun := 0, lateRun := 0, badRun := 0, ackRun := 0 }
    (s.setAxis a x).event 17
  else s.setAxis a { x with clr := false }

/-! ### AXS_CTRLa (R269, R300, R301) -/

/-- The phase counted anew from a device time (R291). The span that ends is kept while a fire or the time cursor may ask for it. -/
def State.rebase (s : State) (a t : Nat) : State :=
  let x := s.axis a
  let old : Span := ⟨x.phaseAt, t, x.phase, s.get (F.AXS_FTW_FTW a)⟩
  let spans := if x.running && x.phaseAt < t then
      old :: x.spans.filter fun b => min s.horizon s.seq.fsq.tc ≤ b.stop + 1100
    else x.spans
  s.setAxis a { x with phase := s.phaseAt a t, phaseAt := t, spans := spans }

/-- Whether a write of EN = 1 is refused whatever EN holds (R301) (open points: DESIGN CHOICE, log 58). -/
def State.axisBarred (s : State) (a : Nat) (resonant : Bool) : Bool :=
  !s.is F.SYS_STAT_TBLOCK || !s.recOk a (s.get (F.AXS_REC_CUR a)) || !s.is (F.AXS_VMAX_VMAX a) || !s.is (F.AXS_AMAX_AMAX a)
    || (resonant && !s.is (F.AXS_FTW_FTW a))

/-- The axis takes its converter input, and starts with its next sample instant (R289, R315)
(open points: DESIGN CHOICE, log 58). -/
def State.axisStart (s : State) (a : Nat) : State :=
  let s := (s.put (s.axisOwn a) 1).putB (F.AXS_STAT_RUN a) (!s.is (F.AXS_STAT_FAULT a))
  let x := { s.axis a with starting := true, ampNew := false, running := false, sums := (0, 0, 0, 0), cycleDue := false, since := s.dt, period := none
                           law := .idle, feRun := 0, lateRun := 0, badRun := 0, ackRun := 0 }
  s.setAxis a x

/-- The axis stops: its input is released, its phase stands, the cycle in progress is dropped, and one SAFE frame is due (R291, R301, R315)
(open points: DESIGN CHOICE, log 58). -/
def State.axisStop (s : State) (a : Nat) : State :=
  let s := ((s.put (s.axisOwn a) 0).put (F.AXS_STAT_RUN a) 0).rebase a s.dt
  let x := { s.axis a with running := false, sums := (0, 0, 0, 0), cycleDue := false, period := none, law := .idle, closing := true }
  s.setAxis a x

/-- A write to AXS_CTRLa (open points: DESIGN CHOICE, log 58). -/
def State.axisCtrl (s : State) (src : Src) (a : Nat) (v : Word) : State :=
  let en := (F.AXS_CTRL_EN a).isOf v
  let s := if en then s.touchRange (lawRec a (s.get (F.AXS_REC_CUR a))) 256 else s
  let was := s.is (F.AXS_CTRL_EN a)
  let res := (F.AXS_CTRL_MODE a).isOf v
  let clr := (F.AXS_CTRL_CLR a).isOf v
  let off := (F.AXS_CTRL_EN a).off
  if (was && res ≠ s.is (F.AXS_CTRL_MODE a)) || (en && s.axisBarred a res)
      || (en && !was && (s.is (s.axisOwn a) || (s.axisOn (s.get (F.AXS_SENS_CONV a))).isSome))
      || (clr && !s.is (F.AXS_STAT_FAULT a)) then s.ignoreReg src off
  else
    let s := if was && !en then s.edgesHeld a else s
    let s := ((s.putKept (F.AXS_CTRL_EN a) (b01 en)).putKept (F.AXS_CTRL_MODE a) (b01 res)).setReg off (v &&& 0x1F#32)
    let s := if en && !was then s.axisStart a else if was && !en then s.axisStop a else s
    if clr then s.setAxis a { s.axis a with clr := true } else s

/-- The meaning of AXIS_ENABLE: a write of AXS_CTRLa with EN = 1. -/
def execAxisEnable (src : Src) (a : Fin 4) (v : Word) (s : State) : Host.Outcome State Fault Refusal :=
  actBy src s (s.axisCtrl src a.val (v ||| 1#32))

/-- The meaning of AXIS_DISABLE: a write of AXS_CTRLa with EN = 0. -/
def execAxisDisable (src : Src) (a : Fin 4) (v : Word) (s : State) : Host.Outcome State Fault Refusal :=
  actBy src s (s.axisCtrl src a.val (v &&& 0xFFFFFFFE#32))

/-- The meaning of AXIS_CLEAR: a write of AXS_CTRLa with CLR = 1. -/
def execAxisClear (src : Src) (a : Fin 4) (v : Word) (s : State) : Host.Outcome State Fault Refusal :=
  actBy src s (s.axisCtrl src a.val (v ||| 0x100#32))

/-! ### The other registers of an axis -/

/-- A write that keeps the register's fields, refused when it changes them while the axis is enabled (R269). -/
def State.axisHeld (s : State) (src : Src) (a off : Nat) (mask v : Word) (bad : Bool) : State :=
  if bad || (s.is (F.AXS_CTRL_EN a) && v &&& mask ≠ s.reg off) then s.ignoreReg src off else s.setReg off (v &&& mask)

/-- A write to AXS_TIMEa; what PERIOD was is kept for the angles of fires before the write (R295). -/
def State.timeWrite (s : State) (src : Src) (a : Nat) (v : Word) : State :=
  let p := (F.AXS_TIME_PERIOD a).of v
  let t := s.axisHeld src a (F.AXS_TIME_PERIOD a).off 0x3FFF3FFF#32 v (p < 500 || 10000 < p || p ≤ (F.AXS_TIME_PHASE a).of v)
  if t.get (F.AXS_TIME_PERIOD a) = s.get (F.AXS_TIME_PERIOD a) then t
  else (s.keep (F.AXS_TIME_PERIOD a).key (s.get (F.AXS_TIME_PERIOD a))).setReg (F.AXS_TIME_PERIOD a).off (v &&& 0x3FFF3FFF#32)

/-- A write to AXS_SENSa (R269, R271). -/
def State.sensWrite (s : State) (src : Src) (a : Nat) (v : Word) : State :=
  let own := ownFld ((F.AXS_SENS_CONV a).of v) ((F.AXS_SENS_INPUT a).of v)
  let mine := s.is (F.AXS_CTRL_EN a) && own = s.axisOwn a
  s.axisHeld src a (F.AXS_SENS_CONV a).off 0x0FFF003F#32 v (s.is own && !mine)

/-- A write to AXS_TMINa (lower) or AXS_TMAXa (R287). -/
def State.travelWrite (s : State) (src : Src) (a : Nat) (lower : Bool) (v : Word) : State :=
  let x := sint 24 v.toNat
  let off := if lower then (F.AXS_TMIN_TMIN a).off else (F.AXS_TMAX_TMAX a).off
  let bad : Bool := if lower then sint 24 (s.get (F.AXS_TMAX_TMAX a)) ≤ x else x ≤ sint 24 (s.get (F.AXS_TMIN_TMIN a))
  if bad then s.ignoreReg src off else s.setReg off (v &&& 0xFFFFFF#32)

/-- SETPOINT_WRITE: a write to AXS_SETa (R286). -/
def State.setWrite (s : State) (a : Nat) (v : Word) : State :=
  if s.is (F.AXS_CTRL_SRC a) then
    (s.put (F.AXS_SET_SET a) v.toNat).setAxis a { s.axis a with points := (s.axis a).points ++ [sint 24 v.toNat] }
  else s.count (F.AXS_CNT_COUNT a 5)

/-- The meaning of SETPOINT_WRITE. -/
def execSetpointWrite (src : Src) (a : Fin 4) (v : Word) (s : State) : Host.Outcome State Fault Refusal :=
  actBy src s (s.setWrite a.val v)

/-- FTW_WRITE: a write to AXS_FTWa (R291). -/
def State.ftwWrite (s : State) (src : Src) (a : Nat) (v : Word) : State :=
  if s.is (F.AXS_CTRL_TRACK a) || v = 0#32 || 2 ^ 32 < v.toNat * 128 * s.get (F.AXS_TIME_PERIOD a) then
    s.ignoreReg src (F.AXS_FTW_FTW a).off
  else
    let s := (s.rebase a s.dt).put (F.AXS_FTW_FTW a) v.toNat
    s.setAxis a { s.axis a with f0 := v.toNat }

/-- The meaning of FTW_WRITE. -/
def execFtwWrite (src : Src) (a : Fin 4) (v : Word) (s : State) : Host.Outcome State Fault Refusal :=
  actBy src s (s.ftwWrite src a.val v)

/-! ### The sample instant -/

/-- A set-point enters the limiter, clamped to the travel limits (R287) (open points: DESIGN CHOICE, log 59). -/
def State.pointIn (s : State) (a : Nat) (r : Int) : State :=
  let lo := sint 24 (s.get (F.AXS_TMIN_TMIN a))
  let lo := if s.is (F.AXS_CTRL_MODE a) then max lo 0 else lo
  let q := clampInt lo (sint 24 (s.get (F.AXS_TMAX_TMAX a))) r
  let s := if q = r then s else (s.put (F.AXS_STAT_CLAMP a) 1).count (F.AXS_CNT_COUNT a 3)
  let x := s.axis a
  s.setAxis a { x with raw := q, period := x.period.map fun (p : Period) => { p with clamp := p.clamp || q ≠ r } }

/-- The plan after a plan, towards the raw set-point (R288) (open points: DESIGN CHOICE, log 59). -/
def nextPlan (vmax amax : Nat) (r : Int) (p : Plan) : Plan :=
  let d := 65536 * r - p.x
  let m : Nat := (isqrt (amax * amax + 8 * amax * d.natAbs) - amax) / 2
  let vt : Int := d.sign * (min m (min d.natAbs vmax) : Nat)
  let c := clampInt (-(amax : Int)) amax (vt - p.v)
  ⟨p.x + (p.v + c), p.v + c, c⟩

/-- AXS_TRAJa shows the reference of the period. -/
def State.showTraj (s : State) (a : Nat) : State := s.put (F.AXS_TRAJ_X a) (uint 24 (whole (s.axis a).plans.1.x))

/-- The limiter's step: the plans move up and a new one is computed (R288) (open points: DESIGN CHOICE, log 59). -/
def State.limit (s : State) (a : Nat) : State :=
  let x := s.axis a
  let p := nextPlan (s.get (F.AXS_VMAX_VMAX a)) (s.get (F.AXS_AMAX_AMAX a)) x.raw x.plans.2.2
  (s.setAxis a { x with plans := (x.plans.2.1, x.plans.2.2, p) }).showTraj a

/-- A drive frame requested at a sample instant (R305). -/
def State.request (s : State) (a t : Nat) (kind : DKind) (word : Int) (resonant : Bool) : State :=
  { s with drv := { s.drv with reqs := s.drv.reqs ++ [⟨a, kind, word, resonant, t⟩] } }

/-- The frame of the period: SAFE while faulted, the word of the period before, or the previous word repeated (R273 to R275,
R299); none at the instant of a start (R300) (open points: DESIGN CHOICE, log 58). -/
def State.frameDue (s : State) (a t : Nat) : State :=
  let x := s.axis a
  if s.is (F.AXS_STAT_FAULT a) then s.request a t .safe (sint 18 (s.get (F.AXS_SAFE_WORD a))) false
  else match x.law with
    | .idle => s
    | .done u => if s.is (F.AXS_CTRL_MODE a) then s.request a t .drive (max u 0) true else s.request a t .drive (satInt 18 u) false
    | _ => s.request a t .repeat x.word false

/-- The SAFE frame after EN was cleared (R301). -/
def State.closeDue' (s : State) (a t : Nat) : State :=
  if (s.axis a).closing then
    (s.setAxis a { s.axis a with closing := false }).request a t .safe (sint 18 (s.get (F.AXS_SAFE_WORD a))) false
  else s

/-- A converter starts the conversion of the axis's sensor (R270, R317). -/
def State.axisConvert (s : State) (a t : Nat) : State :=
  let n := s.get (F.AXS_SENS_CONV a)
  if h : n < 4 then
    let c := s.sns.adcs[n]
    let c := { c with runs := c.runs ++ [⟨.axis a, s.get (F.AXS_SENS_INPUT a), t⟩], free := max c.free (t + 1600) }
    { s with sns := { s.sns with adcs := s.sns.adcs.set n c h } }
  else s

/-- Whether t is a sample instant of axis a (R270). -/
def State.isSample (s : State) (a t : Nat) : Bool :=
  let off := 16 * s.get (F.AXS_TIME_PHASE a)
  off ≤ t && (t - off) % (16 * s.get (F.AXS_TIME_PERIOD a)) = 0

/-- The period that starts at a sample instant (R270). -/
def State.newPeriod (s : State) (a t : Nat) : State :=
  let x := s.axis a
  let x := if s.is (F.AXS_CTRL_MODE a) && !x.running then { x with running := true, phaseAt := t } else x
  let s := s.setAxis a x
  let p : Period := ⟨t, s.phaseAt a t, none, false, false, false, false, false, x.word, 0⟩
  s.setAxis a { x with period := some p, law := .waiting }

/-! ### The control law (R277, R278) -/

/-- A coefficient product (R277). -/
def lawMul (k e : Int) : Int := satInt 32 ((k * e + 134217728) / 268435456)

/-- A saturating sum (R277). -/
def lawAdd (x y : Int) : Int := satInt 32 (x + y)

/-- A signed 32-bit field of the record at base b. -/
def State.coef (s : State) (b o : Nat) : Int := sint 32 (s.num (b + o) 4)

/-- Section j of the record at base b: its output from its input, the histories of its input and of its output. -/
def State.section (s : State) (b j : Nat) (x : Int) (hx hy : Int × Int) : Int :=
  let k : Nat → Int := fun i => s.coef b (32 + 24 * j + 4 * i)
  let y := lawAdd (lawAdd (lawMul (k 0) x) (lawMul (k 1) hx.1)) (lawMul (k 2) hx.2)
  lawAdd (lawAdd y (-(lawMul (k 3) hy.1))) (-(lawMul (k 4) hy.2))

/-- The signals s[0] to s[6] of a period, from s[0] and the histories. -/
def State.sections (s : State) (b : Nat) (hist : Vector (Int × Int) 7) : Nat → Nat → Int → List Int
  | 0, _, x => [x]
  | n + 1, j, x =>
    let y := if bit (s.num b 4) (1 + j) then s.section b j x (hist.getD j (0, 0)) (hist.getD (j + 1) (0, 0)) else x
    x :: s.sections b hist n (j + 1) y

/-- The integrator recomputed for a change of the record at old to the one at b, so that the PID section's output does not step (R282)
(open points: DESIGN CHOICE, log 59). -/
def State.bumpless (s : State) (old b : Nat) (integ e de : Int) : Int :=
  let lim := s.coef b 16
  let up := lawAdd (lawAdd integ (lawMul (s.coef old 4) e)) (lawMul (s.coef old 12) de)
  clampInt (-lim) lim (lawAdd (lawAdd up (-(lawMul (s.coef b 4) e))) (-(lawMul (s.coef b 12) de)))

/-- The integrator recomputed for each change of record since the computation before: from the records that were in force, the oldest first,
to the one in force, each change held to its own record's ILIM (R282) (open points: DESIGN CHOICE, log 59). -/
def State.reIntegrate (s : State) (a cur : Nat) (e de : Int) : List Nat → Int → Int
  | [], integ => integ
  | [r], integ => s.bumpless (lawRec a r) (lawRec a cur) integ e de
  | r :: q :: rs, integ => s.reIntegrate a cur e de (q :: rs) (s.bumpless (lawRec a r) (lawRec a q) integ e de)

/-- The law of a period (R278): the axis's new state and u, from its reference, measure, and trajectory velocity and
acceleration (open points: DESIGN CHOICE, log 59). -/
def State.law (s : State) (a : Nat) (x : Axis) (ref meas v c : Int) : Axis × Int :=
  let b := lawRec a (s.get (F.AXS_REC_CUR a))
  let ctl := s.num b 4
  let e := lawAdd ref (-meas)
  let de := lawAdd e (-x.ePrev)
  let i0 := s.reIntegrate a (s.get (F.AXS_REC_CUR a)) e de x.recOld x.integ
  let ki := lawMul (s.coef b 8) e
  let lim := s.coef b 16
  let wind := (x.usat = 1 && 0 < ki) || (x.usat = -1 && ki < 0)
  let i1 := if bit ctl 0 && !wind then clampInt (-lim) lim (lawAdd i0 ki) else i0
  let s0 := if bit ctl 0 then lawAdd (lawAdd (lawMul (s.coef b 4) e) i1) (lawMul (s.coef b 12) de) else e
  let sig := s.sections b x.hist 6 0 s0
  let f := if bit ctl 7 then lawAdd (lawAdd (lawMul (s.coef b 20) v) (lawMul (s.coef b 24) c)) (s.coef b 28) else 0
  let w := lawAdd (sig.getD 6 0) f
  let sh := bits ctl 8 4
  let u := if sh = 0 then w else lawAdd w ((2 ^ (sh - 1) : Nat) : Int) / ((2 ^ sh : Nat) : Int)
  let usat : Int := if 131071 < u then 1 else if u < -131072 then -1 else 0
  let hist := Vector.ofFn fun (j : Fin 7) => (sig.getD j.val 0, (x.hist[j]).1)
  ({ x with integ := i1, ePrev := e, usat := usat, hist := hist, recOld := [] }, u)

/-- The sensed angle of a code (R272). -/
def State.sensed (s : State) (a code : Nat) : Int :=
  satInt 24 ((((code : Int) - (s.get (F.AXS_SENS_SZERO a) : Nat)) * sint 24 (s.get (F.AXS_SGAIN_SGAIN a)) + 2048) / 4096)

/-! ### The start of the plans (R289) -/

/-- The measure of an axis: the sensed angle or the measured amplitude (R278). -/
def State.measure (s : State) (a : Nat) : Int :=
  if s.is (F.AXS_CTRL_MODE a) then (s.axis a).amp else sint 24 (s.get (F.AXS_POS_Y a))

/-- The following error: of the trajectory, never of the raw set-point; 0 before the plans have started (R290)
(open points: DESIGN CHOICE, log 59). -/
def State.followError (s : State) (a : Nat) : Int :=
  if (s.axis a).starting then 0 else whole (s.axis a).plans.1.x - s.measure a

/-- The period's trace shows its following error (R311) (open points: DESIGN CHOICE, log 59). -/
def State.showError (s : State) (a : Nat) : State :=
  s.setAxis a { s.axis a with period := (s.axis a).period.map fun (p : Period) => { p with fe := s.followError a } }

/-- The plans and the raw set-point start from the first valid sensed angle, or from the first amplitude that a cycle has formed since the
start (R289) (open points: DESIGN CHOICE, log 59). -/
def State.planStart (s : State) (a : Nat) : State :=
  let x := s.axis a
  if x.starting && (!s.is (F.AXS_CTRL_MODE a) || x.ampNew) then
    let m := s.measure a
    let p : Plan := ⟨65536 * m, 0, 0⟩
    ((s.setAxis a { x with starting := false, raw := m, plans := (p, p, p) }).showTraj a).schedule a
  else s

/-! ### Resonant mode (R291 to R294) -/

/-- A valid sample joins the cycle in progress (R293, R294). -/
def State.cycleAdd (s : State) (a phi : Nat) (y : Int) : State :=
  let x := s.axis a
  let dph := 65536 * s.get (F.AXS_RES_DPH a)
  let (n, c, q, j) := x.sums
  s.setAxis a { x with sums := (n + 1, c + y * cosPhase phi, q + y * sinPhase phi, j + y * sinPhase (phi + dph)) }

/-- FTW follows the cycle's J (R294) (open points: DESIGN CHOICE, log 60). -/
def State.track (s : State) (a n : Nat) (j : Int) : State :=
  let f0 : Int := (s.axis a).f0
  let dev : Int := (((s.axis a).f0 * s.get (F.AXS_RES_FDEV a) / 4096 : Nat) : Int)
  let step := 2 * j / ((n : Int) * one60 * ((2 ^ s.get (F.AXS_RES_KTR a) : Nat) : Int))
  (s.rebase a s.dt).put (F.AXS_FTW_FTW a) (uint 32 (clampInt (f0 - dev) (f0 + dev) ((s.get (F.AXS_FTW_FTW a) : Nat) + step)))

/-- The cycle's values are formed: I, Q and A from 4 valid samples on, and the tracked FTW (R293, R294)
(open points: DESIGN CHOICE, log 60). -/
def State.cycleForm (s : State) (a : Nat) : State :=
  let x := s.axis a
  let (n, c, q, j) := x.sums
  let x := { x with sums := (0, 0, 0, 0), cycleDue := false }
  let form : Int → Int := fun z => roundDiv (2 * z * 65536) ((n : Int) * one60)
  let iq := (form c, form q)
  let past := (x.iqPast.filter fun p => s.horizon ≤ p.1 + 1100) ++ [(s.dt, x.iq)]
  let x := if n < 4 then x
    else { x with iq := iq, iqPast := past, ampNew := true
                  amp := (((isqrt (iq.1 * iq.1 + iq.2 * iq.2).toNat + 32768) / 65536 : Nat) : Int) }
  let s := (s.setAxis a x).planStart a
  if s.is (F.AXS_CTRL_TRACK a) && n ≠ 0 then s.track a n j else s

/-- A cycle end that waited for the code of a sample before it (open points: DESIGN CHOICE, log 60). -/
def State.cycleLate (s : State) (a : Nat) : State := if (s.axis a).cycleDue then s.cycleForm a else s

/-- RESONANT_CYCLE_END: the phase wraps at t; a sample of that very tick is the first of the new cycle (R293) (open points: DESIGN CHOICE,
log 60). -/
def State.cycleEnd (s : State) (a t : Nat) : State :=
  let n := s.phaseSum a t
  if s.is F.SYS_STAT_TBLOCK && s.is (F.AXS_CTRL_EN a) && s.is (F.AXS_CTRL_MODE a) && (s.axis a).running && 2 ^ 32 ≤ n
      && n < 2 ^ 32 + s.get (F.AXS_FTW_FTW a) then
    let s := ((s.at t).rebase a t).feed 4 a (coarseStamp t)
    let x := s.axis a
    if x.period.any fun p => p.t < t && p.reading.isNone then s.setAxis a { x with cycleDue := true } else s.cycleForm a
  else s

/-- The meaning of RESONANT_CYCLE_END. -/
def execResonantCycleEnd (a : Fin 4) (t : Nat) (s : State) : Host.Outcome State Fault Refusal := act s (s.cycleEnd a.val t)

/-! ### The code of a sample -/

/-- A valid sensed angle after the latest one: the stamp of an upward zero crossing between samples of consecutive periods goes to the
meters whose hysteresis it has passed; one that straddles an invalid sample is not stamped (R329). -/
def State.zeroCross (s : State) (a t : Nat) (y : Int) : State :=
  let x := s.axis a
  match x.samples with
  | p :: _ =>
    let up : Bool := p.y < 0 && 0 ≤ y
    let stamp := coarseStamp (p.t + (roundDiv (((t - p.t : Nat) : Int) * -p.y) (y - p.y)).toNat)
    let low := x.low.getD 0
    let s := if up && t = p.t + 16 * s.get (F.AXS_TIME_PERIOD a) then
        (List.range 8).foldl (fun s i =>
          if s.metered i 3 a && low ≤ -((s.get (F.SNS_FMHYS_HYS i) : Nat) : Int) then s.giveMeter i stamp else s) s
      else s
    s.setAxis a { s.axis a with low := some (if up then y else min y (x.low.getD y)) }
  | [] => s.setAxis a { x with low := some y }

/-- A sample is invalid: its period is not computed (R275). -/
def State.sampleBad (s : State) (a : Nat) : State :=
  let x := s.axis a
  let x := { x with period := x.period.map fun (p : Period) => { p with invalid := true }
                    law := .missed, badRun := x.badRun + 1, lateRun := 0 }
  let s := (((s.setAxis a x).count (F.AXS_CNT_COUNT a 1)).cycleLate a).showError a
  if 2 ≤ x.badRun then s.axisFault a 3 else s

/-- A valid sample: the sensed angle, the latest samples, the meters' crossings, the cycle, the start of the plans (R272, R289, R293,
R295, R329). -/
def State.sampleGood (s : State) (a : Nat) (p : Period) (code : Nat) : State :=
  let y := s.sensed a code
  let s := s.zeroCross a p.t y
  let x := s.axis a
  let s := (s.put (F.AXS_POS_Y a) (uint 24 y)).setAxis a
    { x with samples := (⟨p.t, y, p.t + 1600⟩ :: x.samples).take 4, badRun := 0 }
  let s := if s.is (F.AXS_CTRL_MODE a) then s.cycleAdd a p.phi y else s
  ((s.cycleLate a).planStart a).showError a

/-- The code of the sample of instant t is available (R270, R272, R275). -/
def State.axisReading (s : State) (a t : Nat) (r : Reading) : State :=
  let x := s.axis a
  match x.period with
  | some p =>
    if p.t = t && p.reading.isNone then
      let s := s.setAxis a { x with period := some { p with reading := some r } }
      if r.ovr || r.undr then s.sampleBad a else s.sampleGood a p r.code
    else s
  | none => s

/-! ### The law computation -/

/-- The following error is judged (R290, R298). -/
def State.follow (s : State) (a : Nat) : State :=
  let x := s.axis a
  let run := if s.is (F.AXS_CTRL_FEEN a) && s.get (F.AXS_FE_FELIM a) < (s.followError a).natAbs then x.feRun + 1 else 0
  let s := (s.setAxis a { x with feRun := run, lateRun := 0 }).showError a
  if run ≠ 0 && s.get (F.AXS_FE_FETIME a) ≤ run then s.axisFault a 1 else s

/-- The computation of a period with a valid sample (R278, R290). Before the plans have started the reference is the measure
(open points: DESIGN CHOICE, log 59). -/
def State.compute (s : State) (a : Nat) : State :=
  let x := s.axis a
  let b := lawRec a (s.get (F.AXS_REC_CUR a))
  let s := s.touchRange b 176
  if !s.rangeOk b 176 then s.setAxis a { x with law := .abandoned }
  else
    let m := s.measure a
    let p := if x.starting then ⟨65536 * m, 0, 0⟩ else x.plans.1
    let (x, u) := s.law a x (whole p.x) m (whole p.v) (whole p.c)
    (s.setAxis a { x with law := .done u }).follow a

/-- LAW_DEADLINE: 64 coarse ticks before the next sample instant the computation has not completed (R274). -/
def State.lawLate (s : State) (a t : Nat) : State :=
  let x := s.axis a
  match x.period with
  | some p =>
    if (x.law = .waiting || x.law = .abandoned) && !s.is (F.AXS_STAT_FAULT a)
        && p.t + 16 * s.get (F.AXS_TIME_PERIOD a) ≤ t + 64 then
      let s := ((s.at t).setAxis a { x with law := .missed, lateRun := x.lateRun + 1 }).count (F.AXS_CNT_COUNT a 0)
      if 1 ≤ x.lateRun then (s.cycleLate a).axisFault a 2 else s.cycleLate a
    else s
  | none => s

/-- The order of R276: no other axis whose code was available earlier, or as early with a lower number, waits. -/
def State.lawTurn (s : State) (a t : Nat) : Bool :=
  (List.range 4).all fun b =>
    match (s.axis b).law, (s.axis b).period with
    | .waiting, some p => p.reading.isNone || b = a || t < p.t || (t = p.t && a < b)
    | _, _ => true

/-- LAW_COMPUTE: the computation of the period whose code is available; one that ends after the deadline is abandoned (R273, R274,
R276). -/
def State.lawCompute (s : State) (a : Nat) : State :=
  let x := s.axis a
  match x.law, x.period with
  | .waiting, some p =>
    if p.reading.isNone || !s.lawTurn a p.t then s
    else if s.is (F.AXS_STAT_FAULT a) then s.setAxis a { x with law := .idle }
    else if p.t + 16 * s.get (F.AXS_TIME_PERIOD a) < s.dt + 64 then s.lawLate a s.dt
    else s.compute a
  | _, _ => s

/-- The meaning of LAW_COMPUTE. -/
def execLawCompute (a : Fin 4) (s : State) : Host.Outcome State Fault Refusal := act s (s.lawCompute a.val)

/-- The meaning of LAW_DEADLINE. -/
def execLawDeadline (a : Fin 4) (t : Nat) (s : State) : Host.Outcome State Fault Refusal := act s (s.lawLate a.val t)

/-! ### A sample instant as a whole -/

/-- AXIS_SAMPLE: a sample instant of axis a (R270 to R289, R299 to R301, R311). -/
def State.axisSample (s : State) (a t : Nat) : State :=
  if !s.is F.SYS_STAT_TBLOCK || !s.isSample a t || (s.axis a).period.any (fun p => t ≤ p.t) then s
  else
    let s := (((((s.at t).lawLate a t).cycleLate a).setptsUntil (16 * t)).traceDue a).clearDue a
    let s := s.closeDue' a t
    if !s.is (F.AXS_CTRL_EN a) then s
    else
      let s := (s.frameDue a t).newPeriod a t
      let s := s.recordDue a
      let s := (s.axis a).points.foldl (fun s r => s.pointIn a r) s
      let s := s.setAxis a { s.axis a with points := [] }
      let s := if (s.axis a).starting then s else (s.limit a).schedule a
      (s.showError a).axisConvert a t

/-- The meaning of AXIS_SAMPLE. -/
def execAxisSample (a : Fin 4) (t : Nat) (s : State) : Host.Outcome State Fault Refusal := act s (s.axisSample a.val t)

/-! ### The drive link (R303 to R309) -/

/-- CRC-8 of 24 bits, polynomial 0x07, from the highest bit down (R304). -/
def crc8 (v : Nat) : Nat → Nat → Nat
  | 0, c => c
  | n + 1, c =>
    let c' := c * 2 % 256
    crc8 v n (if (bit v n) != bit c 7 then c' ^^^ 7 else c')

/-- KIND of a frame. -/
def DKind.code : DKind → Nat
  | .drive => 0
  | .repeat => 1
  | .safe => 2

/-- The bits of a frame (R304) (open points: DESIGN CHOICE, log 102). -/
def driveBits (axis seq : Nat) (kind : DKind) (word : Int) : Nat :=
  let v := 2 ^ 22 * axis + 2 ^ 20 * kind.code + 2 ^ 18 * seq + uint 18 word
  256 * v + crc8 v 24 0

/-- The request that the next free edge serves: the lowest axis of those made by then (R305)
(open points: DESIGN CHOICE, log 62). -/
def State.nextReq (s : State) (t : Nat) : Option DReq :=
  (List.range 4).findSome? fun a => s.drv.reqs.find? fun q => q.axis = a && q.t ≤ t

/-- The word of a frame that starts at t: of a RESONANT frame the sine, accurate to ±1 of the word (R292)
(open points: DESIGN CHOICE, log 61). -/
def State.frameWord (s : State) (q : DReq) (t : Nat) : State × Int :=
  if q.resonant then
    let p := s.phaseAt q.axis t + 65536 * s.get (F.AXS_RES_DPH q.axis)
    let off : Int := ((s.fresh.toNat % 3 : Nat) : Int) - 1
    (s.draw, satInt 18 (roundDiv (q.word * sinPhase p) one60 + off))
  else (s, q.word)

/-- Whether t is the first falling edge of DRVCLK on which the link is free for the requests made: of the edges every 64 coarse ticks,
whose phase is known once a frame has shown it (R303, R305) (open points: DESIGN CHOICE, log 62). -/
def State.firstEdge (s : State) (t : Nat) : Bool :=
  match s.drv.reqs.map (·.t) with
  | q :: qs =>
    let from_ := max s.drv.free (qs.foldl min q)
    from_ ≤ t && t < from_ + 64 && match s.drv.edge with
      | some e => t % 64 = e % 64
      | none => true
  | [] => false

/-- DRIVE_FRAME: a requested frame starts at the edge t (R304, R305) (open points: DESIGN CHOICE, log 62). -/
def State.driveFrame (s : State) (t : Nat) : State :=
  if !s.is F.SYS_STAT_TBLOCK || !s.firstEdge t then s
  else match s.nextReq t with
    | some q =>
      let (s, w) := (s.at t).frameWord q t
      let x := s.axis q.axis
      let sent : DSent := ⟨q.axis, x.seq, t + 992 + 3200⟩
      let frame := driveBits q.axis x.seq q.kind w
      let s := { s with drv := ⟨dropFirst (fun r => r = q) s.drv.reqs, t + 1024, s.drv.sent ++ [sent], some t, frame⟩ }
      let p := x.period.map fun (p : Period) => { p with drive := w, repeated := q.kind = .repeat }
      let s := s.setAxis q.axis { x with word := w, seq := (x.seq + 1) % 4, period := p }
      (s.putB (F.AXS_STAT_REPEAT q.axis) (q.kind = .repeat)).out (.driveFrame frame t)
    | none => s

/-- The meaning of DRIVE_FRAME. -/
def execDriveFrame (t : Nat) (s : State) : Host.Outcome State Fault Refusal := act s (s.driveFrame t)

/-- The oldest unacknowledged frame is missing (R309) (open points: DESIGN CHOICE, log 62). -/
def State.ackMissing (s : State) : State :=
  match s.drv.sent with
  | f :: rest =>
    let s := ({ s with drv := { s.drv with sent := rest } }).count (F.AXS_CNT_COUNT f.axis 2)
    let x := s.axis f.axis
    let s := s.setAxis f.axis { x with ackRun := x.ackRun + 1, period := x.period.map fun (p : Period) => { p with noAck := true } }
    if 1 ≤ x.ackRun then s.axisFault f.axis 4 else s
  | [] => s

/-- ACK_TIMEOUT: the oldest frame is not acknowledged within the time of R307 (R309). -/
def State.ackTimeout (s : State) (t : Nat) : State :=
  match s.drv.sent with
  | f :: _ => if f.until_ < t then (s.at t).ackMissing else s
  | [] => s

/-- The meaning of ACK_TIMEOUT. -/
def execAckTimeout (t : Nat) (s : State) : Host.Outcome State Fault Refusal := act s (s.ackTimeout t)

/-- DRIVE_ACK: an acknowledgement whose start bit is sampled at t matches the oldest frame whose time has not run out, or is discarded
(R307 to R309) (open points: DESIGN CHOICE, log 62). -/
def State.driveAck (s : State) (axis seq : Nat) (stat : Bool) (t : Nat) : State :=
  let s := s.at t
  let s := (s.drv.sent.filter fun f => f.until_ < t).foldl (fun s _ => s.ackMissing) s
  match s.drv.sent with
  | f :: rest =>
    if f.axis = axis && f.seq = seq then
      let s := { s with drv := { s.drv with sent := rest } }
      let s := s.setAxis axis { s.axis axis with ackRun := 0 }
      if stat then s.axisFault axis 5 else s
    else (s.count (F.AXS_CNT_COUNT axis 6)).ackMissing
  | [] => s.count (F.AXS_CNT_COUNT axis 6)

/-- The meaning of DRIVE_ACK. -/
def execDriveAck (axis : Fin 4) (seq : BitVec 2) (stat : Bool) (t : Nat) (s : State) : Host.Outcome State Fault Refusal :=
  act s (s.driveAck axis.val seq.toNat stat t)

/-! ### Crossing times (R296, R395) -/

/-- The time at which the plan, from p at t to q a period later, crosses a target in a direction: 0 upward, 1 downward, 2
either (open points: DEDUCED, log 63). -/
def planCross (target : Int) (dir t period : Nat) (p q : Plan) : Option Nat :=
  let g := 65536 * target
  let up := dir ≠ 1 && p.x < g && g ≤ q.x
  let down := dir ≠ 0 && g < p.x && q.x ≤ g
  if up || down then some (t + (roundDiv (((g - p.x).natAbs : Int) * period) ((q.x - p.x).natAbs : Int)).toNat) else none

/-- The first device time at or after c0 in a span at which the upper 16 bits of the phase reach a target: c0 itself where the tick before it
lies short of the target (R296) (open points: DEDUCED, log 63). -/
def Span.reach (b : Span) (target c0 : Nat) : Option Nat :=
  let c := max c0 b.t
  let past := (b.at c % 2 ^ 32 + 2 ^ 32 - 65536 * (target % 65536)) % 2 ^ 32
  let t := if past = 0 || (b.t < c && past < b.ftw) then c else c + (2 ^ 32 - past + b.ftw - 1) / b.ftw
  if b.ftw ≠ 0 && t ≤ b.stop then some t else none

/-- The crossing time that an axis publishes, at or after a device time in subticks (R296) (open points: DEDUCED, log 63). -/
def State.crossing (s : State) (a target dir tc : Nat) : Option Nat :=
  let x := s.axis a
  let c0 := (tc + 15) / 16
  if s.is (F.AXS_CTRL_MODE a) then
    let now : Span := ⟨x.phaseAt, max c0 x.phaseAt + 2 ^ 32, x.phase, s.get (F.AXS_FTW_FTW a)⟩
    if x.running then (x.spans.reverse ++ [now]).findSome? fun b => b.reach target c0 else none
  else match x.period with
    | some p =>
      if x.starting then none
      else
        let n := 16 * s.get (F.AXS_TIME_PERIOD a)
        let g := sint 24 target
        ([planCross g dir p.t n x.plans.1 x.plans.2.1, planCross g dir (p.t + n) n x.plans.2.1 x.plans.2.2].filterMap id).find?
          fun c => c0 ≤ c
    | none => none

/-- The axis is disabled or faulted: a WAITA on it completes at once (R297). -/
def State.axisOut (s : State) (a : Nat) : Bool := s.is (F.AXS_STAT_FAULT a) || !s.is (F.AXS_CTRL_EN a)

end Sys2Proof.Machine
end

