-- ==== Sys2Proof/Machine/Returns.lean ====
section
/-!
DEFINITION. Return timing: crossings and event words, dead time, saturation, thresholds at shot boundaries, start channels and
pairing, path faults and spares (03_return_timing.md, R533).
-/
namespace Sys2Proof.Machine

/-! ### Timing paths -/

/-- The record number of the path that stamps a crossing of channel ch. -/
def viaNum (ch : Nat) : Via → Nat
  | .own => ch
  | .spare => 512 + ch / 32
  | .start s => 528 + s.val
  | .stcs => 532

/-- The spare of a channel's group is connected to the channel: owned for it, or in shadow of it (R121, R265). -/
def State.spareOn (s : State) (ch : Nat) : Bool :=
  let k := ch / 32
  !s.is (F.RGP_SPC_FAIL k) &&
    ((s.get (F.RGP_SPC_OWNER k) ≠ 0 && s.get (F.RGP_SPC_TARGET k) = ch % 32) || s.cal.shadow.contains (512 + k, ch))

/-- A spare's handover. -/
def State.spare (s : State) (k : Nat) : SpareSt := s.ret.spares.getD k ⟨0, false, false⟩

/-- The channel's traffic is carried by its group's spare (R121). -/
def State.spared (s : State) (ch : Nat) : Bool :=
  let k := ch / 32
  s.get (F.RGP_SPC_OWNER k) ≠ 0 && s.get (F.RGP_SPC_TARGET k) = ch % 32 && (s.spare k).serving

/-- The path stamps crossings of the channel: an enabled channel in service whose own path is not replaced, a connected spare,
a start path that calibrates from it (R97, R125, R128, R238). -/
def State.stamps (s : State) (ch : Nat) (via : Via) : Bool :=
  s.is F.SYS_STAT_TBLOCK && s.is (F.RET_CFG_EN ch) && !s.is (F.RET_STAT_OOS ch) &&
    match via with
    | .own => !(s.spared ch && s.get (F.RGP_SPC_OWNER (ch / 32)) = 2)
    | .spare => s.spareOn ch
    | .start st => match s.cal.stcal with
      | some c => c.st = st.val && c.switched && c.donor && s.get F.CAL_STDON_DONOR = ch
      | none => false
    | .stcs => s.cal.shadow.contains (532, ch)

/-- The path carries the channel's traffic. -/
def State.carries (s : State) (ch : Nat) (via : Via) : Bool := match via with
  | .own => !s.spared ch
  | .spare => s.spared ch
  | .start _ => false
  | .stcs => false

/-- A timing path's state. -/
def State.path (s : State) (i : Nat) : PathSt := FMap.get (fun _ => ⟨none, 0⟩) s.ret.paths i

/-- A timing path's state replaced. -/
def State.setPath (s : State) (i : Nat) (p : PathSt) : State :=
  { s with ret := { s.ret with paths := FMap.set (fun _ => ⟨none, 0⟩) s.ret.paths i p } }

/-- The result of a stamp's self-check kept, and a failure counted in FLT_CNT9 (R533) (open points: DEDUCED, log 37). -/
def State.selfCheck (s : State) (i : Nat) (ok : Bool) : State :=
  let h := (2 * FMap.nat s.ret.checks i + b01 (!ok)) % 2 ^ 1024
  let s := { s with ret := { s.ret with checks := FMap.setNat s.ret.checks i h } }
  if ok then s else s.count (F.FLT_CNT_COUNT 9)

/-- Four failures within 1,024 consecutive stamps of a path (R533) (open points: DEDUCED, log 37). -/
def State.failing (s : State) (i : Nat) : Bool := 4 ≤ popcount 1024 (FMap.nat s.ret.checks i)

/-- The DLL behind a path is locked (R105). -/
def State.dllOk (s : State) (i : Nat) : Bool :=
  if i < 512 then bit (s.get F.RGP_DLL_LOCK) (i / 32)
  else if i < 528 then bit (s.get F.RGP_DLL_LOCK) (i - 512)
  else s.ret.startDll

/-! ### Counting -/

/-- One more in the channel's rate window, and one more crossing for sweep and servo where HIT is not set (R244, R245). -/
def State.rateCount (s : State) (ch : Nat) (stamped hit : Bool) : State :=
  let inc := fun (m : FMap Nat) (b : Bool) => if b then FMap.setNat m ch (FMap.nat m ch + 1) else m
  let sw : FMap (Option Sweep) := match FMap.get (fun _ => none) s.cal.sweeps ch with
    | some w => if hit then s.cal.sweeps else FMap.set (fun _ => none) s.cal.sweeps ch (some { w with r := w.r + 1 })
    | none => s.cal.sweeps
  { s with cal := { s.cal with rate := inc s.cal.rate stamped, cross := inc s.cal.cross (!hit), sweeps := sw } }

/-- The gates of a channel that hold a coarse time. -/
def State.gatesAt (s : State) (ch c : Nat) : List Gate :=
  s.ret.gates.filter fun g => g.ch = ch && g.opens ≤ c && c < g.closes

/-- A crossing lost in dead time (R107): RET_PILEUP, and the count of the gates that hold it, for the contexts of their slots (R141). -/
def State.pileup (s : State) (ch c : Nat) : State :=
  let s := (s.count (F.RET_PILEUP_COUNT ch)).rateCount ch false false
  let more : Gate → Gate := fun g => if g.ch = ch && g.opens ≤ c && c < g.closes then { g with pile := g.pile + 1 } else g
  { s with ret := { s.ret with gates := s.ret.gates.map more } }

/-! ### Group queues -/

/-- A group's queue state. -/
def State.group (s : State) (g : Nat) : Group := s.ret.groups.getD g ⟨[], [], false⟩

/-- A group's queue state replaced. -/
def State.setGroup (s : State) (g : Nat) (x : Group) : State :=
  { s with ret := { s.ret with groups := s.ret.groups.setIfInBounds g x } }

/-- Nominal time of an event in fine LSB (R162). -/
def Ev.nominal (e : Ev) : Nat := 64 * e.c + e.f

/-- The CTX_COIN word in force for a channel (R166). -/
def State.coinWord (s : State) (ch : Nat) : Nat := s.inForce ch 3 (s.reg (0x34040 + 4 * (ch / 32))).toNat

/-- A loss record made, or extended in its old place to the stamp of one more event (R168) (open points: DESIGN CHOICE, log 107). -/
def lossAdd (ch x : Nat) (q : List QItem) : List QItem :=
  let mine : QItem → Bool := fun i => match i with
    | .loss c _ _ => c = ch
    | .ev _ => false
  let more : QItem → QItem := fun i => match i with
    | .loss c f l => .loss c (min f x) (max l x)
    | .ev e => .ev e
  if q.any mine then modFirst mine more q else q ++ [.loss ch x x]

/-- The gates of an event that are still known. -/
def State.gatesOf (s : State) (e : Ev) : List Gate := s.ret.gates.filter fun g => e.gates.contains g.id

/-- The shots whose gates hold an event (R611) (open points: DEDUCED, log 38). -/
def State.shotsOf (s : State) (e : Ev) : List Shot :=
  (s.gatesOf e).filterMap fun g => s.ret.shots.find? fun h => g.slot = some h.slot

/-- A gate's slot is settled: it has one, or can have none any more: it is closed, and no fire command of its time waits. -/
def State.settled (s : State) (g : Gate) : Bool :=
  g.slot.isSome || !s.is F.SYS_STAT_TBLOCK
    || (g.closed && s.emi.tq.all fun d => d.kind.plain.fire?.isNone || 16 * g.closes ≤ d.due)

/-- The accumulator can take the event: its gates have their slots, and its shots their starts (R115, R116)
(open points: DEDUCED, log 38). -/
def State.ready (s : State) (e : Ev) : Bool :=
  e.passed && (s.gatesOf e).all s.settled && (s.shotsOf e).all fun h => !h.fired || h.start.isSome

/-- An event word that is still before its group's filter: not decided yet, or, with the filter off, not held by the accumulator for its
shot's start (R116, R167) (open points: DEDUCED, log 107). -/
def State.queued (s : State) : QItem → Bool
  | .ev e => !e.passed || (!bit e.stamp.coin 0 && s.ready e)
  | .loss .. => false

/-- An item is an event that the filter has not decided (open points: DESIGN CHOICE, log 42). -/
def QItem.undecided : QItem → Bool
  | .ev e => !e.passed
  | .loss .. => false

/-- The paths that may stamp a channel. -/
def viasOf : List Via := [.own, .spare, .start 0, .start 1, .start 2, .start 3, .stcs]

/-- The pulses in progress whose words are still to be formed for a channel's traffic, by their rising stamps in fine LSB (R101). -/
def State.dueStamps (s : State) (ch : Nat) : List Nat :=
  (viasOf.filter fun via => s.carries ch via && s.stamps ch via).filterMap fun via => match (s.path (viaNum ch via)).pulse with
    | some p => if p.due then some (64 * p.c + p.f) else none
    | none => none

/-- No event of a group that is still to be decided has an earlier nominal time than this; with it, stamps that none can be compared with any
more are dropped (R162) (open points: DESIGN CHOICE, log 42). -/
def State.pruneRecent (s : State) (g : Nat) (q : List QItem) (recent : List (Nat × Nat)) : List (Nat × Nat) :=
  let waiting := q.filterMap fun i => match i with
    | .ev e => if e.passed then none else some e.nominal
    | .loss .. => none
  let forming := (List.range 32).flatMap fun i => s.dueStamps (32 * g + i)
  let low := (waiting ++ forming).foldl min (64 * (s.dt - 300))
  recent.filter fun r => low ≤ r.2 + 409

/-- A qualifying event counts for the path that stamped it; a full queue or a parity error withholds none from calibration, whose tap is
parallel (R23, R237). A gated event enters its group's queue, or is discarded at a full one (R167, R168). -/
def State.enqueue (s : State) (e : Ev) : State :=
  let g := e.chan / 32
  let x := s.group g
  if 8192 ≤ (x.queue.filter s.queued).length then
    ((s.setGroup g { x with queue := lossAdd e.chan e.nominal x.queue }).count (F.CTX_EVDROP_COUNT g)).density e
  else
    let q := x.queue ++ [.ev { e with passed := !bit e.stamp.coin 0 }]
    s.setGroup g { x with queue := q, recent := (e.chan, e.nominal) :: s.pruneRecent g q x.recent }

/-! ### Event words -/

/-- The 64 bits of an event word (R106). -/
def Ev.word (e : Ev) : Nat :=
  (e.c % 2 ^ 26) * 64 + e.f + 2 ^ 32 * e.tot + 2 ^ 40 * e.chan + 2 ^ 49 * b01 e.edge + 2 ^ 50 * b01 e.hit
    + 2 ^ 51 * b01 e.satb + 2 ^ 52 * b01 e.nsat + 2 ^ 53 * b01 e.spr + 2 ^ 54 * b01 (!e.gates.isEmpty)

/-- An event word is formed (R101). The traffic of its channel is counted and goes to the group queue or, ungated, to
calibration; while the DLL is out of lock it is counted only (R105); a path in shadow only calibrates (R121, R238)
(open points: DEDUCED, log 36). -/
def State.form (s : State) (via : Via) (e : Ev) : State :=
  if s.carries e.chan via then
    let s := (s.count (F.RET_EVENTS_COUNT e.chan)).rateCount e.chan true e.hit
    let s := if e.satb then s.count (F.RET_SATB_COUNT e.chan) else s
    let s := if e.nsat then s.count (F.RET_NSAT_COUNT e.chan) else s
    if !e.stamp.fine then s
    else
      let s := if e.hit then s.feed 6 e.chan (if e.stamp.coarse then coarseStamp e.c else 1024 * e.c + e.stamp.pos) else s
      if e.gates.isEmpty then s.density e else s.enqueue e
  else s.density e

/-- What is in force for a stamp of tap f on a path of a channel (R24, R28, R105, R122, R147, R166). -/
def State.stampNow (s : State) (ch : Nat) (via : Via) (f : Nat) : Stamp :=
  let i := viaNum ch via
  { pos := s.tapPos i f, fine := s.dllOk i
    coarse := if via = .spare then !s.hasFine i else s.get (F.RET_STAT_CALST ch) ≠ 1
    stale := s.pathStale i, prov := via = .spare && !s.hasFine i, coin := s.coinWord ch }

/-- A stamp of a channel's traffic that lies in a gate, or that a meter may take, reads the table that converts it (R37, R328). -/
def State.stampRead (s : State) (ch : Nat) (via : Via) (c f : Nat) : State :=
  if s.carries ch via && (!(s.gatesAt ch c).isEmpty || (List.range 8).any fun i => s.metered i 6 ch) then s.tapTouch (viaNum ch via) f
  else s

/-- The event of a stamp at (c, f) of a pulse (R100, R102, R117, R118). -/
def State.event1 (s : State) (ch : Nat) (via : Via) (p : Pulse) (c f tot : Nat) (edge hit nsat : Bool) (stamp : Stamp) : Ev where
  c := c
  f := f
  tot := if p.satb then 255 else tot
  chan := ch
  edge := edge
  hit := hit
  satb := p.satb
  nsat := nsat && !p.satb
  spr := via = .spare
  path := viaNum ch via
  stamp := stamp
  gates := (s.gatesAt ch c).map fun g => g.id
  passed := true
  bad := false

/-- SLOPE in force on a channel (R98, R99). -/
def State.slope (s : State) (ch : Nat) : Nat := s.inForce ch 0 (s.get (F.RET_CFG_SLOPE ch))

/-- A stamp at x fine LSB lies in a path's dead time (R107). -/
def PathSt.dead (p : PathSt) (x : Nat) : Bool := p.last ≠ 0 && x < (p.last - 1) + 256

/-- A rising crossing of the low comparator (open points: DEDUCED, log 36). -/
def State.rise (s : State) (ch : Nat) (via : Via) (t f : Nat) (ok : Bool) : State :=
  let i := viaNum ch via
  let p := s.path i
  let nsat := (s.group (ch / 32)).nsat
  if s.slope ch = 2 then s.setPath i { p with pulse := some ⟨t, f, false, false, false, nsat, s.stampNow ch via f⟩ }
  else if p.dead (64 * t + f) then
    let s := s.setPath i { p with pulse := some ⟨t, f, false, false, false, nsat, s.stampNow ch via f⟩ }
    if s.carries ch via then s.pileup ch t else s
  else
    let s := s.stampRead ch via t f
    (s.setPath i ⟨some ⟨t, f, ok, false, false, nsat, s.stampNow ch via f⟩, 64 * t + f + 1⟩).selfCheck i ok

/-- A falling crossing of the low comparator: the pulse's words are formed (R99 to R101). Under SLOPE BOTH the falling crossing of a pulse
shorter than 2.5 ns is no crossing that R101 selects, and is not counted in RET_PILEUP (open points: DEDUCED, log 36; DESIGN CHOICE,
log 107). -/
def State.fall (s : State) (ch : Nat) (via : Via) (t f : Nat) (hit ok : Bool) : State :=
  let i := viaNum ch via
  let st := s.path i
  match st.pulse with
  | none => s
  | some p =>
    let tot := min (t - p.c) 255
    let slope := s.slope ch
    let x := 64 * t + f
    let s := s.setPath i { st with pulse := none }
    let s := if p.due then s.form via (s.event1 ch via p p.c p.f tot false hit p.nsat p.stamp) else s
    if slope = 1 || (slope = 3 && x < 64 * p.c + p.f + 256) then s
    else if st.dead x then (if s.carries ch via then s.pileup ch t else s)
    else
      let s := s.stampRead ch via t f
      let s := (s.setPath i ⟨none, x + 1⟩).selfCheck i ok
      if ok then s.form via (s.event1 ch via p t f tot true hit (s.group (ch / 32)).nsat (s.stampNow ch via f)) else s

/-- The meaning of RETURN_CROSSING (open points: DESIGN CHOICE, log 98). -/
def execReturnCrossing (ch : Fin 512) (via : Via) (rising : Bool) (t : Nat) (f : Fin 64) (hit selfOk : Bool) (s : State) :
    Host.Outcome State Fault Refusal :=
  act s (if s.stamps ch.val via then
      (if rising then (s.at t).rise ch.val via t f.val selfOk else (s.at t).fall ch.val via t f.val hit selfOk)
    else s)

/-- The word of a path's long pulse is formed with TOT 255 (R101) (open points: DEDUCED, log 36). -/
def State.timeoutOn (s : State) (ch : Nat) (hit : Bool) (via : Via) : State :=
  let i := viaNum ch via
  let st := s.path i
  match st.pulse with
  | some p =>
    if p.due && s.stamps ch via then
      (s.setPath i { st with pulse := some { p with due := false, late := true } }).form via
        (s.event1 ch via p p.c p.f 255 false hit p.nsat p.stamp)
    else s
  | none => s

/-- The meaning of TOT_TIMEOUT. -/
def execTotTimeout (ch : Fin 512) (hit : Bool) (s : State) : Host.Outcome State Fault Refusal :=
  act s (viasOf.foldl (fun s via => s.timeoutOn ch.val hit via) s)

/-- SATNOW of a group's channels follows its NSAT window. -/
def State.setNsat (s : State) (g : Nat) (b : Bool) : State :=
  (List.range 32).foldl (fun s i => s.putB (F.RET_STAT_SATNOW (32 * g + i)) b) (s.setGroup g { s.group g with nsat := b })

/-- A path's pulse on the channel takes SATB (R117) (open points: DEDUCED, log 36). -/
def State.saturate (s : State) (ch : Nat) (via : Via) : State :=
  let i := viaNum ch via
  let st := s.path i
  match st.pulse with
  | some p => if s.stamps ch via then s.setPath i { st with pulse := some { p with satb := true } } else s
  | none => s

/-- The meaning of SATURATION_DETECT (R117, R118); the comparators stand with the time base (R527). The spec leaves open whether an input
of a disabled channel, or of one out of service, starts its group's window: it does not (open points: DEDUCED, log 36). -/
def execSaturationDetect (ch : Fin 512) (s : State) : Host.Outcome State Fault Refusal :=
  act s (if s.is F.SYS_STAT_TBLOCK && s.is (F.RET_CFG_EN ch.val) && !s.is (F.RET_STAT_OOS ch.val) then
      (viasOf.foldl (fun s via => s.saturate ch.val via) s).setNsat (ch.val / 32) true
    else s)

/-- The meaning of NSAT_WINDOW_END (R118). -/
def execNsatWindowEnd (g : Fin 16) (s : State) : Host.Outcome State Fault Refusal := act s (s.setNsat g.val false)

/-! ### Thresholds -/

/-- HCODE set, in force at the boundary. -/
def State.setHcode (s : State) (ch v : Nat) : State :=
  (s.holdOld ch 2 (s.get (F.RET_THR_HCODE ch))).put (F.RET_THR_HCODE ch) v

/-- LCODE in force (R97, R98). -/
def State.lcodeNow (s : State) (ch : Nat) : Nat := s.inForce ch 1 (s.get (F.RET_THR_LCODE ch))

/-- A write of RET_THR (R96, R97): under TAUTO the LCODE part is discarded and counted, and HCODE takes effect where it
satisfies R96 against the LCODE in force. -/
def State.thrWrite (s : State) (src : Src) (ch : Nat) (v : Word) : State :=
  let off := 0x10004 + 256 * ch
  let h := (F.RET_THR_HCODE ch).of v
  let l := (F.RET_THR_LCODE ch).of v
  if s.is (F.RET_CFG_TAUTO ch) then
    (if s.lcodeNow ch < h then s.setHcode ch h else s).ignoreReg src off
  else if h ≤ l then s.ignoreReg src off
  else (s.setHcode ch h).setLcode ch l

/-- The meaning of RET_THR_WRITE. -/
def execRetThrWrite (src : Src) (ch : Fin 512) (v : Word) (s : State) : Host.Outcome State Fault Refusal :=
  actBy src s (s.thrWrite src ch.val v)

/-- The meaning of SHOT_BOUNDARY_APPLY: the channel is at a shot boundary where no gate of it is open (R98). -/
def execShotBoundaryApply (ch : Fin 512) (s : State) : Host.Outcome State Fault Refusal :=
  act s (if s.noGate ch.val then s.boundary ch.val else s)

/-! ### Start channels -/

/-- The path that times a start input: its start channel, or STCS (R112, R263). -/
def State.startPath (s : State) (st : Nat) : Nat := if s.is (F.RGP_STSTAT_SPARED st) then 532 else 528 + st

/-- A start input has a timing path: it is enabled, and not faulted without a replacement; until STCS takes over at the next fire, its
own channel goes on (R112, R113, R610). -/
def State.startTimed (s : State) (st : Nat) : Bool :=
  s.is (F.RGP_STCFG_EN st)
    && !(s.is (F.RGP_STSTAT_FAULT st) && !s.is (F.RGP_STSTAT_SPARED st) && s.ret.stcsNext ≠ some st)

/-- START_CROSSING: a rising crossing is stamped, outside dead time and with the DLL locked (R105, R107, R108)
(open points: DEDUCED, log 34; DEDUCED, log 36). -/
def State.startCrossing (s : State) (st t f : Nat) (ok : Bool) : State :=
  let i := s.startPath st
  let last := FMap.nat s.ret.startLast (i - 528)
  let x := 64 * t + f
  if !s.is F.SYS_STAT_TBLOCK || !s.startTimed st then s
  else if last ≠ 0 && x < (last - 1) + 256 then s.at t
  else
    let s := { s with ret := { s.ret with startLast := FMap.setNat s.ret.startLast (i - 528) (x + 1) } }.at t
    let s := if i = 532 then s.selfCheck i ok else s
    if (i = 532 && !ok) || !s.ret.startDll then s
    else
      let s := s.tapTouch i f
      let a : StartX := ⟨st, t, (1024 * t + s.tapPos i f : Nat), (t % 2 ^ 26) * 64 + f, s.pathStale i⟩
      { s with ret := { s.ret with starts := s.ret.starts ++ [a] } }

/-- The meaning of START_CROSSING. -/
def execStartCrossing (st : Fin 4) (t : Nat) (f : Fin 64) (selfOk : Bool) (s : State) : Host.Outcome State Fault Refusal :=
  act s (s.startCrossing st.val t f.val selfOk)

/-- A shot's pairing window holds the time x (1/1024 coarse tick) on a start input (R108, R109)
(open points: DEDUCED, log 34; DEDUCED, log 57). -/
def Shot.covers (h : Shot) (st : Nat) (x : Int) : Bool := h.fired && h.st = st && h.lo ≤ 16 * x && 16 * x ≤ h.hi

/-- The shot whose P is nearest to x; of equally near ones the earlier fire (R109) (open points: DEDUCED, log 34). -/
def nearest (x : Int) : List Shot → Option Shot
  | [] => none
  | h :: hs => match nearest x hs with
    | some g =>
      let a := (16 * x - h.p).natAbs
      let b := (16 * x - g.p).natAbs
      if b < a || (b = a && g.tFire < h.tFire) then some g else some h
    | none => some h

/-- An emission-delay entry written, and where E_n becomes valid the header's Vintage (R251, R252, R255)
(open points: DEDUCED, log 57). -/
def State.putDelay (s : State) (n : Nat) (e : Int) (first : Bool) : State :=
  let s := s.store (0xA50020 + 8 * n) (leBytes 4 (uint 32 e) ++ [1#8])
  if first then
    s.store 0xA50000 (leBytes 4 (s.get F.CAL_EPOCH_EPOCH) ++ leBytes 2 (s.get F.CAL_TEMP_TEMP) ++ leBytes 2 0x3FF
      ++ leBytes 4 (s.get F.SYS_SERIALLO_SERIAL) ++ leBytes 4 (s.get F.SYS_SERIALHI_SERIAL))
  else s

/-- E_n tracks a paired shot's x = t_start − t_fire in 1/256 LSB (R251); while not valid, 64 pairings give their mean (R252)
(open points: DEDUCED, log 57). -/
def State.trackDelay (s : State) (h : Shot) (x : Int) : State :=
  let n := h.output
  let d := 16 * x - 1024 * (h.tFire : Int)
  let s := s.touchRange (0xA50020 + 8 * n) 5
  match s.emDelay n with
  | some e => s.putDelay n (e + roundDiv (d - e) (2 ^ s.get F.CAL_EDLY_ALPHA : Nat)) false
  | none =>
    let k := FMap.nat s.cal.accN n + 1
    let sum := FMap.get (fun _ => 0) s.cal.accX n + d
    if 64 ≤ k then
      { s with cal := { s.cal with
          accN := FMap.setNat s.cal.accN n 0, accX := FMap.set (fun _ => 0) s.cal.accX n 0 } }.putDelay n (roundDiv sum k) true
    else
      { s with cal := { s.cal with accN := FMap.setNat s.cal.accN n k, accX := FMap.set (fun _ => 0) s.cal.accX n sum } }

/-- A shot's start resolved. -/
def State.resolveStart (s : State) (slot : Nat) (x : Start) : State :=
  let f : Shot → Shot := fun h => if h.slot = slot then { h with start := some x } else h
  { s with ret := { s.ret with shots := s.ret.shots.map f } }

/-- START_PAIRING: the oldest crossing of the input whose choice can be made at t goes to one fire of those whose windows hold it, paired or
not; a fire that has its start already takes none, and the crossing pairs with nothing (R109 to R112, R114, R251)
(open points: DEDUCED, log 34) (open points: DESIGN CHOICE, log 106). -/
def State.startPairing (s : State) (st t : Nat) : State :=
  match s.ret.starts.find? fun a => a.st = st && a.c + s.get (F.RGP_STCFG_PWIN st) ≤ t with
  | none => s
  | some a =>
    let s := { s with ret := { s.ret with starts := dropFirst (fun b => b = a) s.ret.starts } }.at t
    match nearest a.x (s.ret.shots.filter fun h => h.covers st a.x) with
    | none => s.count (F.RGP_STORPH_COUNT st)
    | some h =>
      let other : Shot → Shot := fun g => if g.covers st a.x && g.slot ≠ h.slot then { g with other := true } else g
      let s := { s with ret := { s.ret with shots := s.ret.shots.map other } }
      if h.start.isSome then s.count (F.RGP_STORPH_COUNT st) else
      let s := s.resolveStart h.slot ⟨a.x, false, a.stale, a.pmk⟩
      let s := (s.put (F.RGP_STSTAT_MISSRUN st) 0).put (F.RGP_STSTAT_DARK st) 0
      (s.feed 5 st a.x.toNat).trackDelay h a.x

/-- The meaning of START_PAIRING. -/
def execStartPairing (st : Fin 4) (t : Nat) (s : State) : Host.Outcome State Fault Refusal :=
  act s (s.startPairing st.val t)

/-- STCS released: the input returns to its start channel. -/
def State.releaseStcs (s : State) (st : Nat) : State :=
  ((s.put F.RGP_STCS_ACTIVE 0).put F.RGP_STCS_TARGET 0).put (F.RGP_STSTAT_SPARED st) 0

/-- A start recalibration in progress abandoned: its input returns to its start channel with its previous table, stale, and waits for STCS to be
free again (R262, R264). R264 speaks of one that STCS serves already; one accepted and not yet switched is treated alike
(open points: DEDUCED, log 55). -/
def State.dropStcal (s : State) : State :=
  match s.cal.stcal with
  | some c =>
    let s := if c.switched then s.releaseStcs c.st else s
    ({ s with cal := { s.cal with stcal := none } }.put F.CAL_STAT_STCAL 0).foundStale (528 + c.st)
  | none => s

/-- The miss run of an input reaches 16: a faulted start channel is replaced by STCS from the next fire on, whatever recalibration STCS
was taken for (R112 to R114, R264). The spec leaves open when RGP_STCS shows it: ACTIVE and TARGET are set with the declaration, which takes
STCS, SPARED with the fire (open points: DEDUCED, log 37). -/
def State.missFault (s : State) (st : Nat) : State :=
  if s.is (F.RGP_STSTAT_SPARED st) then
    let s := { s.releaseStcs st with cal := { s.cal with stcal := none } }.put F.CAL_STAT_STCAL 0
    (((s.put (F.RGP_STSTAT_DARK st) 1).put (F.RGP_STSTAT_FAULT st) 0).put (F.RGP_STSTAT_MISSRUN st) 0).raise Cause.pickoff st
  else
    let s := (s.put (F.RGP_STSTAT_FAULT st) 1).raise Cause.start st
    let s := s.dropStcal
    if s.is F.RGP_STCS_FAIL || s.is F.RGP_STCS_ACTIVE then s
    else
      ({ s with
        cal := { s.cal with shadow := s.cal.shadow.filter fun (p : Nat × Nat) => p.1 ≠ 532 }
        ret := { s.ret with stcsNext := some st } }.put F.RGP_STCS_ACTIVE 1).put F.RGP_STCS_TARGET st

/-- A shot without a crossing is counted (R110, R114, R252, R610). -/
def State.missCount (s : State) (h : Shot) : State :=
  let st := h.st
  if !s.is (F.RGP_STCFG_EN st) then s
  else if h.other then s.count (F.RGP_STAMB_COUNT st)
  else
    let s := s.count (F.RGP_STMISS_COUNT st)
    if !h.eValid || s.is (F.RGP_STSTAT_DARK st) || !s.startTimed st then s
    else
      let run := s.get (F.RGP_STSTAT_MISSRUN st) + 1
      let s := s.put (F.RGP_STSTAT_MISSRUN st) (min run 16)
      if run = 16 && (!s.is (F.RGP_STSTAT_FAULT st) || s.is (F.RGP_STSTAT_SPARED st)) then s.missFault st else s

/-- A predicted start from P in 1/16384 coarse tick (R110, R569) (open points: DEDUCED, log 57). -/
def predicted (p : Int) : Start :=
  ⟨p.fdiv 16, true, false, (uint 26 (p.fdiv 16384)) * 64 + (p.fmod 16384).toNat / 256⟩

/-- PAIRING_WINDOW_CLOSE: a shot's window has closed without a crossing, and no undecided crossing lies in it (R109, R110)
(open points: DEDUCED, log 34). -/
def State.windowClose (s : State) (slot : Nat) : State :=
  match s.ret.shots.find? fun h => h.slot = slot && h.fired && h.start.isNone with
  | none => s
  | some h =>
    if s.ret.starts.any fun a => h.covers a.st a.x then s
    else (s.resolveStart slot (predicted h.p)).missCount h

/-- The meaning of PAIRING_WINDOW_CLOSE. -/
def execPairingWindowClose (slot : Nat) (s : State) : Host.Outcome State Fault Refusal := act s (s.windowClose slot)

/-! ### Faults of timing paths, and spares -/

/-- The live contexts of a shot that a channel's open gates cut go to REACQ, on account of the fault of this cause and instance (R609). -/
def State.cutOpen (s : State) (ch cause inst : Nat) : State :=
  let now := s.ret.gates.filter fun g => g.ch = ch && !g.closed
  let mark : Gate → Gate := fun g => if g.ch = ch && !g.closed then { g with cut := true } else g
  let s := { s with ret := { s.ret with gates := s.ret.gates.map mark } }
  now.foldl (fun s g => match s.ret.shots.find? fun h => some h.slot = g.slot with
    | some h => s.cutGate { g with cut := true } h.members cause inst
    | none => s) s

/-- A spare set. -/
def State.setSpare (s : State) (k : Nat) (x : SpareSt) : State :=
  { s with ret := { s.ret with spares := s.ret.spares.setIfInBounds k x } }

/-- A spare returns to NONE, and its target to its own path. -/
def State.freeSpare (s : State) (k : Nat) : State :=
  let ch := 32 * k + s.get (F.RGP_SPC_TARGET k)
  (((s.put (F.RET_STAT_SPARED ch) 0).put (F.RGP_SPC_OWNER k) 0).put (F.RGP_SPC_TARGET k) 0).setSpare k ⟨0, false, false⟩

/-- CAL_STAT.TRIM while a trim runs. -/
def State.showTrim (s : State) : State := s.putB F.CAL_STAT_TRIM (!s.cal.trimming.isEmpty)

/-- Tap trims of a channel set (open points: DESIGN CHOICE, log 8). -/
def State.setTrims (s : State) (ch : Nat) (v : List Int) : State :=
  let m := (List.range 64).foldl (fun m f => FMap.set (fun _ => 0) m (64 * ch + f) (v.getD f 0)) s.cal.trim
  { s with cal := { s.cal with trim := m } }

/-- A part of a fine or a walk table, VALID bit included (R254). -/
def tablePart (off : Nat) (bs : List Byte) : Bool :=
  [0, 18, 32, 160].contains off || (off = 16 && (bs = [1#8] || bs = [4#8]))

/-- A trim recalibration interrupted: trims restored, previous tables kept, STALE, and the trim deferred (R124, R266, R267); a range zero or
threshold data that wait for the boundary stay (R250, R257). -/
def State.deferTrim (s : State) (ch : Nat) : State :=
  match s.cal.trimming.find? fun c => c.ch = ch with
  | some c =>
    let s := { s with cal := { s.cal with
      trimming := s.cal.trimming.filter fun (d : TrimCal) => d.ch ≠ ch
      pending := s.cal.pending.filter fun (p : Nat × Nat × List Byte) => p.1 ≠ ch || !tablePart p.2.1 p.2.2
      trims := if s.cal.trims.contains ch then s.cal.trims else s.cal.trims ++ [ch] } }
    (((s.setTrims ch c.saved).clearTaps ch).setStale ch true).showTrim
  | none => s

/-- A spare's recalibration in shadow is abandoned when it takes an owner or fails (R265). -/
def State.dropShadow (s : State) (i : Nat) : State :=
  if s.cal.shadow.any fun p => p.1 = i then
    { s with cal := { s.cal with shadow := s.cal.shadow.filter fun (p : Nat × Nat) => p.1 ≠ i } }.clearTaps i
  else s

/-- A channel is taken out of service by the fault of this cause and instance (R125, R126). -/
def State.outOfService (s : State) (ch cause inst : Nat) : State :=
  let s := s.cutOpen ch cause inst
  let s := { s with ret := { s.ret with spans := s.ret.spans.filter (· ≠ ch) } }
  (s.put (F.RET_STAT_OOS ch) 1).put (F.RET_STAT_SPARED ch) 0

/-- A channel's handover to its spare is requested (R121). -/
def State.takeSpare (s : State) (k idx owner : Nat) : State :=
  (((s.dropShadow (512 + k)).put (F.RGP_SPC_OWNER k) owner).put (F.RGP_SPC_TARGET k) idx).setSpare k ⟨s.dt, false, false⟩

/-- A channel is declared faulted (R121, R124, R125, R532, R533, R609). R124 does not single out a fault of the channel that is itself
being calibrated: its traffic stays on the spare where that serves already, no return to its own path and no span between, and its trim is
dropped (open points: DESIGN CHOICE, log 107). -/
def State.channelFault (s : State) (ch : Nat) : State :=
  let k := ch / 32
  let mine := s.get (F.RGP_SPC_TARGET k) = ch % 32
  let owner := s.get (F.RGP_SPC_OWNER k)
  if s.is (F.RGP_SPC_FAIL k) || owner = 2 then
    (s.raise Cause.channel ch (retired := true)).outOfService ch Cause.channel ch
  else
    let s := s.raise Cause.channel ch
    if owner = 1 && mine then
      let s := s.deferTrim ch
      let s := { s with cal := { s.cal with trims := s.cal.trims.filter (· ≠ ch) } }.put (F.RGP_SPC_OWNER k) 2
      if (s.spare k).serving then s.setSpare k ⟨s.dt, true, false⟩
      else ({ s with ret := { s.ret with spans := s.ret.spans ++ [ch] } }.setSpare k ⟨s.dt, false, false⟩).cutOpen ch Cause.channel ch
    else
      let s := if owner = 1 then (s.deferTrim (32 * k + s.get (F.RGP_SPC_TARGET k))).freeSpare k else s
      ({ s with ret := { s.ret with spans := s.ret.spans ++ [ch] } }.takeSpare k (ch % 32) 2).cutOpen ch Cause.channel ch

/-- A spare fails (R124, R126, R532). -/
def State.spareFault (s : State) (k : Nat) : State :=
  if s.is (F.RGP_SPC_FAIL k) then s
  else
    let owner := s.get (F.RGP_SPC_OWNER k)
    let ch := 32 * k + s.get (F.RGP_SPC_TARGET k)
    let s := s.raise Cause.spare k (retired := true)
    let s := (s.dropShadow (512 + k)).put (F.RGP_SPC_FAIL k) 1
    if owner = 2 then (s.outOfService ch Cause.spare k).freeSpare k
    else if owner = 1 then (s.deferTrim ch).freeSpare k
    else s

/-- STCS fails (R610) (open points: DEDUCED, log 37). -/
def State.stcsFault (s : State) : State :=
  if s.is F.RGP_STCS_FAIL then s
  else
    let st := s.get F.RGP_STCS_TARGET
    let s := (s.raise Cause.start 4 (retired := true)).dropShadow 532
    let s := if s.is F.RGP_STCS_ACTIVE then
      (if s.cal.stcal.isSome then s.dropStcal else s.releaseStcs st) else s.dropStcal
    ({ s with ret := { s.ret with stcsNext := none } }.put F.RGP_STCS_FAIL 1).put F.RGP_STCS_ACTIVE 0

/-- PATH_FAULT_DECLARE: a path with four failures in 1,024 stamps is declared faulted (R533); a start channel has no
self-check (R112) (open points: DEDUCED, log 37). -/
def State.pathFault (s : State) (p : Path) : State :=
  if !s.failing (pathNum p) then s
  else
    let s := { s with ret := { s.ret with checks := FMap.setNat s.ret.checks (pathNum p) 0 } }
    match p with
    | .ret ch => if s.is (F.RET_STAT_OOS ch.val) then s else s.channelFault ch.val
    | .spare k => s.spareFault k.val
    | .start _ => s
    | .stcs => s.stcsFault

/-- The meaning of PATH_FAULT_DECLARE. -/
def execPathFaultDeclare (p : Path) (s : State) : Host.Outcome State Fault Refusal := act s (s.pathFault p)

/-- The target's traffic passes to its spare (R121, R609); a trim then begins with its trims at mid-range (R267, step 4). -/
def State.handover (s : State) (k : Nat) : State :=
  let ch := 32 * k + s.get (F.RGP_SPC_TARGET k)
  let s := { s with ret := { s.ret with spans := s.ret.spans.filter (· ≠ ch) } }
  let s := (s.setSpare k { s.spare k with serving := true }).put (F.RET_STAT_SPARED ch) 1
  if s.get (F.RGP_SPC_OWNER k) = 1 then (s.setTrims ch []).clearTaps ch else s

/-- SPARE_SWITCHOVER: a shot boundary of the target at or after t0 + 160 ns (R121, step 3). -/
def State.switchover (s : State) (k t : Nat) : State :=
  let ch := 32 * k + s.get (F.RGP_SPC_TARGET k)
  if s.get (F.RGP_SPC_OWNER k) ≠ 0 && !(s.spare k).serving && !(s.spare k).handback && (s.spare k).t0 + 256 ≤ t && s.noGate ch then
    ((s.at t).handover k).boundary ch
  else s

/-- The meaning of SPARE_SWITCHOVER. -/
def execSpareSwitchover (k : Fin 16) (t : Nat) (s : State) : Host.Outcome State Fault Refusal :=
  act s (s.switchover k.val t)

/-- SPARE_FORCED_HANDOVER: 16 µs after a replacement request (R121, step 4). -/
def State.forced (s : State) (k t : Nat) : State :=
  if s.get (F.RGP_SPC_OWNER k) = 2 && !(s.spare k).serving && (s.spare k).t0 + 25600 ≤ t then
    let ch := 32 * k + s.get (F.RGP_SPC_TARGET k)
    ((s.at t).cutOpen ch Cause.channel ch).handover k
  else s

/-- The meaning of SPARE_FORCED_HANDOVER. -/
def execSpareForcedHandover (k : Fin 16) (t : Nat) (s : State) : Host.Outcome State Fault Refusal := act s (s.forced k.val t)

/-- A channel has an out-of-service or replaced status (R127). -/
def State.replaced (s : State) (ch : Nat) : Bool :=
  let k := ch / 32
  s.is (F.RET_STAT_OOS ch) || (s.get (F.RGP_SPC_OWNER k) = 2 && s.get (F.RGP_SPC_TARGET k) = ch % 32)

/-- A write of RGP_SPCk (R127). -/
def State.spcWrite (s : State) (src : Src) (k : Nat) (v : Word) : State :=
  let r := (F.RGP_SPC_RCHAN k).of v
  if !(F.RGP_SPC_RETIRE k).isOf v then s.put (F.RGP_SPC_RCHAN k) r
  else if s.replaced (32 * k + r) then s.ignoreReg src (0x30000 + 4 * k)
  else (s.put (F.RGP_SPC_RCHAN k) r).channelFault (32 * k + r)

/-- The meaning of SPARE_RETIRE. -/
def execSpareRetire (src : Src) (k : Fin 16) (v : Word) (s : State) : Host.Outcome State Fault Refusal :=
  actBy src s (s.spcWrite src k.val (v ||| 0x80000000#32))

/-- A write of RET_CFG: SLOPE 0 is refused (R99), and a change of SLOPE waits for the boundary (R98)
(open points: DEDUCED, log 53). -/
def State.retCfgWrite (s : State) (src : Src) (ch : Nat) (v : Word) : State :=
  let sl := (F.RET_CFG_SLOPE ch).of v
  if sl = 0 then s.ignoreReg src (0x10000 + 256 * ch)
  else
    (((s.holdOld ch 0 (s.get (F.RET_CFG_SLOPE ch))).put (F.RET_CFG_SLOPE ch) sl).put (F.RET_CFG_TAUTO ch)
      ((F.RET_CFG_TAUTO ch).of v)).put (F.RET_CFG_EN ch) ((F.RET_CFG_EN ch).of v) |>.sweepFollow ch

/-- A write of CTX_COINk: checked as a whole, in force for each channel from its boundary (R166). -/
def State.coinWrite (s : State) (src : Src) (k : Nat) (v : Word) : State :=
  let m := (F.CTX_COIN_M k).of v
  let n := (F.CTX_COIN_N k).of v
  let w := (F.CTX_COIN_WIN k).of v
  let off := 0x34040 + 4 * k
  if m = 0 || n = 0 || 2 ^ m < n || w = 0 || 8 < w then s.ignoreReg src off
  else
    let old := (s.reg off).toNat
    let s := (List.range 32).foldl (fun s i => s.holdOld (32 * k + i) 3 old) s
    (((s.put (F.CTX_COIN_M k) m).put (F.CTX_COIN_N k) n).put (F.CTX_COIN_WIN k) w).put (F.CTX_COIN_EN k) ((F.CTX_COIN_EN k).of v)

end Sys2Proof.Machine
end

