-- ==== Sys2Proof/Machine/Contexts.lean ====
section
/-!
DEFINITION. Pixel contexts: gates, opening and closing, maps, coincidence, accumulation into bins, loss records, the ends of
shots, zoom placement and partial copies (04_contexts_and_histograms.md), and the suspect-event buffer (R567, R569).
-/
namespace Sys2Proof.Machine

/-! ### Gates -/

/-- The slot, of those made before a gate, that it belongs to: the first by T that lies in it (R611). -/
def State.slotFor (s : State) (g : Gate) : Option Shot :=
  (s.ret.shots.filter fun h => gateHolds h.emitter h.t g).foldl (fun m h => match m with
    | some x => if h.t < x.t then some h else some x
    | none => some h) none

/-- A gate opened on a channel: where no other gate of it is open, that instant is a shot boundary (R98, R392); a slot already made whose T
lies in the gate takes it (R611) (open points: DEDUCED, log 35). -/
def State.openGate (s : State) (e opens len ch : Nat) : State :=
  let s := if s.noGate ch then s.boundary ch else s
  let g : Gate := ⟨s.ret.gateSeq, ch, e, opens, opens + len, none, false, s.ret.spans.contains ch, 0⟩
  let own := s.slotFor g
  let s := { s with ret := { s.ret with
    gates := s.ret.gates ++ [{ g with slot := own.map (·.slot) }], gateSeq := s.ret.gateSeq + 1 } }
  match own with
  | some h => s.cutGate g h.members Cause.channel ch
  | none => s

/-- The gates of a gate command open on the channels of its emitters (R392). -/
def State.openGates (s : State) (mask row len tc : Nat) : State :=
  (setBits 64 mask).foldl (fun s n =>
    let e := s.emitterOf row n
    let s := s.mapTouch s.mapNow e
    (s.channelsOf s.mapNow e).foldl (fun s ch => s.openGate e tc len ch) s) s

/-- GATE_OPEN: the first due command is a gate command (R392). -/
def State.gateDue (s : State) : State := match s.takeDue TKind.gate? with
  | some ((mask, row, len), c, s) => s.openGates mask row len c.tc
  | none => s

/-- The meaning of GATE_OPEN (open points: DESIGN CHOICE, log 2). -/
def execGateOpen (s : State) : Host.Outcome State Fault Refusal := act s s.gateDue

/-- A gate that nothing can use any more: closed for longer than a pulse word takes, and of no shot in flight. -/
def State.gateDone (s : State) (t : Nat) (g : Gate) : Bool :=
  g.closed && g.closes + 512 < t && match g.slot with
    | some n => s.ret.shots.all fun h => h.slot ≠ n
    | none => s.settled g

/-- GATE_CLOSE: the gates of the channel that end by t close; a channel without an open gate is at a shot boundary (R98,
R611) (open points: DEDUCED, log 35). -/
def State.gateClose (s : State) (ch t : Nat) : State :=
  let f : Gate → Gate := fun g => if g.ch = ch && g.closes ≤ t then { g with closed := true } else g
  let s := { s with ret := { s.ret with gates := (s.ret.gates.map f).filter fun g => !s.gateDone t g } }.at t
  if s.noGate ch then s.boundary ch else s

/-- The meaning of GATE_CLOSE. -/
def execGateClose (ch : Fin 512) (t : Nat) (s : State) : Host.Outcome State Fault Refusal := act s (s.gateClose ch.val t)

/-! ### Opening and closing -/

/-- The Decanter set in force (DEC_STAT.CUR). -/
def State.decSet (s : State) : Option Nat := if s.get F.DEC_STAT_CUR < 2 then some (s.get F.DEC_STAT_CUR) else none

/-- The early tap is enabled for a block whose lowest channel is ch (R191). -/
def State.earlyOn (s : State) (ch : Nat) : Bool := s.is F.DEC_EARLY_EN && bit (s.get (F.DEC_EMASK_EM (ch / 32))) (ch % 32)

/-- The context that a CTXO opens for one block (R129, R141, R191, R197, R366). -/
def State.newCtx (s : State) (x : MapEntry) (m e nshot slot rank : Nat) (chans : List Nat) : Ctx :=
  let ch := chans.headD 0
  let prov := s.provOf chans
  { id := s.pool.seq, slot := slot, state := .open, frame := s.pool.frame, column := s.pool.column
    pixrow := (x.rowbase + rank) % 65536, emitter := e, chan := ch, merge := x.merge, nshot := nshot, slots := 0, fired := 0
    fshots := 0, pstart := 0, binsat := false, skip := false, startPred := false, stale := false, prov := !prov.isEmpty
    satb := false, nsat := false, replayed := false, lost := false, partialTaken := false, late := false
    binw := s.get F.CTX_CFG_BINW, nwin := x.nwin, nplaced := 0, k := x.k, map := m, origin := x.origin, nbin := x.nbin
    t0 := 0, wstart := [], evtot := 0, evout := 0, prec := 0, pile := 0, jidx := 0, chans := chans, provChans := prov
    set := s.decSet, bank := s.get F.SEQ_BANK_PCUR, early := s.earlyOn ch, eshots := s.get F.DEC_EARLY_SHOTS
    ebgmax := s.get F.DEC_EARLY_BGMAX, given := 0, first := none, last := 0, skipSeen := false, closing := false, placing := false
    placedAt := none, before := [], replay := [], reacqAt := 0, angtol := 0, reprocess := false, owed := 0, passed := []
    destroyed := [], resolved := false, earlyDone := [], earlyRun := false, planned := []
    view := ⟨0, 0, 0, false, false, false, false, !prov.isEmpty⟩, inflight := [], clipped := [], atOnce := false }

/-- A context enters the pool: its slot's header is written and its bins cleared (R138). -/
def State.addCtx (s : State) (c : Ctx) : State :=
  let s := s.clearRange (slotBase c.slot) 0xEC0
  ({ s with pool := { s.pool with ctxs := s.pool.ctxs ++ [c], seq := s.pool.seq + 1 } }.putHeader c).showUse

/-- The live contexts of an emitter that share a channel with a block close first (R132). -/
def State.closeOverlap (s : State) (e : Nat) (chans : List Nat) : State :=
  ((s.openOf e).filter fun c => c.chans.any chans.contains).foldl
    (fun s c => (s.count (F.CTX_CNT_COUNT 5)).requestClose c.id false) s

/-- Every channel of a block is covered by fewer than 64 live contexts (R133). -/
def State.hasPosition (s : State) (chans : List Nat) : Bool :=
  chans.all fun ch => (s.pool.ctxs.filter fun c => c.live && c.chans.contains ch).length < 64

/-- One block of a CTXO opened, or not for want of a position or slot (R132, R133) (open points: DEDUCED, log 94). -/
def State.openBlock (s : State) (x : MapEntry) (m e nshot t : Nat) (b : Nat × List Nat) : State :=
  let s := s.closeOverlap e b.2
  match (if s.hasPosition b.2 then s.freeSlot else none) with
  | some slot => s.addCtx (s.newCtx x m e nshot slot b.1 b.2)
  | none => (s.count (F.CTX_CNT_COUNT 4)).skipMark m s.pool.frame s.pool.column e 1 t

/-- The contexts that a CTXO of emitter e, due at a time in subticks, has just opened take the slots skipped ahead of their time whose T
follows it, or is equal to it with a command issued later (R30, R134, R396). -/
def State.adopt (s : State) (e due : Nat) (ids : List Nat) : State :=
  let mine : Shot → Bool := fun h => h.emitter = e && (due < h.t || (h.t = due && h.behind))
  let join : Shot → Shot := fun h => if mine h then { h with members := h.members ++ ids, owners := h.owners ++ ids, behind := false } else h
  let s := (s.ret.shots.filter mine).foldl (fun s h =>
    ids.foldl (fun s id => s.modCtx id fun c => c.takeSlot h.slot (h.t / 16) h.before (!h.fired)) s) s
  { s with ret := { s.ret with shots := s.ret.shots.map join } }

/-- A CTXO that is due at a time in subticks acts (R129 to R133, R159, R172, R393) (open points: DEDUCED, log 39; DEDUCED, log 94). -/
def State.openCtx (s : State) (e nshot due : Nat) : State :=
  let t := due / 16
  if nshot = 0 || (!s.matrix && 63 < e) then s.count (F.CTX_CNT_COUNT 9)
  else
    let m := s.mapNow
    let s := s.mapTouch m e
    let blocks := match s.mapEntry m e with
      | some x => x.blocks
      | none => []
    let s := if (s.mapEntry m e).isNone then s.count (F.CTX_CNT_COUNT 7) else s
    if s.is F.CTX_STAT_QSKIP then
      (s.countN (F.CTX_CNT_COUNT 3) blocks.length).skipMark m s.pool.frame s.pool.column e blocks.length t
    else match s.mapEntry m e with
      | none => s
      | some x =>
        let first := s.pool.seq
        let s := ((List.range blocks.length).zip blocks).foldl (fun s b => s.openBlock x m e nshot t b) s
        s.adopt e due ((List.range (s.pool.seq - first)).map (first + ·))

/-- CONTEXT_OPEN: the first due command is a CTXO. -/
def State.openDue (s : State) : State := match s.takeDue TKind.ctxo? with
  | some ((e, nshot), c, s) => s.openCtx e nshot c.due
  | none => s

/-- The meaning of CONTEXT_OPEN. -/
def execContextOpen (s : State) : Host.Outcome State Fault Refusal := act s s.openDue

/-- CONTEXT_CLOSE_COMMAND: the first due command is a CTXC; the open contexts of its emitter close (R135). -/
def State.closeDue (s : State) : State := match s.takeDue TKind.ctxc? with
  | some (e, _, s) => (s.openOf e).foldl (fun s c => s.requestClose c.id false) s
  | none => s

/-- The meaning of CONTEXT_CLOSE_COMMAND. -/
def execContextCloseCommand (s : State) : Host.Outcome State Fault Refusal := act s s.closeDue

/-- MAP_TAKES_EFFECT: the first due command is a MAP (R160). -/
def State.mapDue (s : State) : State := match s.takeDue TKind.map? with
  | some (m, _, s) => s.put F.CTX_MAPSEL_CUR m
  | none => s

/-- The meaning of MAP_TAKES_EFFECT. -/
def execMapTakesEffect (s : State) : Host.Outcome State Fault Refusal := act s s.mapDue

/-! ### Coincidence -/

/-- The half-window of a CTX_COIN.WIN value, in fine LSB (R162). -/
def coinWindow (w : Nat) : Nat := [0, 51, 102, 153, 204, 256, 307, 358, 409].getD w 0

/-- Enough channels of the event's block agree with it (R162) (open points: DESIGN CHOICE, log 42). -/
def agrees (coin : Nat) (recent : List (Nat × Nat)) (e : Ev) : Bool :=
  let m := 2 ^ bits coin 2 2
  let win := coinWindow (bits coin 8 4)
  let base := e.chan / m * m
  let near := fun ch => ch = e.chan || recent.any fun r => r.1 = ch && e.nominal ≤ r.2 + win && r.2 ≤ e.nominal + win
  bits coin 4 4 ≤ (((List.range m).map (base + ·)).filter near).length

/-- Every event of an event's block that can agree with it has been delivered: device time has passed the late side of the window, and no
such pulse is still to form its word (R163). -/
def State.decidable (s : State) (e : Ev) : Bool :=
  let m := 2 ^ bits e.stamp.coin 2 2
  let late := e.nominal + coinWindow (bits e.stamp.coin 8 4)
  late < 64 * s.dt && (List.range m).all fun i => (s.dueStamps (e.chan / m * m + i)).all (late < ·)

/-- COINCIDENCE_DECISION: the first event of the group that can be decided passes, or is dropped and counted, by the setting in force for
its shot (R162 to R164, R166) (open points: DESIGN CHOICE, log 42). -/
def State.coincidence (s : State) (g : Nat) : State :=
  let x := s.group g
  let ripe : QItem → Bool := fun i => match i with
    | .ev e => !e.passed && s.decidable e
    | .loss .. => false
  match x.queue.find? ripe with
  | some (.ev e) =>
    let pass := agrees e.stamp.coin x.recent e
    let q := if pass then modFirst (· = .ev e) (fun _ => .ev { e with passed := true }) x.queue else dropFirst (· = .ev e) x.queue
    let s := s.setGroup g { x with queue := q, recent := s.pruneRecent g q x.recent }
    if pass then s else (s.count (F.CTX_COINDROP_COUNT g)).density e
  | _ => s

/-- The meaning of COINCIDENCE_DECISION. -/
def execCoincidenceDecision (g : Fin 16) (s : State) : Host.Outcome State Fault Refusal := act s (s.coincidence g.val)

/-! ### Bins -/

/-- Coarse bin b of a context slot (R142). -/
def State.coarse (s : State) (slot b : Nat) : Nat := bits (s.num (slotBase slot + 64 + 3 * (b / 2)) 3) (12 * (b % 2)) 12

/-- Coarse bin b set. -/
def State.setCoarse (s : State) (slot b v : Nat) : State :=
  let a := slotBase slot + 64 + 3 * (b / 2)
  let o := s.num a 3
  s.store a (leBytes 3 (o - bits o (12 * (b % 2)) 12 * 2 ^ (12 * (b % 2)) + v * 2 ^ (12 * (b % 2))))

/-- Fine bin j of window w of a context slot (R143). -/
def State.fine (s : State) (slot w j : Nat) : Nat :=
  bits (s.num (slotBase slot + 3136 + 160 * w + 5 * (j / 4)) 5) (10 * (j % 4)) 10

/-- Fine bin j of window w set. -/
def State.setFine (s : State) (slot w j v : Nat) : State :=
  let a := slotBase slot + 3136 + 160 * w + 5 * (j / 4)
  let o := s.num a 5
  s.store a (leBytes 5 (o - bits o (10 * (j % 4)) 10 * 2 ^ (10 * (j % 4)) + v * 2 ^ (10 * (j % 4))))

/-- The shift S of a bin width (R146). -/
def binShift (binw : Nat) : Nat := 8 + binw

/-- One count added to a coarse bin, saturating at 4,095 (R144). -/
def State.addCoarse (s : State) (c : Ctx) (b : Nat) : State :=
  let v := s.coarse c.slot b
  if 4095 ≤ v then
    s.modCtx c.id fun x => { x with
      binsat := true, evtot := x.evtot + 1, clipped := if x.tapped then FMap.setNat x.clipped b (FMap.nat x.clipped b + 1) else x.clipped }
  else (s.setCoarse c.slot b (v + 1)).modCtx c.id fun x => { x with evtot := x.evtot + 1 }

/-- One count added to a fine bin, saturating at 1,023 (R144). -/
def State.addFine (s : State) (c : Ctx) (w j : Nat) : State :=
  let v := s.fine c.slot w j
  if 1023 ≤ v then s.modCtx c.id fun x => { x with binsat := true } else s.setFine c.slot w j (v + 1)

/-- The windows of a context that hold a position in 1/16 LSB, with the bin of each (R150). -/
def Ctx.windowsAt (c : Ctx) (d : Int) : List (Nat × Nat) :=
  (List.range c.nplaced).filterMap fun w =>
    let j := (d - 16 * (c.wstart.getD w 0 : Nat)).fdiv 128
    if 0 ≤ j ∧ j < 128 then some (w, j.toNat) else none

/-- The shot's events reach the context's windows: its t_fire follows the completion of placement (R151). -/
def Ctx.reached (c : Ctx) (h : Shot) : Bool := match c.placedAt with
  | some t => 16 * t < h.tFire
  | none => false

/-- What an event did to a context is kept for its partial copy until the event's shot is complete (R154). -/
def State.tapNote (s : State) (id : Nat) (x : TapEv) : State :=
  s.modCtx id fun c => if c.tapped then { c with inflight := c.inflight ++ [x] } else c

/-- An event added to a context at d, in 1/16 LSB after its shot's start (R144, R145, R150, R154, R247). -/
def State.addEvent (s : State) (e : Ev) (h : Shot) (d : Int) (c : Ctx) : State :=
  let b := (d - (1024 * c.origin : Nat)).fdiv (16 * 2 ^ binShift c.binw : Nat)
  let mark : Ctx → Ctx := fun x =>
    { x with satb := x.satb || e.satb, nsat := x.nsat || e.nsat, stale := x.stale || e.stamp.stale, prov := x.prov || e.stamp.prov }
  let note := fun hit => (⟨h.slot, hit, e.satb, e.nsat, e.stamp.stale, e.stamp.prov⟩ : TapEv)
  let s := s.modCtx c.id mark
  if b < 0 || (c.nbin : Int) ≤ b then
    ((s.count (F.CTX_CNT_COUNT 1)).modCtx c.id fun x => { x with evout := min (x.evout + 1) 65535 }).tapNote c.id (note .out)
  else
    let ws := if c.reached h then c.windowsAt d else []
    let s := s.readRange (slotBase c.slot + 64 + 3 * (b.toNat / 2)) 3
    let s := ws.foldl (fun s w => s.readRange (slotBase c.slot + 3136 + 160 * w.1 + 5 * (w.2 / 4)) 5) s
    match s.ctx? c.id with
    | some c' =>
      if c'.state ≠ c.state then s
      else
        let full := ws.any fun w => 1023 ≤ s.fine c.slot w.1 w.2
        let s := (s.tapNote c.id (note (.bin b.toNat full))).addCoarse c b.toNat
        let s := ws.foldl (fun s w => s.addFine c w.1 w.2) s
        if (ws.any fun w => w.1 = 0) && !e.satb && !e.nsat then s.probeEvent c d e.tot else s
    | none => s

/-! ### The suspect-event buffer -/

/-- Free entries of the suspect-event ring, one kept to tell full from empty (R569, log 22). -/
def State.suspectFree (s : State) : Nat :=
  let n := s.get F.FLE_SSIZE_SIZE
  if n = 0 then 0 else n - 1 - (s.get F.FLE_SIDX_SPROD + n - s.get F.FLE_SIDX_SCONS) % n

/-- An entry written at SPROD, which advances (R569) (open points: DEDUCED, log 22). -/
def State.suspectPut (s : State) (entry : List Byte) : State :=
  let n := s.get F.FLE_SSIZE_SIZE
  let p := s.get F.FLE_SIDX_SPROD
  (s.store (s.get F.FLE_SBASE_BASE + 16 * p) entry).put F.FLE_SIDX_SPROD ((p + 1) % n)

/-- A captured event, or one dropped; with no ring nothing is captured (R567, R569, FLE_SSIZE) (open points: DEDUCED, log 22; DEDUCED, log
92). -/
def State.suspect (s : State) (e : Ev) (h : Shot) (st : Start) : State :=
  let g := e.chan / 32
  let n := FMap.nat s.fle.captured g
  let sampled := s.is F.FLE_SUS_EN && s.is F.FLE_SSIZE_SIZE && bit (s.get F.FLE_SUS_GMASK) g && e.chan % 32 = s.fle.window % 32 && e.stamp.fine
    && (s.get F.FLE_SUS_TOTMIN ≤ e.tot || (s.is F.FLE_SUS_HITONLY && e.hit))
  if !sampled then s
  else if 16 * s.get F.FLE_SUS_MAXW ≤ n then
    { s with fle := { s.fle with drops := s.fle.drops + 1 } }.count (F.FLE_CNT_COUNT 4)
  else
    let s := { s with fle := { s.fle with captured := FMap.setNat s.fle.captured g (n + 1) } }
    if s.suspectFree < 2 then { s with fle := { s.fle with drops := s.fle.drops + 1 } }.count (F.FLE_CNT_COUNT 3)
    else (s.count (F.FLE_CNT_COUNT 2)).suspectPut (leBytes 8 e.word ++ leBytes 4 st.pmk ++ leBytes 2 h.k ++ leBytes 2 (h.emitter + 1024 * b01 st.pred))

/-! ### Accumulation -/

/-- The first item that the accumulator can take; an item that waits holds back its channel only (R28, R116)
(open points: DEDUCED, log 38). -/
def State.nextReady (s : State) : List Nat → List QItem → Option Ev
  | _, [] => none
  | held, .ev e :: q => if !held.contains e.chan && s.ready e then some e else s.nextReady (e.chan :: held) q
  | held, .loss ch _ _ :: q => s.nextReady (ch :: held) q

/-- Δ of an event from a start, in 1/16 LSB, which is 1/1024 coarse tick, with the table in force for its stamp (R24, R104, R145, R147). -/
def delta (e : Ev) (st : Start) : Int :=
  if e.stamp.coarse then 1024 * ((e.c : Int) - st.x.fdiv 1024) + 512 else (1024 * e.c + e.stamp.pos : Nat) - st.x

/-- Shots with their starts, the earlier start first (open points: DEDUCED, log 38). -/
def insertShot (x : Shot × Start) : List (Shot × Start) → List (Shot × Start)
  | [] => [x]
  | y :: ys => if x.2.x < y.2.x then x :: y :: ys else y :: insertShot x ys

/-- The shot that an event belongs to: the latest-starting one that it follows, else the first (R115)
(open points: DEDUCED, log 38). -/
def assign (e : Ev) (l : List (Shot × Start)) : Option (Shot × Start) :=
  let l := l.foldr insertShot []
  match (l.filter fun x => -16 < delta e x.2).getLast? with
  | some x => some x
  | none => l.head?

/-- The event lies in a placed window of a context that it was added to (R237). -/
def State.inWindow (s : State) (h : Shot) (e : Ev) (d : Int) : Bool :=
  h.chans.contains e.chan && s.pool.ctxs.any fun c => h.members.contains c.id && c.chans.contains e.chan && !(c.windowsAt d).isEmpty

/-- An event of a fired shot treated as R115 says; the map in force at the slot says whether its channel reads the shot (R160). -/
def State.accumulateIn (s : State) (e : Ev) (h : Shot) (st : Start) : State :=
  let d := delta e st
  let cover := s.pool.ctxs.filter fun c =>
    h.members.contains c.id && h.chans.contains e.chan && c.chans.contains e.chan && (c.live || c.state = .reacq)
  if d ≤ -16 then
    (cover.foldl (fun s c =>
      (s.modCtx c.id fun x => { x with prec := min (x.prec + 1) 65535 }).tapNote c.id ⟨h.slot, .prec, false, false, false, false⟩)
      (s.count (F.RET_PREC_COUNT e.chan))).density e
  else
    let d := max d 0
    let s := if cover.any Ctx.live then s else s.count (F.CTX_CNT_COUNT 0)
    let inWin := s.inWindow h e d
    let s := cover.foldl (fun s c => s.addEvent e h d c) s
    let s := s.suspect e h st
    if inWin then s else s.density e

/-- An event leaves its queue for its histogram (R115, R131, R145). -/
def State.accumulateEv (s : State) (e : Ev) : State :=
  match assign e ((s.shotsOf e).filterMap fun h => if h.fired then h.start.map fun x => (h, x) else none) with
  | some (h, st) => s.accumulateIn e h st
  | none => (s.count (F.CTX_CNT_COUNT 11)).density e

/-- EVENT_ACCUMULATE: the first event of the group's queue that can be taken; one with a parity error counts as discarded,
and for calibration (R23, R237, R535) (open points: DEDUCED, log 91). -/
def State.accumulate (s : State) (g : Nat) : State :=
  let x := s.group g
  match s.nextReady [] x.queue with
  | some e =>
    let q := dropFirst (fun i => i = .ev e) x.queue
    if e.bad then (((s.setGroup g { x with queue := lossAdd e.chan e.nominal q }).count (F.CTX_EVDROP_COUNT g)).raise Cause.parity g).density e
    else (s.setGroup g { x with queue := q }).accumulateEv e
  | none => s

/-- The meaning of EVENT_ACCUMULATE. -/
def execEventAccumulate (g : Fin 16) (s : State) : Host.Outcome State Fault Refusal := act s (s.accumulate g.val)

/-- The contexts that a loss record of a channel marks: they still gather shots, and the record concerns them (R169); a closed one is a
snapshot (R546) (open points: DEDUCED, log 39). -/
def State.lossMarks (s : State) (ch first last : Nat) : List Nat :=
  (s.pool.ctxs.filter fun c => (c.live || c.state = .reacq) && s.lossConcerns c ch first last).map fun c => c.id

/-- The first loss record that the accumulator has reached: no event of its channel stands before it, and the gates that it overlaps have
their slots (R168, R169). -/
def State.lossAt (s : State) : List Nat → List QItem → Option QItem
  | _, [] => none
  | held, .ev e :: q => s.lossAt (e.chan :: held) q
  | held, .loss ch f l :: q =>
    if !held.contains ch && (s.lossGates ch f l).all s.settled then some (.loss ch f l) else s.lossAt held q

/-- LOSS_RECORD_REACHED: the accumulator has reached a loss record of the group (R169, R170). -/
def State.lossReached (s : State) (g : Nat) : State :=
  let x := s.group g
  match s.lossAt [] x.queue with
  | some (.loss ch first last) =>
    let ids := s.lossMarks ch first last
    let s := s.setGroup g { x with queue := dropFirst (· = .loss ch first last) x.queue }
    let s := ids.foldl (fun s id => (s.modCtx id fun c => { c with lost := true }).count (F.CTX_CNT_COUNT 10)) s
    (s.pool.ctxs.filter fun c => c.closing).foldl (fun s c => s.tryClose c.id) s
  | _ => s

/-- The meaning of LOSS_RECORD_REACHED. -/
def execLossRecordReached (g : Fin 16) (s : State) : Host.Outcome State Fault Refusal := act s (s.lossReached g.val)

/-! ### Ends of shots -/

/-- A shot's gates on some channels. -/
def State.shotGates (s : State) (h : Shot) (chans : List Nat) : List Gate :=
  s.ret.gates.filter fun g => g.slot = some h.slot && chans.contains g.ch

/-- The shot is complete on some channels: its T is past and no gate that could hold it is still to open, its start is resolved, every gate
of it there has closed, and every event stamped in one has left its pulse and its queue, and every loss record (R134, R170). -/
def State.shotReady (s : State) (h : Shot) (chans : List Nat) : Bool :=
  let gs := s.shotGates h chans
  let waits : QItem → Bool := fun i => match i with
    | .ev e => gs.any fun g => e.gates.contains g.id
    | .loss ch f l => gs.any fun g => g.ch = ch && 64 * g.opens ≤ l && f < 64 * g.closes
  h.t ≤ 16 * s.dt && (s.emi.tq.all fun d => d.kind.gate?.isNone || d.late || h.t < d.due)
    && (!h.fired || h.start.isSome) && (gs.all fun g => g.closed)
    && (gs.all fun g => (s.dueStamps g.ch).all fun x => x < 64 * g.opens || 64 * g.closes ≤ x)
    && s.ret.groups.toList.all fun x => !x.queue.any waits

/-- The counts of a context after one more complete slot with this many crossings lost in its gates (R134, R141, R151, R259). -/
def Ctx.afterShot (c : Ctx) (h : Shot) (pile : Nat) : Ctx :=
  let c := { c with slots := c.slots + 1, pile := min (c.pile + pile) 65535 }
  if !h.fired then c
  else
    let pred := (h.start.map (·.pred)).getD false
    let stale := (h.start.map (·.stale)).getD false
    let late := c.fired = c.k && 1 ≤ c.nwin && !c.prov && !c.reached h
    { c with
      fired := c.fired + 1, pstart := c.pstart + b01 pred, startPred := c.startPred || pred
      stale := c.stale || stale, view := { c.view with stale := c.view.stale || stale }
      fshots := c.fshots + b01 (c.reached h && 1 ≤ c.nplaced), late := c.late || late }

/-- An event counted among those of complete shots (R154). -/
def TapView.add (v : TapView) (e : TapEv) : TapView :=
  let v := { v with satb := v.satb || e.satb, nsat := v.nsat || e.nsat, stale := v.stale || e.stale, prov := v.prov || e.prov }
  match e.hit with
  | .bin _ full => { v with evtot := v.evtot + 1, binsat := v.binsat || full }
  | .out => { v with evout := min (v.evout + 1) 65535 }
  | .prec => { v with prec := min (v.prec + 1) 65535 }

/-- The events of a slot that is now complete enter the view of the partial copy (R154). -/
def Ctx.settle (c : Ctx) (slot : Nat) : Ctx :=
  { c with
    view := (c.inflight.filter fun e => e.slot = slot).foldl TapView.add c.view
    inflight := c.inflight.filter fun e => e.slot ≠ slot }

/-- The early tap is due: FIRED reaches the shot count of a live context (R154, R191). -/
def Ctx.tapDue (c : Ctx) : Bool := c.live && c.early && c.fired = c.eshots && !c.partialTaken

/-- The count of a coarse bin without the events of slots that are not complete (R154) (open points: DEDUCED, log 43). -/
def State.copyBin (s : State) (c : Ctx) (b : Nat) : Nat :=
  let later := c.inflight.filter fun e => match e.hit with
    | .bin a _ => a = b
    | _ => false
  s.coarse c.slot b + FMap.nat c.clipped b - later.length

/-- Coarse bins packed in pairs (R142). -/
def packBins : List Nat → List Byte
  | a :: b :: l => leBytes 3 (min a 4095 + 4096 * min b 4095) ++ packBins l
  | _ => []

/-- The partial copy of a context: its header and coarse bins with exactly the events of its complete shots (R34, R154)
(open points: DEDUCED, log 43). -/
def State.partialOf (s : State) (c : Ctx) : Partial :=
  let n := (List.range 2048).map (s.copyBin c)
  let v := c.view
  let x := { c with
    evtot := v.evtot, evout := v.evout, prec := v.prec, binsat := v.binsat || n.any (4095 < ·), satb := v.satb, nsat := v.nsat
    stale := v.stale, prov := v.prov, inflight := [], clipped := [] }
  ⟨x, x.header ++ packBins n, []⟩

/-- A partial copy taken where a buffer is free, else counted (R154, R155) (open points: DEDUCED, log 43). -/
def State.takePartial (s : State) (c : Ctx) : State :=
  let used := s.pool.parts.length + (s.pool.ctxs.filter fun x => x.earlyRun).length
  if 2048 ≤ used then s.count (F.CTX_CNT_COUNT 6)
  else
    let s := s.readRange (slotBase c.slot) 3136
    match s.ctx? c.id with
    | some c' =>
      if !c'.live then s
      else
        let c := { c' with partialTaken := true }
        let p := s.partialOf c
        let s := s.putCtx { c with inflight := [], clipped := [] }
        { s with pool := { s.pool with parts := s.pool.parts ++ [p] } }
    | none => s

/-- The bin with the largest sum at or above the threshold that is not excluded; ties go to the lowest (R149). -/
def bestBin (thr : Nat) (excluded : Nat → Bool) : List (Nat × Nat) → Option (Nat × Nat)
  | [] => none
  | (b, v) :: l => match bestBin thr excluded l with
    | some (c, w) => if thr ≤ v && !excluded b && w ≤ v then some (b, v) else some (c, w)
    | none => if thr ≤ v && !excluded b then some (b, v) else none

/-- Up to n window starts, with the centres of the bins chosen so far (R149). -/
def placeWindows (origin w nbin thr : Nat) (sums : List (Nat × Nat)) : Nat → List Nat → List Nat
  | 0, _ => []
  | n + 1, centres =>
    let centre := fun b => 64 * origin + 64 * w * b + 32 * w
    let excluded := fun b => centres.any fun c => centre b ≤ c + 1024 && c ≤ centre b + 1024
    match bestBin thr excluded sums with
    | some (b, _) =>
      let c := centre b
      max (64 * origin) (min (c - 512) (64 * origin + 64 * w * nbin - 1024))
        :: placeWindows origin w nbin thr sums n (c :: centres)
    | none => []

/-- A number inserted into a list in rising order. -/
def insertNat (x : Nat) : List Nat → List Nat
  | [] => [x]
  | y :: ys => if x ≤ y then x :: y :: ys else y :: insertNat x ys

/-- The window starts of a context, rising (R149) (open points: DEDUCED, log 43). -/
def State.windows (s : State) (c : Ctx) : List Nat :=
  let w := 4 * 2 ^ c.binw
  let thr := (3 * c.evtot / c.nbin) * s.get F.CTX_ZOOM_ZMUL / 4 + s.get F.CTX_ZOOM_ZMIN
  let h := fun b => if b < c.nbin then s.coarse c.slot b else 0
  let sums := (List.range c.nbin).map fun b => (b, (if b = 0 then 0 else h (b - 1)) + h b + h (b + 1))
  (placeWindows c.origin w c.nbin thr sums c.nwin []).foldr insertNat []

/-- Placement starts, and with it the bins and CTX_ZOOM settings that decide it (R138, R149) (open points: DEDUCED, log 43). -/
def State.zoomStart (s : State) (id : Nat) : State :=
  match s.ctx? id with
  | some c =>
    let s := s.readRange (slotBase c.slot + 64) 3072
    match s.ctx? id with
    | some d =>
      if d.state ≠ c.state then s
      else s.putCtx { d with placing := true, planned := s.windows d, state := if d.state = .open then .zoom else d.state }
    | none => s
  | none => s

/-- A complete slot counted for one context: zoom, partial copy, close or completed replay follow (R134, R135, R138, R154,
R555) (open points: DEDUCED, log 43). -/
def State.shotFor (s : State) (h : Shot) (id : Nat) : State :=
  match s.ctx? id with
  | none => s
  | some c0 =>
    let c := (c0.afterShot h ((s.shotGates h c0.chans).map fun g => g.pile).sum).settle h.slot
    let s := if c.late && !c0.late then s.count (F.CTX_CNT_COUNT 8) else s
    let s := s.putCtx c
    let s := if h.fired && c.fired = c.k && 1 ≤ c.nwin && !c.prov && (c.live || c.state = .reacq) then s.zoomStart id else s
    let s := match s.ctx? id with
      | some d => if h.fired && d.tapDue then s.takePartial d else s
      | none => s
    match s.ctx? id with
    | none => s
    | some c =>
      if c.live && c.nshot ≤ c.slots then s.requestClose id false
      else if c.state = .reacq && (c.replay.all fun r => r.found.isSome) && c.nshot ≤ c.slots then
        ((s.modCtx id fun x => { x with replayed := true }).count (F.FLT_CNT_COUNT 5)).requestClose id false
      else s.tryClose id

/-- A shot counted for one of its contexts, which leaves it. -/
def State.shotLeaves (s : State) (h : Shot) (id : Nat) : State :=
  let leave : Shot → Shot := fun x => if x.slot = h.slot then { x with members := x.members.filter (· ≠ id) } else x
  { s with ret := { s.ret with shots := s.ret.shots.map leave } }.shotFor h id

/-- A loss record that stands in the queue of a gate's group, or that a discard of an event that stands there would make or extend, can
still come to overlap the gate (R168, R169). -/
def State.lossAhead (s : State) (g : Gate) : Bool :=
  (s.group (g.ch / 32)).queue.any fun i => match i with
    | .ev e => e.chan = g.ch && e.nominal < 64 * g.closes
    | .loss ch f _ => ch = g.ch && f < 64 * g.closes

/-- Nothing can concern a shot any more: no context waits for it, it is complete on every channel, every crossing in its pairing window has
been given to its fire, and no loss record can come to overlap its gates (R109, R134, R169). -/
def State.shotDone (s : State) (h : Shot) : Bool :=
  h.members.isEmpty && s.shotReady h (List.range 512)
    && (!h.fired || (h.hi < 16384 * (s.dt : Int) && s.ret.starts.all fun a => !h.covers a.st a.x))
    && (s.ret.gates.filter fun g => g.slot = some h.slot).all fun g => !s.lossAhead g

/-- The shots that nothing concerns any more go, and their gates with them. -/
def State.dropShots (s : State) : State :=
  let done := (s.ret.shots.filter s.shotDone).map fun h => h.slot
  if done.isEmpty then s
  else { s with ret := { s.ret with
    shots := s.ret.shots.filter fun (h : Shot) => !done.contains h.slot
    gates := s.ret.gates.filter fun (g : Gate) => !(done.map some).contains g.slot } }

/-- SHOT_COMPLETE: the slot is complete for each of its contexts whose channels' gates have closed and whose events have been added (R134)
(open points: DEDUCED, log 43). -/
def State.shotComplete (s : State) (slot : Nat) : State :=
  match s.ret.shots.find? fun h => h.slot = slot with
  | some h =>
    let ready : Nat → Bool := fun id => match s.ctx? id with
      | some c => s.shotReady h c.chans
      | none => true
    ((h.members.filter ready).foldl (fun s id => s.shotLeaves h id) s).dropShots.latchFrame
  | none => s

/-- The meaning of SHOT_COMPLETE. -/
def execShotComplete (slot : Nat) (s : State) : Host.Outcome State Fault Refusal := act s (s.shotComplete slot)

/-! ### Zoom placement -/

/-- ZOOM_PLACEMENT_COMPLETE: the placement of the context in a pool slot completes at t with the windows that its start has fixed (R149,
R151, R247) (open points: DEDUCED, log 43). -/
def State.placed (s : State) (slot t : Nat) : State :=
  match s.ctxAt? slot with
  | some c =>
    if !c.placing then s
    else
      let c := { c with placing := false, placedAt := some t, wstart := c.planned, nplaced := c.planned.length, planned := [] }
      ((s.at t).putCtx c).probeStart c
  | none => s

/-- The meaning of ZOOM_PLACEMENT_COMPLETE. -/
def execZoomPlacementComplete (slot t : Nat) (s : State) : Host.Outcome State Fault Refusal := act s (s.placed slot t)

/-- REPLAY_TIMEOUT: RMAX ms after the entry of the context in a pool slot to REACQ, its replay is given up (R554). -/
def State.replayTimeout (s : State) (slot t : Nat) : State :=
  match s.ctxAt? slot with
  | some c =>
    if c.state = .reacq && !(c.replay.all fun r => r.found.isSome) && c.reacqAt + 1600000 * s.get F.FLT_RWAIT_RMAX ≤ t then
      (s.at t).giveUp c.id
    else s
  | none => s

/-- The meaning of REPLAY_TIMEOUT. -/
def execReplayTimeout (slot t : Nat) (s : State) : Host.Outcome State Fault Refusal := act s (s.replayTimeout slot t)

end Sys2Proof.Machine
end

