-- ==== Sys2Proof/Machine/Calib.lean ====
section
/-!
DEFINITION. Calibration in service: DLL lock, candidate fine tables, threshold sweeps and servo, range zero, LOAD and staging,
staleness, and the recalibrations of start, spare and trim paths (07_calibration.md, R105, R534).
-/
namespace Sys2Proof.Machine

/-! ### Recalibrations that wait -/

/-- Whether the test of R258 finds a path stale (open points: DEDUCED, log 56). -/
def State.staleNow (s : State) (i : Nat) : Bool := s.hasFine i && s.tempStale (s.num (recBase i + 4) 2)

/-- The donor of a spare's recalibration: the in-service channel of its group with the highest RET_RATE count, the lowest of
equal ones (R265). -/
def State.spareDonor (s : State) (k : Nat) : Option Nat :=
  let l := ((List.range 32).map (32 * k + ·)).filter fun ch => s.is (F.RET_CFG_EN ch) && !s.is (F.RET_STAT_OOS ch)
  l.foldl (fun best ch => match best with
    | some b => if s.get (F.RET_RATE_COUNT b) < s.get (F.RET_RATE_COUNT ch) then some ch else some b
    | none => some ch) none

/-- A spare or STCS begins to shadow a donor (R261, R265). -/
def State.startShadow (s : State) (i donor : Nat) : State :=
  let s := (s.unqueue i).clearTaps i
  { s with cal := { s.cal with shadow := (s.cal.shadow.filter fun (p : Nat × Nat) => p.1 ≠ i) ++ [(i, donor)] } }

/-- The conditions of a spare's recalibration: no owner, not failed (R265, R126). -/
def State.spareIdle (s : State) (k : Nat) : Bool := s.get (F.RGP_SPC_OWNER k) = 0 && !s.is (F.RGP_SPC_FAIL k)

/-- A spare's recalibration starts where it can, else it waits in the queue (R265). -/
def State.recalSpare (s : State) (k : Nat) : State :=
  match (if s.spareIdle k then s.spareDonor k else none) with
  | some ch => s.startShadow (512 + k) ch
  | none => s

/-- STCS is free: neither active nor failed (R263). -/
def State.stcsFree (s : State) : Bool := !s.is F.RGP_STCS_ACTIVE && !s.is F.RGP_STCS_FAIL && s.cal.stcal.isNone

/-- STCS recalibrates from CAL_STDON.DONOR (R261, R265) (open points: DEDUCED, log 55). -/
def State.recalStcs (s : State) : State := if s.stcsFree then s.startShadow 532 (s.get F.CAL_STDON_DONOR) else s

/-! ### Locks -/

/-- RGP_DLL.ALL and SYS_STAT.DLLOK follow the locks. -/
def State.showDll (s : State) : State :=
  let all := s.get F.RGP_DLL_LOCK = 0xFFFF && s.ret.startDll
  (s.putB F.RGP_DLL_ALL all).setStat F.SYS_STAT_DLLOK all

/-- The lock of DLL g. -/
def State.dllLocked (s : State) (g : Nat) : Bool := if g < 16 then bit (s.get F.RGP_DLL_LOCK) g else s.ret.startDll

/-- The lock of DLL g set. -/
def State.setDll (s : State) (g : Nat) (b : Bool) : State :=
  if g < 16 then (s.putB ⟨F.RGP_DLL_LOCK.off, g, 1⟩ b).showDll
  else { s with ret := { s.ret with startDll := b } }.showDll

/-- The calibration that the first lock of a DLL after reset starts (R261). -/
def State.beginCal (s : State) (g : Nat) : State :=
  if s.cal.begun.contains g then s
  else
    let s := { s with cal := { s.cal with begun := s.cal.begun ++ [g] } }
    let s := if s.get F.CAL_EPOCH_EPOCH = 0 then s.put F.CAL_EPOCH_EPOCH 1 else s
    if g < 16 then (s.queueRecal (512 + g)).recalSpare g else (s.queueRecal 532).recalStcs

/-- DLL_LOCK (R105, R241, R244, R261, R540) (open points: DEDUCED, log 54; DEDUCED, log 88). -/
def State.dllLock (s : State) (g : Nat) : State :=
  if s.dllLocked g || !s.is F.SYS_STAT_TBLOCK then s
  else
    let s := (s.setDll g true).endRoot Cause.dll g
    let s := if s.is F.RGP_DLL_ALL then s.endRoot Cause.tbunlock 0 else s
    let s := s.beginCal g
    if g < 16 then (List.range 32).foldl (fun s i => s.startSweep (32 * g + i)) s else s

/-- The meaning of DLL_LOCK. -/
def execDllLock (g : Fin 17) (s : State) : Host.Outcome State Fault Refusal := act s (s.dllLock g.val)

/-- DLL_UNLOCK: the fault of R105, and acquisition replay for the live contexts that cover the group (R532). -/
def State.dllUnlock (s : State) (g : Nat) : State :=
  if !s.dllLocked g then s
  else
    let s := s.setDll g false
    let hit := if g < 16 then s.pool.ctxs.filter fun c => c.live && c.chans.any fun ch => ch / 32 = g else []
    let s := s.raise Cause.dll g (acq := !hit.isEmpty) (affected := hit.length)
    hit.foldl (fun s c => s.enterReacq c.id) s

/-- The meaning of DLL_UNLOCK. -/
def execDllUnlock (g : Fin 17) (s : State) : Host.Outcome State Fault Refusal := act s (s.dllUnlock g.val)

/-! ### Fine tables -/

/-- The tap positions of a candidate, and its WMAX, in 1/16 LSB (R239). -/
def candidate (n : Nat → Nat) : List Nat × Nat :=
  let total := ((List.range 64).map n).sum
  let r := (List.range 64).foldl (fun (a : Nat × List Nat × Nat) f =>
    (a.1 + n f, a.2.1 ++ [(roundDiv (1024 * (2 * a.1 + n f : Nat)) (2 * max total 1 : Nat)).toNat],
      max a.2.2 (roundDiv (1024 * n f : Nat) (max total 1 : Nat)).toNat)) (0, [], 0)
  r.2

/-- A Vintage of now (R241, R254). -/
def State.vintage (s : State) (index : Nat) : List Byte :=
  leBytes 4 (s.get F.CAL_EPOCH_EPOCH) ++ leBytes 2 (s.get F.CAL_TEMP_TEMP) ++ leBytes 2 index
    ++ leBytes 4 (s.get F.SYS_SERIALLO_SERIAL) ++ leBytes 4 (s.get F.SYS_SERIALHI_SERIAL)

/-- The parts of a fine table. -/
def fineParts (vintage : List Byte) (wmax nev : Nat) (t : List Nat) : List (Nat × List Byte) :=
  [(0, vintage), (18, leBytes 2 wmax ++ leBytes 4 nev), (32, t.flatMap (leBytes 2)), (16, [1#8])]

/-- What an adoption leads to: the end of a recalibration, and by a wide tap a request for a trim, after a trim too (R123, R261, R263, R265
to R267). -/
def State.adopted (s : State) (i wmax : Nat) : State :=
  let s := s.unqueue i
  let s := if i < 512 && s.get F.CAL_CFG_WMAX < wmax && !s.cal.trims.contains i then
      { s with cal := { s.cal with trims := s.cal.trims ++ [i] } }
    else s
  if i < 512 then
    if s.cal.trimming.any fun c => c.ch = i then
      let f : TrimCal → TrimCal := fun c => if c.ch = i then { c with adopted := true } else c
      let s := { s with cal := { s.cal with trimming := s.cal.trimming.map f } }
      let k := i / 32
      s.setSpare k { s.spare k with handback := true }
    else s
  else
    let s := { s with cal := { s.cal with shadow := s.cal.shadow.filter fun (p : Nat × Nat) => p.1 ≠ i } }
    if i = 532 then
      (List.range 4).foldl (fun s st =>
        let s := s.recTouch (528 + st) 16 1
        if s.pathStale (528 + st) then s.queueRecal (528 + st) else s) s
    else
      match s.cal.stcal with
      | some c => if 528 + c.st = i then { s with cal := { s.cal with stcal := some { c with adopted := true } } } else s
      | none => s

/-- FINE_TABLE_CANDIDATE (R239 to R241) (open points: DEDUCED, log 51). -/
def State.fineCandidate (s : State) (i : Nat) : State :=
  let total := FMap.nat s.cal.total i
  if total < 640000 then s
  else
    let (t, wmax) := candidate fun f => FMap.nat s.cal.taps (64 * i + f)
    let s := s.clearTaps i
    if 64 < wmax then s.count (F.CAL_CNT_COUNT 3)
    else
      let s := { s with cal := { s.cal with
        adopted := if s.cal.adopted.contains i then s.cal.adopted else s.cal.adopted ++ [i] } }
      ((s.adoptParts i (fineParts (s.vintage i) wmax total t)).count (F.CAL_CNT_COUNT 2)).adopted i wmax

/-- The meaning of FINE_TABLE_CANDIDATE. -/
def execFineTableCandidate (p : Path) (s : State) : Host.Outcome State Fault Refusal := act s (s.fineCandidate (pathNum p))

/-! ### Thresholds -/

/-- Threshold data written to a channel's record, in 1/16 code and crossings per 1.024 ms (R244, R254). -/
def State.putThr (s : State) (ch mu sig nu0 : Nat) : State :=
  let s := s.store (recBase ch + 432) (leBytes 2 mu ++ leBytes 2 (min sig 65535) ++ leBytes 3 (min nu0 (2 ^ 24 - 1)))
  s.writePart ch 16 [2#8]

/-- LCODE bounded by LMIN and HCODE − 1, the upper bound last (R97, R244, R245) (open points: DESIGN CHOICE, log 52). -/
def State.boundLcode (s : State) (ch : Nat) (v : Int) : Nat :=
  (min (max v (s.get F.CAL_THR_LMIN)) ((s.get (F.RET_THR_HCODE ch) : Int) - 1)).toNat

/-- SIG of a sweep in 1/16 code: p, rp and c, rc are the codes about one sigma, with their counts (R244)
(open points: DESIGN CHOICE, log 52). -/
def sweepSigma (mu pk p rp c rc : Nat) : Nat :=
  let b := lnRatio rp (max rc 1)
  let frac := if b = 0 then 0 else roundDiv (16 * (c - p : Nat) * lnRatio (1000 * rp) (607 * pk)) b
  max 1 (16 * (p - mu) + frac.toNat)

/-- The swept codes above mu, lowest first, each with the one swept before it; the first at one sigma or below (R244). -/
def oneSigma (mu pk : Nat) : List (Nat × Nat) → Option ((Nat × Nat) × (Nat × Nat))
  | a :: b :: l => if mu < b.1 && 1000 * b.2 ≤ 607 * pk then some (a, b) else oneSigma mu pk (b :: l)
  | _ => none

/-- A sweep succeeds: MU, SIG, NU0 and LCODE (R244) (open points: DESIGN CHOICE, log 52). -/
def State.sweepDone (s : State) (ch : Nat) (w : Sweep) : State :=
  let s := { s.setSweep ch none with cal := { (s.setSweep ch none).cal with
    swept := if s.cal.swept.contains ch then s.cal.swept else s.cal.swept ++ [ch] } }
  match oneSigma w.mu w.pk w.counts with
  | some (a, b) =>
    let sig := sweepSigma w.mu w.pk a.1 a.2 b.1 b.2
    let l := (w.mu : Int) + roundDiv (s.get F.CAL_THR_KSIG * sig : Nat) 256
    (s.putThr ch (16 * w.mu) sig (10 * w.pk)).setLcode ch (s.boundLcode ch l)
  | none => s

/-- SWEEP_DWELL_END (R244). The spec leaves open whether a dwell runs from the boundary at which its LCODE takes effect: it runs from the end of
the dwell before, when LCODE is set (open points: DEDUCED, log 53). -/
def State.sweepDwell (s : State) (ch : Nat) : State :=
  match FMap.get (fun _ => none) s.cal.sweeps ch with
  | none => s
  | some w =>
    let w := if w.pk < w.r then { w with pk := w.r, mu := w.code } else w
    let w := { w with counts := w.counts ++ [(w.code, w.r)] }
    let next := w.code + s.get F.CAL_THR_SSTEP
    if w.mu < w.code && 256 * w.r < w.pk then s.sweepDone ch w
    else if s.get (F.RET_THR_HCODE ch) ≤ next then (s.setSweep ch none).count (F.CAL_CNT_COUNT 10)
    else (s.setSweep ch (some { w with code := next, r := 0 })).setLcode ch next

/-- The meaning of SWEEP_DWELL_END. -/
def execSweepDwellEnd (ch : Fin 512) (s : State) : Host.Outcome State Fault Refusal := act s (s.sweepDwell ch.val)

/-- The meaning of SWEEP_RETRY (R244) (open points: DEDUCED, log 53). -/
def execSweepRetry (ch : Fin 512) (s : State) : Host.Outcome State Fault Refusal := act s (s.sweepFollow ch.val)

/-- The servo's step and its new SIG, where it estimates one (R245); L in codes, MU in 1/16 code
(open points: DESIGN CHOICE, log 52). -/
def servoStep (l mu nu0 r ksig slew : Nat) : Int × Option Nat :=
  if nu0 ≤ r || 16 * l ≤ mu then (slew, none)
  else if r = 0 then (-(slew : Int), none)
  else
    let q : Int := (isqrt (2 * lnRatio nu0 r * one60).toNat : Nat)
    let d : Int := 16 * (l : Int) - mu
    let step := roundDiv (ksig * d * one60 - 16 * d * q) (256 * max q 1)
    (clampInt (-(slew : Int)) slew step, some (roundDiv (d * one60) (max q 1)).toNat)

/-- A RET_RATE window's end for the threshold servo (R245). -/
def State.servo (s : State) (ch r : Nat) : State :=
  if s.is (F.RET_CFG_TAUTO ch) && s.hasThr ch && s.rangeOk (recBase ch + 432) 7 then
    let l := s.get (F.RET_THR_LCODE ch)
    let (step, sig) := servoStep l (s.num (recBase ch + 432) 2) (s.num (recBase ch + 436) 3) r (s.get F.CAL_THR_KSIG)
      (s.get F.CAL_THR_SLEW)
    let s := match sig with
      | some v => s.store (recBase ch + 434) (leBytes 2 (min v 65535))
      | none => s
    s.setLcode ch (s.boundLcode ch (l + step))
  else s

/-- The stuck test of a window whose count is n (R534). -/
def State.stuck (s : State) (ch n : Nat) : Bool :=
  s.is F.FLT_CFG_STUCK && n = 0 && s.is (F.RET_CFG_EN ch) && !s.is (F.RET_STAT_OOS ch) &&
    16 ≤ ((List.range 32).filter fun i =>
      32 * (ch / 32) + i ≠ ch && 16384 ≤ s.get (F.RET_RATE_COUNT (32 * (ch / 32) + i))).length

/-- The number that n bytes of a record spell from an offset, once the parts that wait for the shot boundary have taken effect (R24, R250). -/
def State.recNum (s : State) (i o n : Nat) : Nat :=
  leNat ((List.range n).map fun j =>
    match (s.cal.pending.filter fun p => p.1 = i && p.2.1 ≠ 16 && p.2.1 ≤ o + j && o + j < p.2.1 + p.2.2.length).getLast? with
    | some p => p.2.2.getD (o + j - p.2.1) 0#8
    | none => BitVec.ofNat 8 (s.num (recBase i + o + j) 1))

/-- ZNOW of a record from its Z0, ZTC and TZ, waiting ones included, and the die temperature (R249, R250) (open points: DEDUCED, log 56). -/
def State.znow (s : State) (i : Nat) : Int :=
  sint 32 (s.recNum i 416 4)
    + roundDiv (sint 32 (s.recNum i 420 4) * (sint 16 (s.get F.CAL_TEMP_TEMP) - sint 16 (s.recNum i 424 2))) 16

/-- RATE_WINDOW_END of a return channel (R245, R249, R534). -/
def State.channelWindow (s : State) (ch : Nat) : State :=
  let n := FMap.nat s.cal.rate ch
  let r := FMap.nat s.cal.cross ch
  let s := s.put (F.RET_RATE_COUNT ch) (min n (2 ^ 24 - 1))
  let s := { s with cal := { s.cal with rate := FMap.setNat s.cal.rate ch 0, cross := FMap.setNat s.cal.cross ch 0 } }
  let s := s.servo ch r
  let s := if s.rangeOk (recBase ch) 512 then s.adoptParts ch [(428, leBytes 4 (uint 32 (s.znow ch)))] else s
  if s.stuck ch n then s.channelFault ch else s

/-- RATE_WINDOW_END: the die temperature is read, the window of a return channel is used, and the stale test applied: what becomes stale is
queued (R245, R249, R258, R262, R534, CAL_TEMP) (open points: DEDUCED, log 56). -/
def State.rateWindow (s : State) (i temp : Nat) : State :=
  let s := (s.put F.CAL_TEMP_TEMP temp).put F.CAL_TEMP_VALID 1
  let s := s.recTouch i 0 512
  let s := if i < 512 then s.channelWindow i else s
  if s.staleNow i && !s.cal.stale.contains i then s.foundStale i else s

/-- The meaning of RATE_WINDOW_END. -/
def execRateWindowEnd (p : Path) (temp : BitVec 16) (s : State) : Host.Outcome State Fault Refusal :=
  act s (s.rateWindow (pathNum p) temp.toNat)

/-! ### Range zero, LOAD -/

/-- A write of CAL_ZWR (R250). -/
def State.zwrWrite (s : State) (v : Word) : State :=
  let ch := F.CAL_ZWR_CHAN.of v
  let s := s.put F.CAL_ZWR_CHAN ch
  if F.CAL_ZWR_GO.isOf v then
    let z := leBytes 4 (s.get F.CAL_ZVAL_Z0)
    s.adoptParts ch [(416, z), (424, leBytes 2 (s.get F.CAL_TEMP_TEMP)), (428, z), (16, [8#8])]
  else s

/-- The meaning of ZERO_WRITE. -/
def execZeroWrite (src : Src) (v : Word) (s : State) : Host.Outcome State Fault Refusal :=
  actBy src s (s.zwrWrite (v ||| 0x80000000#32))

/-- The first BAR2 offset of the calibration region, and its bytes: records, and the emission-delay table (R253, R255). -/
abbrev calBase : Nat := 0xA00000

/-- An offset lies in a calibration record or the emission-delay table (R253, R255). -/
def inCal (a : Nat) : Bool := (calBase ≤ a && a < calBase + 0x200 * 533) || (0xA50000 ≤ a && a < 0xA50000 + 544)

/-- What a staged byte belongs to: record i, 1000 the emission-delay header, 1001 + n its entry n (R257). -/
def stagedUnit (a : Nat) : Nat :=
  if a < 0xA50000 then (a - calBase) / 0x200 else if a < 0xA50020 then 1000 else 1001 + (a - 0xA50020) / 8

/-- Bytes staged (R256) (open points: DEDUCED, log 54). -/
def State.stage (s : State) (a : Nat) (bs : List Byte) : State :=
  (List.range bs.length).foldl (fun s i =>
    let u := stagedUnit (a + i)
    { s with cal := { s.cal with
        staged := FMap.set (fun _ => 0#8) s.cal.staged (a + i) (bs.getD i 0#8)
        touched := if s.cal.touched.contains u then s.cal.touched else s.cal.touched ++ [u] } }) s

/-- n staged bytes. -/
def State.stagedBytes (s : State) (a n : Nat) : List Byte :=
  (List.range n).map fun i => FMap.get (fun _ => 0#8) s.cal.staged (a + i)

/-- The number that n staged bytes spell. -/
def State.stagedNum (s : State) (a n : Nat) : Nat := leNat (s.stagedBytes a n)

/-- A staged record names this unit and its own position (R257) (open points: DEDUCED, log 54). -/
def State.accepts (s : State) (i : Nat) : Bool :=
  s.stagedNum (recBase i + 8) 8 = s.serial && bits (s.stagedNum (recBase i + 6) 2) 0 10 = i

/-- The parts that an accepted record gives (R254, R257). -/
def State.stagedParts (s : State) (i : Nat) : List (Nat × List Byte) :=
  let v := s.stagedNum (recBase i + 16) 1
  let take := fun (o n : Nat) => (o, s.stagedBytes (recBase i + o) n)
  let fine := bit v 0 && !s.cal.adopted.contains i
  (if bit v 3 && i < 512 then [take 416 10, (16, [8#8])] else [])
    ++ (if bit v 2 && i < 512 then [take 160 256, (16, [4#8])] else [])
    ++ (if fine then [take 0 16, take 18 6, take 32 128, (16, [1#8])] else [])
    ++ (if bit v 1 && i < 512 && !s.cal.swept.contains i then [take 432 7, (16, [2#8])] else [])

/-- ZNOW of a staged ZERO part (R249, R257). -/
def State.stagedZnow (s : State) (i : Nat) : Int :=
  sint 32 (s.stagedNum (recBase i + 416) 4) + roundDiv (sint 32 (s.stagedNum (recBase i + 420) 4)
    * (sint 16 (s.get F.CAL_TEMP_TEMP) - sint 16 (s.stagedNum (recBase i + 424) 2))) 16

/-- A staged record merged (R257, R258) (open points: DEDUCED, log 54). -/
def State.mergeRecord (s : State) (i : Nat) : State :=
  if !s.accepts i then s.count (F.CAL_CNT_COUNT 0)
  else
    let v := s.stagedNum (recBase i + 16) 1
    let fine := bit v 0 && !s.cal.adopted.contains i
    let s := if fine then s else s.recTouch i 0 32
    let temp := if fine then s.stagedNum (recBase i + 4) 2 else s.num (recBase i + 4) 2
    let holds := fine || s.hasFine i
    let parts := s.stagedParts i
      ++ (if bit v 3 && i < 512 then [(428, leBytes 4 (uint 32 (s.stagedZnow i)))] else [])
    let s := if bit v 1 && i < 512 && !s.cal.swept.contains i then s.setSweep i none else s
    let s := s.adoptParts i parts
    if holds && s.tempStale temp then (s.foundStale i).count (F.CAL_CNT_COUNT 1) else s

/-- A staged emission-delay entry merged (R257) (open points: DEDUCED, log 54). -/
def State.mergeDelay (s : State) (n : Nat) : State :=
  let a := 0xA50020 + 8 * n
  let s := s.touchRange a 5
  if bit (s.stagedNum (a + 4) 1) 0 && (s.emDelay n).isNone then s.putDelay n (sint 32 (s.stagedNum a 4)) true else s

/-- CAL_LOAD (R257). An emission-delay table of another serial counts once in CAL_CNT0 (open points: DEDUCED, log 54). -/
def State.calLoad (s : State) (src : Src) : State :=
  if s.is F.CAL_STAT_LOADED then s.ignoreReg src 0x40000
  else
    let recs := (List.range 533).filter s.cal.touched.contains
    let epoch := (recs.filter s.accepts).foldl (fun m i => max m (s.stagedNum (recBase i) 4)) 0
    let delays := (List.range 64).filter fun n => s.cal.touched.contains (1001 + n)
    let own := s.stagedNum 0xA50008 8 = s.serial
    let s := recs.foldl State.mergeRecord s
    let s := s.put F.CAL_EPOCH_EPOCH (epoch + 1)
    let s := if delays.isEmpty then s
      else if own then delays.foldl State.mergeDelay s
      else s.count (F.CAL_CNT_COUNT 0)
    ((s.put F.CAL_STAT_LOADED 1).event 15)

/-- The meaning of CAL_LOAD. -/
def execCalLoad (src : Src) (s : State) : Host.Outcome State Fault Refusal := actBy src s (s.calLoad src)

/-- The meaning of UNCALIBRATED_TIMEOUT (R260). -/
def execUncalibratedTimeout (ch : Fin 512) (s : State) : Host.Outcome State Fault Refusal :=
  act s (if s.get (F.RET_STAT_CALST ch.val) = 0 then
      let s := s.recTouch ch.val 16 1
      if s.hasFine ch.val then s else (s.setCalst ch.val 2).count (F.CAL_CNT_COUNT 8)
    else s)

/-! ### Recalibrations -/

/-- No pairing window of a fire on the start input is open at t (R263). -/
def State.noWindow (s : State) (st t : Nat) : Bool :=
  s.ret.shots.all fun h => h.st ≠ st || !h.fired || h.start.isSome || (16384 * t : Nat) < h.lo || h.hi < (16384 * t : Nat)

/-- STCS can serve a start recalibration (R263). -/
def State.stcsReady (s : State) : Bool := s.stcsFree && s.hasFine 532 && !s.pathStale 532

/-- A start recalibration begins at t (R263, steps 1 and 2). The spec leaves open what a CAL_REQ for STC0 to STC3 does to a recalibration of
STCS that runs in shadow: it is abandoned, and not queued again (open points: DEDUCED, log 55). -/
def State.startStcal (s : State) (st t : Nat) : State :=
  let s := ((s.at t).unqueue (528 + st)).dropShadow 532
  let c : StCal := ⟨st, t, false, false, false⟩
  { s with cal := { s.cal with stcal := some c } }.put F.CAL_STAT_STCAL 1

/-- A channel can be trimmed now (R266, R127). -/
def State.mayTrim (s : State) (ch : Nat) : Bool :=
  let k := ch / 32
  s.spareIdle k && s.is (F.RGP_SPC_READY k) && s.get (F.RET_STAT_CALST ch) = 1 && !s.is (F.RET_STAT_OOS ch)
    && 16384 ≤ s.get (F.RET_RATE_COUNT ch)

/-- A trim recalibration begins at t (R267, step 1) (open points: DEDUCED, log 55). -/
def State.startTrim (s : State) (ch t : Nat) : State :=
  let saved := (List.range 64).map fun f => FMap.get (fun _ => 0) s.cal.trim (64 * ch + f)
  let s := s.at t
  let s := { s with cal := { s.cal with
    trims := s.cal.trims.filter (· ≠ ch)
    trimming := s.cal.trimming ++ [(⟨ch, t, 0, false, false, saved⟩ : TrimCal)] } }
  (s.takeSpare (ch / 32) (ch % 32) 1).showTrim

/-- The read of STCS's VALID byte that `stcsReady` needs (R37, R263). -/
def State.stcsTouch (s : State) : State := s.recTouch 532 16 1

/-- RECAL_START: a queued recalibration starts once it can, and no recalibration of the path runs (R262, R263, R265, R266). -/
def State.recalStart (s : State) (p : Path) (t : Nat) : State :=
  match p with
  | .ret ch =>
    let first := (s.cal.trims.filter fun c => c / 32 = ch.val / 32).foldl min ch.val
    if s.cal.trims.contains ch.val && first = ch.val && s.mayTrim ch.val then s.startTrim ch.val t else s
  | .spare k => if s.cal.queue.contains (512 + k.val) && !s.recalRuns (512 + k.val) then (s.at t).recalSpare k.val else s
  | .start st =>
    let i := 528 + st.val
    let first := ((List.range 4).find? fun j => s.cal.queue.contains (528 + j)) = some st.val
    let stcs := s.cal.queue.contains 532 || s.cal.shadow.any fun q => q.1 = 532
    if s.cal.queue.contains i && first && !stcs && s.stcsFree then
      let s := s.stcsTouch
      if s.stcsReady then s.startStcal st.val t else s
    else s
  | .stcs => if s.cal.queue.contains 532 && !s.recalRuns 532 then (s.at t).recalStcs else s

/-- The meaning of RECAL_START. -/
def execRecalStart (p : Path) (t : Nat) (s : State) : Host.Outcome State Fault Refusal := act s (s.recalStart p t)

/-- A write of CAL_REQ (R127, R263, R266) (open points: DEDUCED, log 37). -/
def State.reqWrite (s : State) (src : Src) (v : Word) (t : Nat) : State :=
  let trim := F.CAL_REQ_TRIM.isOf v
  let start := F.CAL_REQ_START.isOf v
  if trim && start then s.ignoreReg src 0x40024
  else
    let ch := F.CAL_REQ_CHAN.of v
    let i := F.CAL_REQ_SIDX.of v
    let s := (s.put F.CAL_REQ_SIDX i).put F.CAL_REQ_CHAN ch
    if trim then (if s.mayTrim ch then s.startTrim ch t else s.count (F.CAL_CNT_COUNT 7))
    else if start then
      if i < 4 then
        let s := s.stcsTouch
        if s.stcsReady then s.startStcal i t else s.count (F.CAL_CNT_COUNT 7)
      else if i = 4 && s.stcsFree then (s.at t).recalStcs
      else s.count (F.CAL_CNT_COUNT 7)
    else s

/-- The meaning of START_RECAL_REQUEST: a write of CAL_REQ with START = 1. -/
def execStartRecalRequest (src : Src) (v : Word) (t : Nat) (s : State) : Host.Outcome State Fault Refusal :=
  actBy src s (s.reqWrite src (v ||| 0x40000000#32) t)

/-- The meaning of TRIM_RECAL_REQUEST: a write of CAL_REQ with TRIM = 1. -/
def execTrimRecalRequest (src : Src) (v : Word) (t : Nat) (s : State) : Host.Outcome State Fault Refusal :=
  actBy src s (s.reqWrite src (v ||| 0x80000000#32) t)

/-- START_RECAL_SWITCH (R263, step 3). A shot whose window spans a forced switch takes its predicted start. The miss run goes on: R114 speaks
of STCS's own only where it replaces a faulted channel (open points: DEDUCED, log 55; DESIGN CHOICE, log 107). -/
def State.recalSwitch (s : State) (t : Nat) : State :=
  match s.cal.stcal with
  | some c =>
    if c.switched || s.is F.RGP_STCS_ACTIVE || t < c.t0 + 256 || !(s.noWindow c.st t || c.t0 + 25600 ≤ t) then s
    else
      let ch := s.get F.CAL_STDON_DONOR
      let donor := s.is (F.RET_CFG_EN ch) && !s.is (F.RET_STAT_OOS ch)
      let spans : Shot → Bool := fun h =>
        h.st = c.st && h.fired && h.start.isNone && h.lo ≤ (16384 * t : Nat) && (16384 * t : Nat) ≤ h.hi
      let f : Shot → Shot := fun h => if spans h then { h with start := some (predicted h.p) } else h
      let s := { s.at t with
        cal := { s.cal with stcal := some { c with switched := true, donor := donor } }
        ret := { s.ret with shots := s.ret.shots.map f } }
      (((s.clearTaps (528 + c.st)).put F.RGP_STCS_ACTIVE 1).put F.RGP_STCS_TARGET c.st).put (F.RGP_STSTAT_SPARED c.st) 1
  | none => s

/-- The meaning of START_RECAL_SWITCH. -/
def execStartRecalSwitch (t : Nat) (s : State) : Host.Outcome State Fault Refusal := act s (s.recalSwitch t)

/-- A start recalibration ends: the input returns to its start channel (R263). -/
def State.endStcal (s : State) (c : StCal) : State :=
  let s := if c.switched then s.releaseStcs c.st else s
  { s with cal := { s.cal with stcal := none } }.put F.CAL_STAT_STCAL 0

/-- START_RECAL_HANDBACK (R263, step 5) (open points: DEDUCED, log 55). -/
def State.recalHandback (s : State) (t : Nat) : State :=
  match s.cal.stcal with
  | some c => if c.adopted && s.noWindow c.st t then ((s.at t).endStcal c).count (F.CAL_CNT_COUNT 6) else s
  | none => s

/-- The meaning of START_RECAL_HANDBACK. -/
def execStartRecalHandback (t : Nat) (s : State) : Host.Outcome State Fault Refusal := act s (s.recalHandback t)

/-- RECAL_TIMEOUT: 2 s have passed without adoption (R263, step 6; R267, step 7): a start input returns with no pairing window open on it, a
trim's handback follows at the boundary
(open points: DEDUCED, log 55). -/
def State.recalTimeout (s : State) (p : Path) : State :=
  match p with
  | .start st =>
    match s.cal.stcal with
    | some c =>
      if c.st = st.val && !c.adopted && (!c.switched || s.noWindow c.st s.dt) then
        (((s.endStcal c).clearTaps (528 + c.st)).setStale (528 + c.st) true).count (F.CAL_CNT_COUNT 5)
      else s
    | none => s
  | .ret ch =>
    match s.cal.trimming.find? fun c => c.ch = ch.val && !c.adopted with
    | some c =>
      let k := ch.val / 32
      let s := { s with cal := { s.cal with trimming := s.cal.trimming.filter fun (d : TrimCal) => d.ch ≠ c.ch } }
      let s := (((s.setTrims c.ch c.saved).clearTaps c.ch).showTrim).count (F.CAL_CNT_COUNT 5)
      s.setSpare k { s.spare k with handback := true }
    | none => s
  | .spare _ => s
  | .stcs => s

/-- The meaning of RECAL_TIMEOUT. -/
def execRecalTimeout (p : Path) (s : State) : Host.Outcome State Fault Refusal := act s (s.recalTimeout p)

/-- The meaning of RECAL_REQUEUE (R263). -/
def execRecalRequeue (st : Fin 4) (s : State) : Host.Outcome State Fault Refusal := act s (s.queueRecal (528 + st.val))

/-- A tap's trim after a pass of 160,000 events: more than 12.5 % from the nominal 2,500 moves it one step (R267, step 4; a
wide tap's trim goes down, log 8). -/
def trimStep (n : Nat) (v : Int) : Int := if 2812 < n then v - 1 else if n < 2188 then v + 1 else v

/-- TRIM_PASS_END (R267, step 4): once the spare carries the channel's traffic, and after the fourth pass, or one that finds every tap in
range, the final events follow (open points: DESIGN CHOICE, log 8). -/
def State.trimPass (s : State) (ch : Nat) : State :=
  match s.cal.trimming.find? fun c => c.ch = ch && !c.final with
  | some c =>
    if FMap.nat s.cal.total ch < 160000 || !(s.spare (ch / 32)).serving then s
    else
      let old := (List.range 64).map fun f => FMap.get (fun _ => 0) s.cal.trim (64 * ch + f)
      let new := (List.range 64).map fun f => trimStep (FMap.nat s.cal.taps (64 * ch + f)) (old.getD f 0)
      let f : TrimCal → TrimCal := fun d =>
        if d.ch = ch then { d with passes := c.passes + 1, final := c.passes = 3 || new = old } else d
      let s := (s.setTrims ch new).clearTaps ch
      { s with cal := { s.cal with trimming := s.cal.trimming.map f } }
  | none => s

/-- The meaning of TRIM_PASS_END. -/
def execTrimPassEnd (ch : Fin 512) (s : State) : Host.Outcome State Fault Refusal := act s (s.trimPass ch.val)

/-- CALIBRATION_HANDBACK: a shot boundary of the target after its calibration (R123, R267, step 6)
(open points: DEDUCED, log 55). -/
def State.handback (s : State) (k : Nat) : State :=
  let ch := 32 * k + s.get (F.RGP_SPC_TARGET k)
  if s.get (F.RGP_SPC_OWNER k) = 1 && (s.spare k).handback && s.noGate ch then
    let done := s.cal.trimming.any fun c => c.ch = ch && c.adopted
    let s := { s with cal := { s.cal with trimming := s.cal.trimming.filter fun (c : TrimCal) => c.ch ≠ ch } }.showTrim
    let s := if done then s.count (F.CAL_CNT_COUNT 4) else s
    (s.boundary ch).freeSpare k
  else s

/-- The meaning of CALIBRATION_HANDBACK. -/
def execCalibrationHandback (k : Fin 16) (s : State) : Host.Outcome State Fault Refusal := act s (s.handback k.val)

end Sys2Proof.Machine
end

