-- ==== Sys2Proof/Machine/Buffers.lean ====
section
/-!
DEFINITION. Reads of stream-buffer words with their outcomes (R40, R543), reads of any memory word, and parity errors of the
stores outside the engines (R535).
-/
namespace Sys2Proof.Machine

/-- The bytes of an item with errors in data symbols taken out or put in. -/
def flipBytes (es : List (Nat × Byte)) (l : List Byte) : List Byte := es.foldl (fun l e => modAt l e.1 fun b => b ^^^ e.2) l

/-- An item whose place waits for the regenerated record (R548) (open points: DEDUCED, log 47). -/
def Item.holed (i : Item) : Item := { i with hole := true, errs := 0#32 }

/-- A VC0 record is destroyed: its pixel goes to processing replay and its place waits; another item is lost (R543, R547)
(open points: DEDUCED, log 47; DEDUCED, log 91). -/
def State.destroyItem (s : State) (vc : Nat) (i : Item) : State × List Item :=
  let here := vc = 0 && match i.ctx with
    | some id => (s.ctx? id).isSome
    | none => false
  if here then (s.toReplay (i.ctx.getD 0), [i.holed])
  else ((if vc = 0 then s else s.count (F.FLT_CNT_COUNT 10)).accept i, [])

/-- A read of an item's word: corrected, or its outcome (R37, R40, R543). The spec gives no address for a buffer's word: DETAIL is
a free value (open points: DEDUCED, log 41). -/
def State.readItem (s : State) (vc : Nat) (i : Item) : State × List Item :=
  if i.errs = 0#32 then (s, [i])
  else match rsDecode i.errs with
    | some es => (s.count (F.FLT_CORR_COUNT 6), [{ i with data := flipBytes es i.data, errs := 0#32 }])
    | none =>
      let proc := if vc = 0 then i.ctx.toList.filter fun id => (s.ctx? id).isSome else []
      let s := (s.count (F.FLT_UNC_COUNT 6)).draw.raise Cause.memory 6 (detail := s.fresh.toNat) (proc := proc)
      s.destroyItem vc i

/-- A read of items, in order; what is left of them. -/
def State.readItems (s : State) (vc : Nat) : List Item → State × List Item
  | [] => (s, [])
  | i :: l =>
    let r := s.readItem vc i
    let q := r.1.readItems vc l
    (q.1, r.2 ++ q.2)

/-- The items of a channel's buffer replaced. -/
def State.setBuf (s : State) (vc : Nat) (l : List Item) : State :=
  { s with stl := { s.stl with bufs := s.stl.bufs.setIfInBounds vc l } }

/-- The first n items of a channel's buffer are read. -/
def State.readHead (s : State) (vc n : Nat) : State :=
  let b := s.stl.bufs.getD vc []
  let r := s.readItems vc (b.take n)
  (r.1.setBuf vc (r.2 ++ b.drop n)).showBuf vc

/-- The jobs of a channel replaced. -/
def State.setJobs (s : State) (vc : Nat) (l : List Job) : State :=
  { s with stl := { s.stl with jobs := s.stl.jobs.setIfInBounds vc l } }

/-- A job with what a read left of its records: a compressed one that lost any goes uncompressed. -/
def Job.keep (j : Job) (l : List Item) (t : Nat) : Job :=
  let whole := l.length = j.items.length && l.all fun i => !i.hole
  let j := { j with items := l }
  match j.state with
  | .ready _ => if whole then j else { j with state := .plain, readyAt := t }
  | _ => j

/-- Items of jobs read from number `from` on, n of them; emptied jobs are dropped. -/
def State.readJobs (s : State) (vc : Nat) (pick : Nat → Bool) : Nat → List Job → State × List Job
  | _, [] => (s, [])
  | k, j :: js =>
    let parts := ((List.range j.items.length).zip j.items).map fun x => (pick (k + x.1), x.2)
    let r := parts.foldl (fun (a : State × List Item) x =>
      if x.1 then let q := a.1.readItem vc x.2; (q.1, a.2 ++ q.2) else (a.1, a.2 ++ [x.2])) (s, [])
    let q := r.1.readJobs vc pick (k + j.items.length) js
    (q.1, (if r.2.isEmpty && !j.items.isEmpty then [] else [j.keep r.2 s.dt]) ++ q.2)

/-- A job's items are read (R543). -/
def State.readJob (s : State) (vc id : Nat) : State :=
  let js := s.stl.jobs.getD vc []
  let r := js.foldl (fun (a : State × List Job) j =>
    if j.id = id then
      let q := a.1.readItems vc j.items
      (q.1, a.2 ++ (if q.2.isEmpty && !j.items.isEmpty then [] else [j.keep q.2 s.dt]))
    else (a.1, a.2 ++ [j])) (s, [])
  (r.1.setJobs vc r.2).showBuf vc

/-- Item i of a channel is read: those of its jobs come first (open points: DEDUCED, log 15). -/
def State.readBufItem (s : State) (vc i : Nat) : State :=
  let js := s.stl.jobs.getD vc []
  let n := (js.map fun j => j.items.length).sum
  if i < n then
    let r := s.readJobs vc (fun k => k = i) 0 js
    (r.1.setJobs vc r.2).showBuf vc
  else
    let b := s.stl.bufs.getD vc []
    let k := i - n
    let r := s.readItems vc ((b.drop k).take 1)
    (r.1.setBuf vc (b.take k ++ r.2 ++ b.drop (k + 1))).showBuf vc

/-- Item i of a channel changed. -/
def State.modBufItem (s : State) (vc i : Nat) (f : Item → Item) : State :=
  let js := s.stl.jobs.getD vc []
  let n := (js.map fun j => j.items.length).sum
  if i < n then
    let r := js.foldl (fun (a : Nat × List Job) j =>
      (a.1 + j.items.length, a.2 ++ [if a.1 ≤ i then { j with items := modAt j.items (i - a.1) f } else j])) (0, [])
    s.setJobs vc r.2
  else s.setBuf vc (modAt (s.stl.bufs.getD vc []) (i - n) f)

/-- The errors of an unused word of a channel's buffer replaced, where the buffer has the word. -/
def State.setUnused (s : State) (vc i : Nat) (v : Word) : State :=
  if bufSize vc / 32 ≤ i then s
  else { s with stl := { s.stl with unused := s.stl.unused.setIfInBounds vc (FMap.set (fun _ => 0#32) (s.stl.unused.getD vc []) i v) } }

/-- The errors of an unused word. -/
def State.unusedErrs (s : State) (vc i : Nat) : Word := FMap.get (fun _ => 0#32) (s.stl.unused.getD vc []) i

/-- A read of a word of unused buffer space: corrected, or rewritten as zeros after its detection; no replay follows (R37, R40, R544)
(open points: DEDUCED, log 41). -/
def State.readUnused (s : State) (vc i : Nat) : State :=
  match rsDecode (s.unusedErrs vc i) with
  | some [] => s
  | some _ => (s.count (F.FLT_CORR_COUNT 6)).setUnused vc i 0#32
  | none => (((s.count (F.FLT_UNC_COUNT 6)).draw.raise Cause.memory 6 (detail := s.fresh.toNat))).setUnused vc i 0#32

/-- A read of any word of a memory, with its outcome; one of a calibration record makes its path stale (R543). -/
def State.readAny (s : State) (w : Nat) : State :=
  let ok := s.wordOk w
  let s := s.readWord w
  let i := (32 * w - 0xA00000) / 512
  if !ok && 0xA00000 ≤ 32 * w && i < 533 then s.foundStale i else s

/-- A range is read. -/
def State.readAnyRange (s : State) (a n : Nat) : State := (wordsOf a n).foldl State.readAny s

/-- Symbols of word w of a partial copy changed, and its syndromes. -/
def Partial.flip (p : Partial) (w : Nat) (es : List (Nat × Byte)) (errs : Word) : Partial :=
  { p with
    data := p.data.take (32 * w) ++ flipBytes es ((p.data.drop (32 * w)).take 32) ++ p.data.drop (32 * w + 32)
    errs := FMap.set (fun _ => 0#32) p.errs w errs }

/-- Word w of a partial copy is read: the copy as corrected, and whether the word can be used. The spec gives no address for a copy's word:
DETAIL is a free value (R34, R37, R40, R543) (open points: DEDUCED, log 41). -/
def State.readPartWord (s : State) (p : Partial) (w : Nat) : State × Partial × Bool :=
  match rsDecode (FMap.get (fun _ => 0#32) p.errs w) with
  | some [] => (s, p, true)
  | some es => (s.count (F.FLT_CORR_COUNT 0), p.flip w es 0#32, true)
  | none => ((s.count (F.FLT_UNC_COUNT 0)).draw.raise Cause.memory 0 (detail := s.fresh.toNat), p, false)

/-- A range of a partial copy is read, word by word (open points: DEDUCED, log 41). -/
def State.readPart (s : State) (p : Partial) (a n : Nat) : State × Partial × Bool :=
  (wordsOf a n).foldl (fun r w =>
    let x := r.1.readPartWord r.2.1 w
    (x.1, x.2.1, r.2.2 && x.2.2)) (s, p, true)

/-- Coarse bin b of a partial copy (R142, R154). -/
def Partial.bin (p : Partial) (b : Nat) : Nat := bits (leNat ((p.data.drop (64 + 3 * (b / 2))).take 3)) (12 * (b % 2)) 12

end Sys2Proof.Machine
end

