-- ==== Sys2Proof/Machine/Lzw.lean ====
section
/-!
DEFINITION. The dictionary coder of the Press (12_press.md): codes and dictionary (R416 to R419), blocks (R414, R415), the
job header (R413), and the job it makes of an input and reads back (R432).
-/
namespace Sys2Proof.Machine

/-- A reflected CRC-32 with its reflected polynomial, before the final XOR. -/
def crcByte (poly : Word) (c : Word) (b : Byte) : Word :=
  (List.range 8).foldl (fun c _ => if c.getLsbD 0 then (c >>> 1) ^^^ poly else c >>> 1) (c ^^^ b.setWidth 32)

/-- A reflected CRC-32, initial value and final XOR all ones. -/
def crcRef (poly : Word) (bs : List Byte) : Word := ~~~(bs.foldl (crcByte poly) 0xFFFFFFFF#32)

/-- The CRC of a job's input (R413): polynomial 0x04C1_1DB7, reflected. -/
def jobCrc (bs : List Byte) : Word := crcRef 0xEDB88320#32 bs

/-! ### Dictionary and codes -/

/-- The entries of a dictionary from code 256 on: the code each extends and the byte it appends (R416, R420). -/
abbrev Dict := List (Nat × Byte)

/-- The number of bits of 2^n or more values: the least k with n ≤ 2^k. -/
def clog2 (n : Nat) : Nat := if n ≤ 1 then 0 else Nat.log2 (n - 1) + 1

/-- The width of code i of a block (R417). -/
def codeWidth (dsize base i : Nat) : Nat := max 9 (clog2 (min dsize (base + i)))

/-- The code of an entry, if the dictionary has it. -/
def Dict.code (d : Dict) (w : Nat) (c : Byte) : Option Nat := (d.findIdx? fun e => e.1 = w && e.2 = c).map (· + 256)

/-- The codes of a block with their widths, from the prefix w on (R417). -/
def encodeFrom (dsize base : Nat) (d : Dict) (w i : Nat) : List Byte → List (Nat × Nat)
  | [] => [(w, codeWidth dsize base i)]
  | c :: cs =>
    match d.code w c with
    | some k => encodeFrom dsize base d k i cs
    | none =>
      let d' := if 256 + d.length < dsize then d ++ [(w, c)] else d
      (w, codeWidth dsize base i) :: encodeFrom dsize base d' c.toNat (i + 1) cs

/-- The codes of a block (R416, R417). -/
def encodeBlock (dsize : Nat) (primed : Dict) : List Byte → List (Nat × Nat)
  | [] => []
  | b :: bs => encodeFrom dsize (256 + primed.length) primed b.toNat 0 bs

/-- The bits of a value, least significant first. -/
def bitsOf : Nat → Nat → List Bool
  | 0, _ => []
  | n + 1, v => (v % 2 = 1) :: bitsOf n (v / 2)

/-- The value of bits, least significant first. -/
def ofBits : List Bool → Nat
  | [] => 0
  | b :: bs => (if b then 1 else 0) + 2 * ofBits bs

/-- Bits packed into bytes, least significant first, the last byte padded with zeros; n bounds the bytes (R418). -/
def packBits : Nat → List Bool → List Byte
  | 0, _ => []
  | _, [] => []
  | n + 1, bs => BitVec.ofNat 8 (ofBits (bs.take 8)) :: packBits n (bs.drop 8)

/-- The data of a compressed block (R418). -/
def packCodes (cs : List (Nat × Nat)) : List Byte :=
  let l := cs.flatMap fun c => bitsOf c.2 c.1
  packBits (l.length / 8 + 1) l

/-- The string of a code, last byte first; n bounds its length. -/
def Dict.rev (d : Dict) : Nat → Nat → List Byte
  | 0, _ => []
  | n + 1, c => if c < 256 then [BitVec.ofNat 8 c] else match d[c - 256]? with
    | some e => e.2 :: Dict.rev d n e.1
    | none => []

/-- The string of a code. -/
def Dict.string (d : Dict) (c : Nat) : List Byte := (d.rev (d.length + 1) c).reverse

/-- Whether the bits left after a block are what R419 allows: zeros, and fewer than a further code. -/
def padOk (width : Nat) (l : List Bool) : Bool := l.length < width && l.all fun b => !b

/-- The bytes that the codes of a block decode to, after code number i - 1 whose code was prev; none where the block is
malformed (R419). n bounds the codes. -/
def decodeFrom (dsize base : Nat) : Nat → Dict → Option Nat → Nat → List Bool → Nat → Option (List Byte)
  | 0, _, _, _, _, _ => none
  | n + 1, d, prev, i, l, need =>
    let w := codeWidth dsize base i
    if need = 0 then if padOk w l then some [] else none
    else if l.length < w then none
    else
      let c := ofBits (l.take w)
      let next := 256 + d.length
      let grown : Option (Dict × List Byte) := match prev with
        | none => if c < next then some (d, d.string c) else none
        | some p =>
          let old := d.string p
          if c < next then
            let s := d.string c
            some (if next < dsize then d ++ [(p, s.headD 0#8)] else d, s)
          else if c = next && next < dsize then some (d ++ [(p, old.headD 0#8)], old ++ [old.headD 0#8])
          else none
      match grown with
      | none => none
      | some (d, s) =>
        if need < s.length then none
        else (decodeFrom dsize base n d (some c) (i + 1) (l.drop w) (need - s.length)).map (s ++ ·)

/-- A compressed block of blen bytes decoded (R419). -/
def decodeBlock (dsize : Nat) (primed : Dict) (data : List Byte) (blen : Nat) : Option (List Byte) :=
  decodeFrom dsize (256 + primed.length) (blen + 1) primed none 0 (data.flatMap fun b => bitsOf 8 b.toNat) blen

/-! ### Blocks and jobs -/

/-- The input cut into pieces of 4,096 bytes (R414); n bounds them. -/
def cutBlocks : Nat → List Byte → List (List Byte)
  | 0, _ => []
  | _, [] => []
  | n + 1, bs => bs.take 4096 :: cutBlocks n (bs.drop 4096)

/-- Whether a block is sent stored (R415). -/
def isStored (dsize : Nat) (primed : Dict) (b : List Byte) : Bool := b.length ≤ (packCodes (encodeBlock dsize primed b)).length

/-- A block with its header (R414, R415). -/
def putBlock (dsize : Nat) (primed : Dict) (last : Bool) (b : List Byte) : List Byte :=
  let stored := isStored dsize primed b
  let data := if stored then b else packCodes (encodeBlock dsize primed b)
  leBytes 4 (data.length + 8192 * b01 stored + 16384 * b01 last + 65536 * b.length) ++ data

/-- The blocks of a job (R414, R415). -/
def putBlocks (dsize : Nat) (primed : Dict) (input : List Byte) : List Byte :=
  let l := cutBlocks (input.length / 4096 + 1) input
  ((List.range l.length).zip l).flatMap fun x => putBlock dsize primed (x.1 + 1 = l.length) x.2

/-- The blocks of a job that are stored (R415). -/
def storedBlocks (dsize : Nat) (primed : Dict) (input : List Byte) : Nat :=
  ((cutBlocks (input.length / 4096 + 1) input).filter (isStored dsize primed)).length

/-- What a job's dictionary is: DSIZE, and the static table it primes: its TSEL, TABID and entries (R416, R420). -/
structure Coder where
  big : Bool
  table : Option (Nat × Nat × Dict)
  deriving DecidableEq, Repr

/-- The dictionary size D. -/
def Coder.dsize (k : Coder) : Nat := if k.big then 16384 else 4096

/-- The primed entries. -/
def Coder.primed (k : Coder) : Dict := match k.table with
  | some t => t.2.2
  | none => []

/-- A compressed job (R413): header and blocks. -/
def putJob (k : Coder) (src seq tstamp : Nat) (input : List Byte) : List Byte :=
  let blocks := putBlocks k.dsize k.primed input
  let tsel := match k.table with
    | some t => t.1
    | none => 0
  let tabid := match k.table with
    | some t => t.2.1
    | none => 0
  leBytes 2 0x5850 ++ leBytes 1 1 ++ leBytes 1 (b01 k.big + 2 * b01 k.table.isSome + 4 * tsel) ++ leBytes 2 tabid
    ++ leBytes 2 ((input.length + 4095) / 4096) ++ leBytes 4 input.length ++ leBytes 4 blocks.length
    ++ leBytes 4 (jobCrc input).toNat ++ leBytes 2 src ++ leBytes 2 seq ++ leBytes 4 tstamp ++ leBytes 4 0 ++ blocks

/-- The blocks of a job read back (R419, R432): nblk blocks, LAST in the last alone; none where one is malformed, a reserved
bit is set or bytes are left over (open points: DESIGN CHOICE, log 76). -/
def getBlocks (dsize : Nat) (primed : Dict) : Nat → List Byte → Option (List Byte)
  | 0, _ => none
  | n + 1, bs =>
    let h := leNat (bs.take 4)
    let dlen := bits h 0 13
    let blen := bits h 16 13
    let data := (bs.drop 4).take dlen
    let rest := bs.drop (4 + dlen)
    let ok := 4 + dlen ≤ bs.length && dlen ≤ 4096 && 1 ≤ blen && blen ≤ 4096 && !bit h 15 && bits h 29 3 = 0
    if !ok then none
    else
      match (if bit h 13 then (if dlen = blen then some data else none) else decodeBlock dsize primed data blen) with
      | none => none
      | some out =>
        if bit h 14 then (if n = 0 && rest.isEmpty then some out else none)
        else (getBlocks dsize primed n rest).map (out ++ ·)

/-- A field of a job header: n bytes at byte i. -/
def hdrField (bs : List Byte) (i n : Nat) : Nat := leNat ((bs.drop i).take n)

/-- Whether a job header is one of R413: whole, MAGIC, VERSION, reserved bits 0, OUTLEN within the source (R432)
(open points: DESIGN CHOICE, log 76). -/
def jobHeaderOk (bs : List Byte) : Bool :=
  32 ≤ bs.length && hdrField bs 0 2 = 0x5850 && hdrField bs 2 1 = 1 && hdrField bs 3 1 < 8 && hdrField bs 21 1 = 0
    && hdrField bs 28 4 = 0 && hdrField bs 12 4 + 32 ≤ bs.length

/-- The input that a job decodes to; none where it is malformed (R432). -/
def getJob (k : Coder) (bs : List Byte) : Option (List Byte) :=
  let blocks := (bs.drop 32).take (hdrField bs 12 4)
  match getBlocks k.dsize k.primed (hdrField bs 6 2) blocks with
  | some out => if out.length = hdrField bs 8 4 && (jobCrc out).toNat = hdrField bs 16 4 then some out else none
  | none => none

end Sys2Proof.Machine
end

