-- ==== Sys2Proof/Machine/Peek.lean ====
section
/-!
DEFINITION. What a register and a program address read as, without any effect of the read: the value of a BAR0 register
(R9 to R12, R490, R608), and the regions of the program addresses that every engine reads (R354).
-/
namespace Sys2Proof.Machine

/-- The fault log lies in the BAR0 window (R538) (open points: DESIGN CHOICE, log 26). -/
def isLog (off : Nat) : Bool := 0x5A000 ≤ off && off < 0x5C000

/-- HIF registers read as their reset values in SOLO, HIF_EVSTAT apart (R490) (open points: DEDUCED, log 27). -/
def State.hifHidden (s : State) (off : Nat) : Bool :=
  s.solo && 0x4000 ≤ off && off < 0x8000 && off ≠ F.HIF_EVSTAT_CAUSE.off

/-- A table locks in the configuration word of a channel that is compressed (R422). -/
def cfgNames (t : Nat) (v : Word) : Bool := v.getLsbD 3 && (bits v.toNat 4 1 = t)

/-- The device offsets of the descriptors that wait in the Press ring, oldest first (R430) (open points: DEDUCED, log 75). -/
def State.ringWaiting (s : State) : List Nat :=
  let size := s.get F.PRS_HSIZE_SIZE
  let cons := s.get F.PRS_HCONS_CONS
  if size = 0 then []
  else (List.range ((s.get F.PRS_HPROD_PROD + size - cons) % size)).map fun k =>
    s.get F.PRS_HBASE_BASE + 32 * ((cons + k) % size)

/-- The regions that every engine may read (R354), by program address: shared memory, the register window, and the tables,
Cellar and journal of the BAR2 window. -/
inductive Region where
  | shared
  | regs
  | bar2 (mem : Nat)
  deriving DecidableEq, Repr

/-- The region of a program address that every engine may read, with the offset in its memory or window. -/
def progRegion (a : Nat) : Option (Region × Nat) :=
  if 0x400000 ≤ a && a < 0x800000 then some (.shared, a)
  else if 0x10000000 ≤ a && a < 0x10060000 then some (.regs, a - 0x10000000)
  else if 0x20000000 ≤ a && a < 0x30000000 then
    match memIndex (a - 0x20000000) with
    | some m => if m = 4 || m = 5 || m = 7 then some (.bar2 m, a - 0x20000000) else none
    | none => none
  else none

/-- The memory offset of the FLAGS byte of a decompression's job header, where a memory holds it. -/
def flagsAt (src : Nat) : Option Nat := match progRegion src with
  | some (.regs, _) => none
  | some (_, off) => some (off + 3)
  | none => none

/-- The words that say which static tables queued descriptors use are read: each descriptor's first, and a decompression's job header (R37,
R40, R422) (open points: DEDUCED, log 75). -/
def State.descTouch (s : State) : State :=
  s.ringWaiting.foldl (fun s a =>
    let s := s.touchRange a 8
    if s.rangeOk a 8 && bits (s.num a 4) 0 2 = 2 then
      match flagsAt (s.num (a + 4) 4) with
      | some x => s.touchRange x 1
      | none => s
    else s) s

/-- The static table that a queued descriptor's job uses: a compression's CTL names it, a decompression's job header (R422, R430). A word that
cannot be read names none (R40). -/
def State.descTable (s : State) (a : Nat) : Option Nat :=
  let ctl := s.num a 4
  if !s.rangeOk a 8 then none
  else if bits ctl 0 2 = 1 then (if bit ctl 3 then some (bits ctl 4 1) else none)
  else if bits ctl 0 2 = 2 then
    let src := s.num (a + 4) 4
    let flags := match progRegion src with
      | some (.regs, off) => bits (s.reg ((off + 3) / 4 * 4)).toNat (8 * ((off + 3) % 4)) 8
      | some (_, off) => (s.table (off + 3) 1).getD 0
      | none => 0
    if bit flags 1 then some (bits flags 2 1) else none
  else none

/-- A static table is locked (R422) (open points: DEDUCED, log 75). -/
def State.tableLocked (s : State) (t : Nat) : Bool :=
  ([0x50010, 0x50014].any fun r => (s.reg r).getLsbD 0 && cfgNames t (s.reg r))
  || ([0, 3].any fun vc => (s.stl.jobs.getD vc []).any fun j => cfgNames t j.cfg && match j.state with
    | .open _ => true
    | .closed => true
    | .running _ => true
    | .ready _ => false
    | .plain => false)
  || (s.prs.toList.any fun w => match w with
    | some w => w.table = some t
    | none => false)
  || (s.ringWaiting.any fun a => s.descTable a = some t)

/-- The value of the BAR0 register at an offset, as a read returns it; none for an offset that is unaligned or unassigned
(R11, R12) (open points: DESIGN CHOICE, log 26). -/
def State.peek (s : State) (off : Nat) : Option Word :=
  if off % 4 ≠ 0 then none
  else if isLog off then some (s.reg off)
  else match findReg off with
    | none => none
    | some (d, _, _) =>
      if s.hifHidden off then some (resetVal off)
      else match d.id with
        | .sysDtlo => some (BitVec.ofNat 32 s.dt)
        | .seqTclo => some (BitVec.ofNat 32 s.seq.fsq.tc)
        | .fleNstat =>
          let n := fun k => (s.fle.notices.filter fun x => x.kind = k).length
          some (BitVec.ofNat 32 (s.dt / 1638400000 % 65536 * 65536 + b01 (0 < n 2) * 256 + n 1))
        | .fleSynclo => some (BitVec.ofNat 32 (s.fle.syncs.headD 0))
        | .prsStat => some (s.reg off ||| BitVec.ofNat 32 (256 * b01 (s.tableLocked 0) + 512 * b01 (s.tableLocked 1)))
        | _ => some (s.reg off &&& ~~~(BitVec.ofNat 32 d.wo))

/-- n bytes of the register window from a BAR0 offset, unassigned offsets 0 (R608). -/
def State.peekBytes (s : State) (off n : Nat) : List Byte :=
  (List.range n).map fun i =>
    (((s.peek ((off + i) / 4 * 4)).getD 0#32) >>> (8 * ((off + i) % 4))).setWidth 8

end Sys2Proof.Machine
end

