-- ==== Sys2Proof/Machine/Press.lean ====
section
/-!
DEFINITION. The Press (12_press.md): stream jobs, host jobs, static tables, its engines and their faults.
-/
namespace Sys2Proof.Machine

/-! ### Static tables -/

/-- The BAR2 offset of static table t (R420). -/
def tabBase (t : Nat) : Nat := 0xB00000 + 0x10000 * t

/-- The entries of a static table (R420). -/
def State.tabEntries (s : State) (t : Nat) : Dict :=
  (List.range (s.num (tabBase t) 2)).map fun k =>
    (s.num (tabBase t + 32 + 4 * k) 2 % 16384, s.byte (tabBase t + 34 + 4 * k))

/-- The DSIZE that a static table is made for (R420). -/
def State.tabBig (s : State) (t : Nat) : Bool := bit (s.num (tabBase t + 4) 1) 0

/-- The bytes of a static table: its header and COUNT entries, within its 64 KiB (R420) (open points: DEDUCED, log 77). -/
def State.tabSize (s : State) (t : Nat) : Nat := min 0x10000 (32 + 4 * s.num (tabBase t) 2)

/-- A read of a static table: its words are corrected, or detected, first (R37, R40). -/
def State.tabTouch (s : State) (t : Nat) : State :=
  let s := s.touchRange (tabBase t) 32
  s.touchRange (tabBase t + 32) (s.tabSize t - 32)

/-- A static table is valid (R421). A word of it that cannot be read makes it invalid (R543, memory 4). -/
def State.tabValid (s : State) (t : Nat) : Bool :=
  let n := s.num (tabBase t) 2
  let d := if s.tabBig t then 16384 else 4096
  let e := s.tabEntries t
  s.rangeOk (tabBase t) 32 && 1 ≤ n && n ≤ d - 256 && s.rangeOk (tabBase t) (s.tabSize t)
    && ((List.range n).zip e).all (fun x => x.2.1 < 256 + x.1) && decide e.Nodup
    && s.num (tabBase t + 4) 1 < 2 && s.num (tabBase t + 5) 27 = 0
    && (List.range n).all fun k =>
      bits (s.num (tabBase t + 32 + 4 * k) 4) 14 2 = 0 && bits (s.num (tabBase t + 32 + 4 * k) 4) 24 8 = 0

/-- The check of a table that is named with a DSIZE: PRS_STAT.TVALID shows its result (R421). -/
def State.checkTable (s : State) (t : Nat) : State :=
  let s := s.tabTouch t
  s.putB ⟨F.PRS_STAT_TVALID.off, F.PRS_STAT_TVALID.lo + t, 1⟩ (s.tabValid t)

/-- A table that may be named with a DSIZE (R421). -/
def State.tabNamed (s : State) (t : Nat) (big : Bool) : Bool := s.tabValid t && s.tabBig t = big

/-- The coder of a job by DSIZE, STATIC and TSEL. -/
def State.coder (s : State) (big static : Bool) (t : Nat) : Coder :=
  ⟨big, if static then some (t, s.num (tabBase t + 2) 2, s.tabEntries t) else none⟩

/-! ### Stream jobs -/

/-- A job of a channel changed. -/
def State.modJob (s : State) (vc id : Nat) (f : Job → Job) : State :=
  let js := modFirst (fun (j : Job) => j.id = id) f (s.stl.jobs.getD vc [])
  { s with stl := { s.stl with jobs := s.stl.jobs.setIfInBounds vc js } }

/-- A job leaves its channel. -/
def State.dropJob (s : State) (vc id : Nat) : State :=
  let js := dropFirst (fun (j : Job) => j.id = id) (s.stl.jobs.getD vc [])
  { s with stl := { s.stl with jobs := s.stl.jobs.setIfInBounds vc js } }

/-- The open job of a channel closes at its flush time (R424). -/
def State.flushJob (s : State) (vc t : Nat) : State :=
  match (s.stl.jobs.getD vc []).find? Job.isOpen with
  | some j => match j.state with
    | .open t0 => if t0 + 1600 * bits j.cfg.toNat 24 8 ≤ t then s.modJob vc j.id fun j => { j with state := .closed } else s
    | _ => s
  | none => s

/-- STREAM_JOB_FLUSH: FLUSH µs after it opened, a stream job closes (R424). -/
def execStreamJobFlush (vc : PVc) (t : Nat) (s : State) : Host.Outcome State Fault Refusal :=
  act s ((s.at t).flushJob (match vc with
    | .vc0 => 0
    | .vc3 => 3) t)

/-- A job that an engine can take: closed, and every record of it in place (R424, R548). -/
def Job.waits (j : Job) : Bool := j.state = .closed && j.items.all fun i => !i.hole

/-- A job's items dropped and counted; they count as accepted (R412, R429, R435). -/
def State.dropItems (s : State) (vc : Nat) (j : Job) : State :=
  (j.items.foldl State.accept ((s.countN (F.PRS_CNT_COUNT 4) j.items.length).dropJob vc j.id)).showBuf vc

/-- A stream job dropped by POLICY (R429). -/
def State.discardJob (s : State) (vc : Nat) (j : Job) : State := (s.count (F.PRS_CNT_COUNT 3)).dropItems vc j

/-- The input of a stream job. -/
def Job.input (j : Job) : List Byte := j.items.flatMap fun i => i.data

/-- A stream job finishes (R413, R425, R426, R428, R429). A job whose static table can no longer be read is sent uncompressed
(open points: DEDUCED, log 77). -/
def State.streamDone (s : State) (vc id started : Nat) : State :=
  match (s.stl.jobs.getD vc []).find? fun j => j.id = id with
  | some j =>
    let t := bits j.cfg.toNat 4 1
    let static := j.cfg.getLsbD 3
    let s := if static then s.tabTouch t else s
    if j.items.any (fun i => i.hole) || (static && !s.rangeOk (tabBase t) (s.tabSize t)) then
      s.modJob vc id fun j => { j with state := .plain, readyAt := s.dt }
    else
      let k := s.coder (j.cfg.getLsbD 2) static t
      let out := putJob k (if vc = 0 then 1 else 4) id started j.input
      if out.length ≤ 4096 then
        (s.countN (F.PRS_CNT_COUNT 1) (storedBlocks k.dsize k.primed j.input)).modJob vc id fun j => { j with state := .ready out, readyAt := s.dt }
      else if j.cfg.getLsbD 1 then
        (s.count (F.PRS_CNT_COUNT 2)).modJob vc id fun j => { j with state := .plain, readyAt := s.dt }
      else s.discardJob vc j
  | none => s

/-! ### Host jobs -/

/-- Status codes of a completion (R430). -/
abbrev pressOk : Nat := 1
abbrev pressOverflow : Nat := 2
abbrev pressFormat : Nat := 3
abbrev pressFaulted : Nat := 4

/-- A region of memory whose contents are undefined takes free bytes (R426, R432)
(open points: DESIGN CHOICE, log 6; DESIGN CHOICE, log 76). -/
def State.freeRange (s : State) (a n : Nat) : State :=
  let bs := (List.range n).map fun i => (Config.freeWord (s.free + i)).setWidth 8
  { s.store a bs with free := s.free + n }

/-- A completion: STATUS and OUTLEN in the descriptor, the counter, and the vector 10 event where EVT is set (R430, R508). -/
def State.completeHost (s : State) (desc ctl status outlen : Nat) : State :=
  let s := s.store (desc + 24) (leBytes 4 status ++ leBytes 4 outlen)
  let s := if status = pressOk then s.count (F.PRS_CNT_COUNT 5) else if status = pressOverflow then s.count (F.PRS_CNT_COUNT 6)
    else if status = pressFormat then s.count (F.PRS_CNT_COUNT 9) else s
  s.eventIf (bit ctl 5) 10

/-- A host job that fails: its destination's contents are undefined (R426, R432) (open points: DESIGN CHOICE, log 76). -/
def State.failHost (s : State) (h : PressHost) (status : Nat) : State :=
  (s.freeRange h.dst h.dstlen).completeHost h.desc h.ctl status 0

/-- A host job's output delivered whole (R426), or refused where it would pass DSTLEN (R427); a destination word that cannot
be written in part ends the job with FAULT (R38). -/
def State.deliver (s : State) (h : PressHost) (out : List Byte) : State :=
  if h.dstlen < out.length then s.failHost h pressOverflow
  else if s.storeOk h.dst out.length then (s.store h.dst out).completeHost h.desc h.ctl pressOk out.length
  else (s.store h.dst out).completeHost h.desc h.ctl pressFaulted 0

/-- The bytes at a program address of a region (R354) (open points: DESIGN CHOICE, log 74). -/
def State.regionBytes (s : State) (r : Region) (off n : Nat) : List Byte := match r with
  | .regs => s.peekBytes off n
  | _ => s.bytes off n

/-- What a running job read: where another party has since written, that is not specified (R433), and the byte is free; an upset that a
read corrects, or that leaves its word uncorrectable, changes nothing of it (R37) (open points: DESIGN CHOICE, log 74). -/
def State.inputRead (s : State) (h : PressHost) : List Byte :=
  match progRegion h.src with
  | some (.regs, _) => h.input
  | some (r, off) =>
    let t := s.touchRange off h.srclen
    ((List.range h.srclen).zip (h.input.zip (t.regionBytes r off h.srclen))).map fun x =>
      if x.2.1 = x.2.2 || !t.wordOk ((off + x.1) / 32) then x.2.1 else (Config.freeWord (s.free + x.1)).setWidth 8
  | none => h.input

/-- A decompression whose header passes (R432): the static table that it names, checked against the table held
(open points: DESIGN CHOICE, log 76). -/
def State.jobCoder (s : State) (input : List Byte) : Option Coder :=
  let flags := hdrField input 3 1
  let t := bits flags 2 1
  if bit flags 1 then
    if s.tabValid t && s.num (tabBase t + 2) 2 = hdrField input 4 2 && s.tabBig t = bit flags 0 then
      some (s.coder (bit flags 0) true t)
    else none
  else some (s.coder (bit flags 0) false 0)

/-- A decompression finishes; a static table that it names is read as corrected (R37, R40, R432) (open points: DESIGN CHOICE, log 76). -/
def State.expand (s : State) (h : PressHost) (input : List Byte) : State :=
  if !jobHeaderOk input then s.failHost h pressFormat
  else if h.dstlen < hdrField input 8 4 then s.failHost h pressOverflow
  else
    let flags := hdrField input 3 1
    let s := if bit flags 1 then s.tabTouch (bits flags 2 1) else s
    match s.jobCoder input with
    | none => s.failHost h pressFormat
    | some k => match getJob k input with
      | some out => s.deliver h out
      | none => s.failHost h pressFormat

/-- A compression finishes (R413 to R415, R426). -/
def State.compress (s : State) (h : PressHost) (started : Nat) (input : List Byte) : State :=
  let t := bits h.ctl 4 1
  let static := bit h.ctl 3
  let s := if static then s.tabTouch t else s
  if static && !s.rangeOk (tabBase t) (s.tabSize t) then s.failHost h pressFaulted
  else
    let k := s.coder (bit h.ctl 2) static t
    let out := putJob k 0 0 started input
    let s := if out.length ≤ h.dstlen then s.countN (F.PRS_CNT_COUNT 1) (storedBlocks k.dsize k.primed input) else s
    s.deliver h out

/-- A host job finishes (R430 to R433). -/
def State.hostDone (s : State) (h : PressHost) (started : Nat) : State :=
  let input := s.inputRead h
  let s := { s with free := s.free + h.srclen }
  if h.op = 1 then s.compress h started input else s.expand h input

/-! ### Engines -/

/-- PRS_STAT.BUSY follows the engines. -/
def State.setPress (s : State) (e : Nat) (w : Option PressWork) : State :=
  { s with prs := s.prs.setIfInBounds e w }.putB ⟨F.PRS_STAT_BUSY.off, F.PRS_STAT_BUSY.lo + e, 1⟩ w.isSome

/-- A retired engine (R435). -/
def State.pressRetired (s : State) (e : Nat) : Bool := bit (s.get F.PRS_STAT_FAIL) e

/-- No engine is in service (R436). -/
def State.pressNone (s : State) : Bool := s.get F.PRS_STAT_FAIL = 15

/-- A word of CTL, or another field of a descriptor (open points: DEDUCED, log 75). -/
def State.descField (s : State) (a i : Nat) : Nat := s.num (a + 4 * i) 4

/-- The case of R431 by which a descriptor is ignored, 0 where it is not (open points: DEDUCED, log 75). -/
def State.ignoreWhy (s : State) (a : Nat) : Nat :=
  let ctl := s.descField a 0
  let op := bits ctl 0 2
  let src := s.descField a 1
  let srclen := s.descField a 2
  let dst := s.descField a 3
  let dstlen := s.descField a 4
  let last := match progRegion src with
    | some (r, off) => match progRegion (src + srclen - 1) with
      | some (r', off') => r = r' && off ≤ off'
      | none => false
    | none => true
  let shared := 0x400000 ≤ dst && dst < 0x800000
  if op = 0 || op = 3 || 64 ≤ ctl || (op = 2 && bits ctl 2 3 ≠ 0) then 1
  else if srclen = 0 then 2
  else if 4194304 < srclen || !last || (shared && 0x800000 < dst + dstlen) then 3
  else if (progRegion src).isNone then 4
  else if !shared then 5
  else if src < dst + dstlen && dst < src + srclen then 6
  else if bit ctl 3 && !s.tabNamed (bits ctl 4 1) (bit ctl 2) then 7
  else 0

/-- An engine takes the descriptor at the head of the ring (R430, R431, R436, R543): whether it keeps the engine busy
(open points: DESIGN CHOICE, log 74). -/
def State.takeDesc (s : State) (e a : Nat) : State × Bool :=
  let cons := s.get F.PRS_HCONS_CONS
  let s := s.put F.PRS_HCONS_CONS ((cons + 1) % s.get F.PRS_HSIZE_SIZE)
  let s := s.touchRange a 32
  let ctl := s.descField a 0
  if !s.rangeOk a 32 then (s.completeHost a 0 pressFaulted 0, false)
  else
    let s := if bits ctl 0 2 = 1 && bit ctl 3 then s.checkTable (bits ctl 4 1) else s
    let why := s.ignoreWhy a
    if why ≠ 0 then
      (((s.count (F.PRS_CNT_COUNT 7)).put F.PRS_IGNLAST_WHY why).put F.PRS_IGNLAST_INDEX cons, false)
    else if s.pressNone then (s.completeHost a ctl pressFaulted 0, false)
    else match progRegion (s.descField a 1) with
      | none => (s, false)
      | some (r, off) =>
        let n := s.descField a 2
        let mem := r ≠ .regs
        let s := if mem then s.touchRange off n else s
        if mem && r ≠ .bar2 7 && !s.rangeOk off n then (s.completeHost a ctl pressFaulted 0, false)
        else
          let h : PressHost :=
            ⟨a, bits ctl 0 2, ctl, s.descField a 1, n, s.descField a 3, s.descField a 4, s.regionBytes r off n⟩
          let table := if h.op = 1 then (if bit ctl 3 then some (bits ctl 4 1) else none)
            else if bit (hdrField h.input 3 1) 1 then some (bits (hdrField h.input 3 1) 2 1) else none
          (s.setPress e (some ⟨.host h, s.dt, table⟩), true)

/-- Descriptors taken in ring order until one keeps the engine; n bounds them (open points: DESIGN CHOICE, log 74). -/
def State.takeDescs (s : State) (e : Nat) : Nat → State
  | 0 => s
  | n + 1 => match s.ringWaiting with
    | [] => s
    | a :: _ =>
      let r := s.takeDesc e a
      if r.2 then r.1 else State.takeDescs r.1 e n

/-- The oldest stream job that an engine can take: of VC0, then of VC3 (R434). -/
def State.nextJob (s : State) : Option (Nat × Job) :=
  match (s.stl.jobs.getD 0 []).find? Job.waits with
  | some j => some (0, j)
  | none => ((s.stl.jobs.getD 3 []).find? Job.waits).map fun j => (3, j)

/-- A free engine takes closed work (R434). While no engine is in service, stream jobs go uncompressed and host descriptors
complete with FAULT (R436) (open points: DESIGN CHOICE, log 74). -/
def State.pressStart (s : State) (e : Nat) : State :=
  if (s.prs.getD e none).isSome || (s.pressRetired e && !s.pressNone) then s
  else match s.nextJob with
    | some (vc, j) =>
      let s := s.readJob vc j.id
      if !((s.stl.jobs.getD vc []).any fun x => x.id = j.id && x.waits) then s
      else if s.pressNone then s.modJob vc j.id fun j => { j with state := .plain, readyAt := s.dt }
      else
        let table := if j.cfg.getLsbD 3 then some (bits j.cfg.toNat 4 1) else none
        (s.modJob vc j.id fun j => { j with state := .running e }).setPress e (some ⟨.stream vc j.id, s.dt, table⟩)
    | none => s.takeDescs e s.ringWaiting.length

/-- PRESS_JOB_START: a free engine takes closed work (R434). -/
def execPressJobStart (e : Fin 4) (s : State) : Host.Outcome State Fault Refusal := act s (s.pressStart e)

/-- PRESS_JOB_COMPLETE: the job of an engine finishes (R415, R425 to R432). -/
def execPressJobComplete (e : Fin 4) (s : State) : Host.Outcome State Fault Refusal :=
  act s (match s.prs.getD e none with
    | some w =>
      let s := s.setPress e none
      match w.job with
      | .stream vc id => s.streamDone vc id w.started
      | .host h => s.hostDone h w.started
    | none => s)

/-- The identities of the contexts that items belong to. -/
def ctxsOf (l : List Item) : List Nat := (l.filterMap fun i => i.ctx).eraseDups

/-- The records of a pixel that goes to processing replay leave holes in their places (R548)
(open points: DEDUCED, log 47; DEDUCED, log 77). -/
def Item.punch (s : State) (i : Item) : Item := match i.ctx with
  | some id => if (s.ctx? id).isSome then { i with hole := true } else i
  | none => i

/-- Every stream job that waits goes uncompressed once no engine is in service (R436) (open points: DEDUCED, log 77). -/
def State.unserved (s : State) : State :=
  if s.pressNone then
    let f : Job → Job := fun j => if j.state = .closed then { j with state := .plain, readyAt := s.dt } else j
    { s with stl := { s.stl with jobs := s.stl.jobs.map fun (l : List Job) => l.map f } }
  else s

/-- A Press fault: the job is abandoned, the engine retired, one fault raised (R435, R436, R547, R548)
(open points: DEDUCED, log 77). -/
def State.pressFault (s : State) (e : Nat) : State :=
  match s.prs.getD e none with
  | none => s
  | some w =>
    let s := ((s.setPress e none).put F.PRS_STAT_FAIL (s.get F.PRS_STAT_FAIL ||| 2 ^ e)).count (F.PRS_CNT_COUNT 8)
    match w.job with
    | .host h => ((s.raise Cause.press e (retired := true)).failHost h pressFaulted).unserved
    | .stream vc id =>
      match (s.stl.jobs.getD vc []).find? fun j => j.id = id with
      | none => (s.raise Cause.press e (retired := true)).unserved
      | some j =>
        if vc = 0 then
          let ids := ctxsOf j.items
          let s := s.raise Cause.press e (proc := ids) (retired := true)
          let s := s.modJob vc id fun j => { j with state := .plain, readyAt := s.dt, items := j.items.map (Item.punch s) }
          (ids.foldl State.toReplay s).unserved
        else ((s.raise Cause.press e (retired := true)).dropItems vc j).unserved

/-- PRESS_FAULT: a mismatch of the shadow decoder or a parity error of the dictionary (R435). -/
def execPressFault (e : Fin 4) (s : State) : Host.Outcome State Fault Refusal := act s (s.pressFault e)

/-! ### Registers -/

/-- A write to PRS_HPROD: it submits descriptors (R430). A value of SIZE or more is ignored. -/
def State.hprodWrite (s : State) (src : Src) (v : Word) : State :=
  let p := F.PRS_HPROD_PROD.of v
  if s.get F.PRS_HSIZE_SIZE ≤ p then s.ignoreReg src F.PRS_HPROD_PROD.off else s.put F.PRS_HPROD_PROD p

/-- PRESS_HPROD_WRITE. -/
def execPressHprodWrite (src : Src) (v : Word) (s : State) : Host.Outcome State Fault Refusal := actBy src s (s.hprodWrite src v)

/-- A write to PRS_HBASE or PRS_HSIZE: both registers as the write leaves them are judged (R430). -/
def State.ringWrite (s : State) (src : Src) (off base size : Nat) : State :=
  if s.get F.PRS_HPROD_PROD ≠ s.get F.PRS_HCONS_CONS || base % 32 ≠ 0 || 256 < size
      || (size ≠ 0 && (base < 0x400000 || 0x800000 < base + 32 * size)) then
    s.ignoreReg src off
  else (((s.put F.PRS_HBASE_BASE base).put F.PRS_HSIZE_SIZE size).put F.PRS_HPROD_PROD 0).put F.PRS_HCONS_CONS 0

/-- A write to PRS_SCFGv: the table it names is checked (R421), and an accepted write applies to jobs that open after it. -/
def State.scfgWrite (s : State) (src : Src) (vc : Nat) (v : Word) : State :=
  let off := scfgOff vc
  let v := v &&& 0xFF03FF1F#32
  let t := bits v.toNat 4 1
  let static := v.getLsbD 3
  let sinmax := bits v.toNat 8 10
  let s := if static then s.checkTable t else s
  if bits v.toNat 24 8 = 0 || sinmax = 0 || 512 < sinmax || (static && !s.tabNamed t (v.getLsbD 2)) then s.ignoreReg src off
  else ((s.setReg off v).pressTake vc).showBuf vc

/-- STREAM_PRESS_CONFIG: a write to PRS_SCFGv (R411, R421, R424). -/
def execStreamPressConfig (src : Src) (vc : PVc) (v : Word) (s : State) : Host.Outcome State Fault Refusal :=
  actBy src s (s.scfgWrite src (match vc with
    | .vc0 => 0
    | .vc3 => 3) v)

end Sys2Proof.Machine
end

