-- ==== Sys2Proof/Machine/Decanter.lean ====
section
/-!
DEFINITION. The Decanter: the filter chain and its candidate blocks, configuration sets, and the passes of the sixteen lanes
(05_decanter.md).
-/
namespace Sys2Proof.Machine

/-! ### Stage words -/

/-- A stage output: its value, and its saturation mark (R176). -/
abbrev Sample := Int × Bool

/-- A stage's shift with rounding towards +infinity, saturated to 24 bits; the flag says that it saturated (R176). -/
def stageOut (sh : Nat) (a : Int) : Sample :=
  let r := if sh = 0 then a else (a + (2 ^ (sh - 1) : Nat)).fdiv (2 ^ sh : Nat)
  (satInt 24 r, satInt 24 r ≠ r)

/-- The sample at an index; outside the range produced it is 0 (R177). -/
def sampleAt (x : List Sample) (i : Int) : Sample := if i < 0 then (0, false) else x.getD i.toNat (0, false)

/-- One output of a filter with taps at offsets: the sum over offset and coefficient, and whether a sample that it used carries
the mark (R176, R180 to R182). -/
def filterAt (taps : List (Nat × Int)) (x : List Sample) (m : Nat) : Int × Bool :=
  taps.foldl (fun acc t =>
    let v := sampleAt x ((m : Int) - t.1)
    (acc.1 + t.2 * v.1, acc.2 || v.2)) (0, false)

/-- A filter stage over its whole response, every step-th output kept; also how many outputs saturated. Whether a full-rate output that the
half-band stage drops is tested for saturation is not stated: only kept outputs are computed and counted (R181, R184)
(open points: DEDUCED, log 44). -/
def filterStage (taps : List (Nat × Int)) (span sh step : Nat) (x : List Sample) : List Sample × Nat :=
  let n := (x.length + span - 1) / step + (if (x.length + span - 1) % step = 0 then 0 else 1)
  let y := (List.range n).map fun j =>
    let a := filterAt taps x (step * j)
    let o := stageOut sh a.1
    ((o.1, o.2 || a.2), o.2)
  (y.map (·.1), (y.filter (·.2)).length)

/-! ### Configuration sets -/

/-- A configuration set as it stands in table memory (R195). -/
structure DecSet where
  bkg : Bool
  mf : Bool
  hb : Bool
  f2 : Bool
  l1 : Nat
  m : Nat
  l2 : Nat
  sh1 : Nat
  sh2 : Nat
  sh3 : Nat
  sh4 : Nat
  bkmul : Nat
  bkadd : Nat
  bfloor : Nat
  ncand : Nat
  pcnt : Nat × Nat
  c1 : List Int
  g : List Int
  c2 : List Int
  /-- Entries of profiles 0 and 1: START, MUL, ADD. -/
  prof : List (Nat × Nat × Int) × List (Nat × Nat × Int)
  deriving DecidableEq, Repr

/-- The BAR2 offset of a set (R195). -/
def setBase (x : Nat) : Nat := 0x860000 + 0x400 * x

/-- n signed 16-bit coefficients from an offset. -/
def State.coeffs (s : State) (a n : Nat) : List Int := (List.range n).map fun i => sint 16 (s.num (a + 2 * i) 2)

/-- Sixteen profile entries from an offset. -/
def State.profile (s : State) (a : Nat) : List (Nat × Nat × Int) :=
  (List.range 16).map fun i =>
    (s.num (a + 8 * i) 2, bits (s.num (a + 8 * i + 2) 2) 0 12, sint 24 (bits (s.num (a + 8 * i + 4) 4) 0 24))

/-- A set read from table memory (open points: DEDUCED, log 44). -/
def State.readSet (s : State) (x : Nat) : DecSet :=
  let a := setBase x
  let st := s.num a 4
  let sh := s.num (a + 4) 4
  let bk := s.num (a + 8) 4
  { bkg := bit st 0, mf := bit st 1, hb := bit st 2, f2 := bit st 3, l1 := bits st 4 4, m := bits st 8 2 + 1, l2 := bits st 10 3
    sh1 := bits sh 0 3, sh2 := bits sh 8 5, sh3 := bits sh 16 5, sh4 := bits sh 24 5, bkmul := bits bk 0 8
    bkadd := bits bk 8 16, bfloor := bits (s.num (a + 12) 4) 0 24, ncand := bits (s.num (a + 16) 1) 0 4
    pcnt := (bits (s.num (a + 17) 1) 0 5, bits (s.num (a + 18) 1) 0 5), c1 := s.coeffs (a + 0x20) 16
    g := s.coeffs (a + 0x40) 4, c2 := s.coeffs (a + 0x48) 8
    prof := (s.profile (a + 0x80), s.profile (a + 0x100)) }

/-- Taps of a symmetric filter with centre coefficient c[0] (R180, R182). -/
def symTaps (l : Nat) (c : List Int) : List (Nat × Int) :=
  (List.range (2 * l + 1)).map fun k => (k, c.getD ((k : Int) - l).natAbs 0)

/-- Taps of the half-band filter: the centre and the odd offsets (R181). -/
def halfTaps (m : Nat) (g : List Int) : List (Nat × Int) :=
  (2 * m - 1, 16384) :: (List.range m).flatMap fun j =>
    [(2 * m - 1 - (2 * j + 1), g.getD j 0), (2 * m - 1 + (2 * j + 1), g.getD j 0)]

/-- F (R183). -/
def DecSet.f (d : DecSet) : Nat := if d.hb then 2 else 1

/-- D_in in input bins (R183). -/
def DecSet.din (d : DecSet) : Nat :=
  (if d.mf then d.l1 else 0) + (if d.hb then 2 * d.m - 1 else 0) + (if d.f2 then d.f * d.l2 else 0)

/-- The exact convolution of two responses. -/
def convolve (a b : List Int) : List Int :=
  (List.range (a.length + b.length - 1)).map fun m =>
    ((List.range b.length).map fun k => if k ≤ m then b.getD k 0 * a.getD (m - k) 0 else 0).sum

/-- A tap list as a dense response. -/
def denseTaps (n : Nat) (taps : List (Nat × Int)) : List Int :=
  (List.range n).map fun k => ((taps.filter fun t => t.1 = k).map (·.2)).sum

/-- The noise gain: the root of the sum of squares of the composite response, times 256 (R185) (open points: DEDUCED, log 44). -/
def DecSet.ng (d : DecSet) : Nat :=
  let a := if d.mf then denseTaps (2 * d.l1 + 1) (symTaps d.l1 d.c1) else [1]
  let b := if d.hb then denseTaps (4 * d.m - 1) (halfTaps d.m d.g) else [1]
  let c := if d.f2 then denseTaps (d.f * 2 * d.l2 + 1) ((symTaps d.l2 d.c2).map fun t => (d.f * t.1, t.2)) else [1]
  let g := (convolve (convolve a b) c).map fun x => 256 * x
  let e := (g.map fun x => x * x).sum.toNat
  let sh := d.sh1 + (if d.mf then d.sh2 else 0) + (if d.hb then d.sh3 else 0) + (if d.f2 then d.sh4 else 0)
  (isqrtBits (4 * 65536 * e) 96 0 + 2 ^ sh) / 2 ^ (sh + 1)

/-- A profile is in order: its count, START 0 first, and STARTs ascending (R196). -/
def profileOk (cnt : Nat) (p : List (Nat × Nat × Int)) : Bool :=
  1 ≤ cnt && cnt ≤ 16 && (p.getD 0 (0, 0, 0)).1 = 0 &&
    (List.range (cnt - 1)).all fun i => (p.getD i (0, 0, 0)).1 < (p.getD (i + 1) (0, 0, 0)).1

/-- Every reserved bit of a set is 0 (R195, R196). -/
def State.setReservedOk (s : State) (x : Nat) : Bool :=
  let a := setBase x
  let zero := fun (o n : Nat) => (s.bytes (a + o) n).all fun b => b = 0#8
  bits (s.num a 4) 13 19 = 0 && s.num (a + 4) 4 &&& 0xE0E0E0F8 = 0 && bits (s.num (a + 8) 4) 24 8 = 0
    && bits (s.num (a + 12) 4) 24 8 = 0 && bits (s.num (a + 16) 1) 4 4 = 0 && bits (s.num (a + 17) 1) 5 3 = 0
    && bits (s.num (a + 18) 1) 5 3 = 0 && zero 0x13 13 && zero 0x58 40 && zero 0x180 640
    && (List.range 32).all fun i =>
      bits (s.num (a + 0x80 + 8 * i + 2) 2) 12 4 = 0 && bits (s.num (a + 0x80 + 8 * i + 4) 4) 24 8 = 0

/-- The outcome of a check, DEC_CHKRES.CODE (R196) (open points: DEDUCED, log 44). -/
def State.checkCode (s : State) (x : Nat) : Nat :=
  let d := s.readSet x
  if !s.rangeOk (setBase x) 0x400 then 7
  else if !s.setReservedOk x || d.bkmul = 0 then 2
  else if d.ncand = 0 || 8 < d.ncand then 3
  else if !profileOk d.pcnt.1 d.prof.1 then 4
  else if !profileOk d.pcnt.2 d.prof.2 then 5
  else if 0xFFFFFF < d.ng then 6
  else 1

/-- A set is in force, pending, or latched by a context that is not FREE (R198). -/
def State.setBusy (s : State) (x : Nat) : Bool :=
  s.get F.DEC_STAT_CUR = x || (s.is F.DEC_STAT_PEND && s.get F.DEC_STAT_PSET = x)
    || s.pool.ctxs.any fun c => c.set = some x

/-- VALID of a set. -/
def validField (x : Nat) : Fld := if x = 0 then F.DEC_STAT_VALID0 else F.DEC_STAT_VALID1

/-- A write of DEC_CHECK (R196, R198). -/
def State.decCheckWrite (s : State) (src : Src) (v : Word) : State :=
  let x := F.DEC_CHECK_SET.of v
  if s.setBusy x then s.ignoreReg src 0x3800C
  else
    let s := s.put F.DEC_CHECK_SET x
    if !F.DEC_CHECK_GO.isOf v then s
    else
      let s := s.touchRange (setBase x) 0x400
      let code := s.checkCode x
      let d := s.readSet x
      let s := ((s.put F.DEC_CHKRES_SET x).put F.DEC_CHKRES_CODE code).putB (validField x) (code = 1)
      if code = 1 then
        ((s.put (F.DEC_GDLY_DIN x) d.din).putB (F.DEC_GDLY_DEC2 x) d.hb).put (F.DEC_NGAIN_NG x) d.ng
      else s

/-- The meaning of DEC_CHECK: a write of DEC_CHECK with GO = 1. -/
def execDecCheck (src : Src) (v : Word) (s : State) : Host.Outcome State Fault Refusal :=
  actBy src s (s.decCheckWrite src (v ||| 0x100#32))

/-- A write of DEC_SEL (R197). -/
def State.decSelWrite (s : State) (src : Src) (v : Word) : State :=
  let x := F.DEC_SEL_SET.of v
  if !s.is (validField x) then s.ignoreReg src 0x38008
  else if s.get F.DEC_STAT_CUR = x && !s.is F.DEC_STAT_PEND then s
  else (s.put F.DEC_STAT_PEND 1).put F.DEC_STAT_PSET x

/-- The meaning of DEC_SEL. -/
def execDecSel (src : Src) (v : Word) (s : State) : Host.Outcome State Fault Refusal := actBy src s (s.decSelWrite src v)

/-- The pending set comes into force (R197), with the vector 20 event. -/
def State.decMark (s : State) : State :=
  if s.is F.DEC_STAT_PEND then ((s.put F.DEC_STAT_CUR (s.get F.DEC_STAT_PSET)).put F.DEC_STAT_PEND 0).showHeld.event 20 else s

/-- A write to table memory clears VALID of a set that it touches (R196). -/
def State.setTouched (s : State) (a n : Nat) : State :=
  [0, 1].foldl (fun s x => if a < setBase x + 0x400 && setBase x < a + n then s.put (validField x) 0 else s) s

/-! ### The chain -/

/-- The background of a pass: B8 and NBG (R178). -/
def background (d : DecSet) (h : List Nat) : Nat × Nat :=
  let mu8 := 256 * h.sum / h.length
  let clip := mu8 * d.bkmul / 8 + d.bkadd
  let low := h.filter fun x => 256 * x ≤ clip
  (if low.isEmpty then mu8 else 256 * low.sum / low.length, low.length)

/-- The outputs of the chain and the number of saturations (R175 to R182) (open points: DEDUCED, log 44). -/
def chain (d : DecSet) (h : List Nat) : List Sample × Nat :=
  let b8 := (background d h).1
  let sub : Int := if d.bkg then (b8 : Int) else 0
  let x1 := h.map fun (n : Nat) => stageOut d.sh1 ((256 * n : Nat) - sub)
  let u := if d.mf then filterStage (symTaps d.l1 d.c1) (2 * d.l1 + 1) d.sh2 1 x1 else (x1, 0)
  let v := if d.hb then filterStage (halfTaps d.m d.g) (4 * d.m - 1) d.sh3 2 u.1 else (u.1, 0)
  let y := if d.f2 then filterStage (symTaps d.l2 d.c2) (2 * d.l2 + 1) d.sh4 1 v.1 else (v.1, 0)
  (y.1, (x1.filter (·.2)).length + u.2 + v.2 + y.2)

/-- SIG of a pass (R185). -/
def sigma (d : DecSet) (b8 : Nat) : Nat := d.ng * isqrt (256 * max b8 d.bfloor) / 65536

/-- The threshold at position p (R186). -/
def threshold (prof : List (Nat × Nat × Int)) (cnt sig : Nat) (p : Int) : Int :=
  match ((prof.take cnt).filter fun e => (e.1 : Int) ≤ p).getLast? with
  | some e => e.2.2 + (e.2.1 * sig / 16 : Nat)
  | none => 0

/-- A candidate: its peak's index and value, the first output of its run, and the run's length (R187). -/
structure Cand where
  n : Nat
  peak : Int
  first : Nat
  len : Nat
  deriving DecidableEq, Repr

/-- The runs of outputs that reach their thresholds: each output with its index, value, and whether it does (R187). -/
def runs : List (Nat × Int × Bool) → Option Cand → List Cand
  | [], some c => [c]
  | [], none => []
  | (n, y, true) :: l, some c =>
    runs l (some { c with len := c.len + 1, n := if c.peak < y then n else c.n, peak := max c.peak y })
  | (n, y, true) :: l, none => runs l (some ⟨n, y, n, 1⟩)
  | (_, _, false) :: l, some c => c :: runs l none
  | (_, _, false) :: l, none => runs l none

/-- A candidate inserted by falling peak, equal ones by rising index. -/
def insertCand (c : Cand) : List Cand → List Cand
  | [] => [c]
  | d :: l => if d.peak < c.peak || (d.peak = c.peak && c.n < d.n) then c :: d :: l else d :: insertCand c l

/-- The candidates kept, in ascending order of index, and the number dropped (R188). -/
def keepCands (ncand : Nat) (l : List Cand) : List Cand × Nat :=
  let top := (l.foldr insertCand []).take ncand
  (l.filter top.contains, l.length - top.length)

/-- One 16-byte entry of a candidate block (R190). -/
def candEntry (y : List Sample) (f din nbin : Nat) (thr : Int → Int) (c : Cand) : List Byte :=
  let pos := fun (n : Nat) => (f : Int) * n - din
  let run := (List.range c.len).map (c.first + ·)
  let dsat := run.any fun n => (sampleAt y n).2
  let edge := run.any fun n => pos n = 0 || pos n = (nbin : Int) - 1
  leBytes 2 c.n ++ leBytes 1 (min c.len 255) ++ leBytes 1 (b01 dsat + 2 * b01 edge) ++ leBytes 3 (uint 24 c.peak)
    ++ leBytes 3 (uint 24 (sampleAt y ((c.n : Int) - 1)).1) ++ leBytes 3 (uint 24 (sampleAt y ((c.n : Int) + 1)).1)
    ++ leBytes 3 (uint 24 (thr (pos c.n)))

/-- A 160-byte candidate block (R190). -/
def blockBytes (slot nfound flags din geom ndrop b8 sig nbg : Nat) (entries : List Byte) : List Byte :=
  (leBytes 2 slot ++ leBytes 1 nfound ++ leBytes 1 flags ++ leBytes 2 din ++ leBytes 1 geom ++ leBytes 1 (min ndrop 255)
    ++ leBytes 4 b8 ++ leBytes 4 sig ++ leBytes 2 nbg ++ leBytes 14 0 ++ entries ++ leBytes 128 0).take 160

/-- What a pass finds: its block, the candidates found and dropped, the saturations, and its background. -/
structure PassResult where
  data : List Byte
  nfound : Nat
  ndrop : Nat
  sats : Nat
  b8 : Nat
  nbg : Nat
  deriving DecidableEq, Repr

/-- A pass over bins with set number x in the settings d (R175 to R190). -/
def runPass (x : Nat) (d : DecSet) (kind : PassKind) (slot : Nat) (h : List Nat) : PassResult :=
  let early := kind = .early
  let (b8, nbg) := background d h
  let sig := sigma d b8
  let (y, sats) := chain d h
  let prof := if early then d.prof.2 else d.prof.1
  let cnt := if early then d.pcnt.2 else d.pcnt.1
  let thr := threshold prof cnt sig
  let pos := fun (n : Nat) => (d.f : Int) * n - d.din
  let outs := ((List.range y.length).filter fun (n : Nat) => 0 ≤ pos n && pos n < h.length).map fun (n : Nat) =>
    (n, (sampleAt y n).1, decide (thr (pos n) ≤ (sampleAt y n).1))
  let (kept, ndrop) := keepCands d.ncand (runs outs none)
  let flags := b01 (0 < sats) + 2 * b01 early + 8 * b01 (2 * nbg < h.length) + 16 * b01 (kind = .replay)
  let geom := (d.f - 1) + 2 * b01 d.bkg + 4 * b01 d.mf + 8 * b01 d.hb + 16 * b01 d.f2 + 32 * x
  ⟨blockBytes slot kept.length flags d.din geom ndrop b8 sig nbg
    (kept.flatMap (candEntry y d.f d.din h.length thr)), kept.length, ndrop, sats, b8, nbg⟩

/-- The block of a pass with no set in force, or whose set cannot be read (R199, R543) (open points: DEDUCED, log 44). -/
def noSetPass (kind : PassKind) (slot : Nat) : PassResult :=
  ⟨blockBytes slot 0 (4 + 2 * b01 (kind = .early) + 16 * b01 (kind = .replay)) 0 0 0 0 0 0 [], 0, 0, 0, 0, 0⟩

/-! ### Lanes -/

/-- A lane's pass set, and DEC_LANE.BUSY with it. -/
def State.setLane (s : State) (l : Nat) (p : Option Pass) : State :=
  { s with dec := { s.dec with lanes := s.dec.lanes.setIfInBounds l p } }.putB ⟨F.DEC_LANE_BUSY.off, F.DEC_LANE_BUSY.lo + l, 1⟩
    p.isSome

/-- A lane is retired. -/
def State.laneFailed (s : State) (l : Nat) : Bool := bit (s.get F.DEC_LANE_FAIL) l

/-- The next context that a lane takes: replays first, then the context queue (R42). -/
def State.nextClosed (s : State) : Option Ctx :=
  let l := s.pool.queue.filterMap fun id => s.ctx? id
  match l.find? fun c => c.reprocess with
  | some c => some c
  | none => l.head?

/-- A lane takes a context: its header and bins are read, and an uncorrectable word ends it (R138, R543, R549). -/
def State.takeClosed (s : State) (l : Nat) (c : Ctx) : State :=
  let s := s.readRange (slotBase c.slot) 3136
  match s.ctx? c.id with
  | some c' =>
    if c'.state ≠ .closed then s
    else
      let s := { s with pool := { s.pool with queue := s.pool.queue.filter (· ≠ c.id) } }
      let s := s.putCtx { c' with state := .work, reprocess := false }
      s.setLane l (some ⟨if c'.reprocess then .replay else .close, c.id, none⟩)
  | none => s

/-- A lane takes an early partial; one with an uncorrectable word is dropped after its detection (R42, R154, R543). -/
def State.takePart (s : State) (l : Nat) (p : Partial) : State :=
  let s := { s with pool := { s.pool with parts := dropFirst (fun q => q.ctx.id = p.ctx.id) s.pool.parts } }
  let r := s.readPart p 0 3136
  if !r.2.2 then r.1
  else (r.1.modCtx p.ctx.id fun c => { c with earlyRun := true }).setLane l (some ⟨.early, p.ctx.id, some r.2.1⟩)

/-- LANE_PASS_START (R42, R200). -/
def State.lanePass (s : State) (l : Nat) : State :=
  if s.laneFailed l || (s.dec.lanes.getD l none).isSome then s
  else
    match s.nextClosed with
    | some c => s.takeClosed l c
    | none => match s.pool.parts.head? with
      | some p => s.takePart l p
      | none => s

/-- The meaning of LANE_PASS_START. -/
def execLanePassStart (lane : Fin 16) (s : State) : Host.Outcome State Fault Refusal := act s (s.lanePass lane.val)

/-- The pass of a context with its latched set over bins (R197, R199) (open points: DEDUCED, log 44). -/
def State.passOf (s : State) (kind : PassKind) (c : Ctx) (h : List Nat) : State × PassResult :=
  match c.set with
  | some x =>
    let s := s.touchRange (setBase x) 0x400
    if s.rangeOk (setBase x) 0x400 then (s, runPass x (s.readSet x) kind c.slot h)
    else (s.count (F.DEC_CNT_COUNT 9), noSetPass kind c.slot)
  | none => (s.count (F.DEC_CNT_COUNT 9), noSetPass kind c.slot)

/-- A pass's counts (R176, R188). -/
def State.countPass (s : State) (r : PassResult) : State :=
  (s.countN (F.DEC_CNT_COUNT 3) r.ndrop).countN (F.DEC_CNT_COUNT 4) r.sats

/-- A block joins those on their way to the Point Engines. -/
def State.addBlock (s : State) (kind : PassKind) (c : Ctx) (data : List Byte) (part : Option Partial) : State :=
  { s with dec := { s.dec with blocks := s.dec.blocks ++ [(⟨kind, c.id, c.slot, c.bank, data, part, false⟩ : Block)] } }

/-- The context of a close or replay pass of a lane. -/
def State.passCtx (s : State) (l : Nat) : Option (PassKind × Ctx) := match s.dec.lanes.getD l none with
  | some ⟨kind, id, _⟩ => if kind = .early then none else (s.ctx? id).map fun c => (kind, c)
  | none => none

/-- CLOSE_PASS_COMPLETE: stage 1 reads the bins as corrected; an uncorrectable word ends the pass (R37, R40, R177, R190, R200). -/
def State.closePass (s : State) (l : Nat) : State :=
  let s := match s.passCtx l with
    | some (_, c) => s.readRange (slotBase c.slot) 3136
    | none => s
  match s.passCtx l with
  | some (kind, c) =>
    let s := s.setLane l none
    let (s, r) := s.passOf kind c ((List.range c.nbin).map fun b => s.coarse c.slot b)
    ((s.countPass r).count (F.DEC_CNT_COUNT (if kind = .replay then 8 else 0))).addBlock kind c r.data none
  | none => s

/-- The meaning of CLOSE_PASS_COMPLETE. -/
def execClosePassComplete (lane : Fin 16) (s : State) : Host.Outcome State Fault Refusal := act s (s.closePass lane.val)

/-- The background confidence test of an early pass (R192). -/
def confident (c : Ctx) (r : PassResult) : Bool := c.nbin ≤ 2 * r.nbg && r.b8 ≤ c.eshots * c.ebgmax

/-- EARLY_PASS_COMPLETE: the copy's words are read as corrected, and one that cannot be drops the pass (R37, R40, R192, R193, R543). A
context with no set in force makes no confidence test, so DEC_CNT6 does not count it; one whose set cannot be read fails the test (open
points: DESIGN CHOICE, log 107). -/
def State.earlyPass (s : State) (l : Nat) : State :=
  match s.dec.lanes.getD l none with
  | some ⟨.early, id, some p⟩ =>
    let s := (s.setLane l none).modCtx id fun c => { c with earlyRun := false }
    let (s, p, ok) := s.readPart p 0 3136
    if !ok then s else
    let (s, r) := s.passOf .early p.ctx ((List.range p.ctx.nbin).map p.bin)
    let s := (s.countPass r).count (F.DEC_CNT_COUNT 1)
    if p.ctx.set.isNone then s
    else if !confident p.ctx r then s.count (F.DEC_CNT_COUNT 6)
    else if r.nfound = 0 then s
    else s.addBlock .early p.ctx r.data (some p)
  | _ => s

/-- The meaning of EARLY_PASS_COMPLETE. -/
def execEarlyPassComplete (lane : Fin 16) (s : State) : Host.Outcome State Fault Refusal := act s (s.earlyPass lane.val)

/-- LANE_CHECK_FAIL: the pass in progress is abandoned and the lane retired (R203, R547). -/
def State.laneFail (s : State) (l : Nat) : State :=
  match s.dec.lanes.getD l none with
  | some p =>
    let s := (s.setLane l none).put ⟨F.DEC_LANE_FAIL.off, F.DEC_LANE_FAIL.lo + l, 1⟩ 1
    let s := (s.put F.DEC_STAT_LANES (s.get F.DEC_STAT_LANES - 1)).count (F.DEC_CNT_COUNT 5)
    if p.kind = .early then (s.raise Cause.lane l (retired := true)).modCtx p.ctx fun c => { c with earlyRun := false }
    else (s.raise Cause.lane l (proc := [p.ctx]) (retired := true)).toReplay p.ctx
  | none => s

/-- The meaning of LANE_CHECK_FAIL. -/
def execLaneCheckFail (lane : Fin 16) (s : State) : Host.Outcome State Fault Refusal := act s (s.laneFail lane.val)

end Sys2Proof.Machine
end

