-- ==== Sys2Proof/Machine/Points.lean ====
section
/-!
DEFINITION. Point and early records, the fallback, the resolution of early records and the hand-on of a pixel
(06_points_and_early_records.md, R548, R555), and the zone monitor.
-/
namespace Sys2Proof.Machine

/-! ### Records -/

/-- Bytes replaced within a list, from an offset. -/
def patch (l : List Byte) (o : Nat) (bs : List Byte) : List Byte := l.take o ++ bs ++ l.drop (o + bs.length)

/-- The number that n bytes of a list spell, from an offset. -/
def field (l : List Byte) (o n : Nat) : Nat := leNat ((l.drop o).take n)

/-- The context flags of a POINT record (R206). -/
def Ctx.pointFlags (c : Ctx) : Nat :=
  b01 c.stale + 2 * b01 c.prov + 4 * b01 c.replayed + 32 * b01 c.satb + 64 * b01 c.nsat + 128 * b01 (c.pstart ≠ 0)
    + 256 * b01 c.binsat + 512 * b01 c.skip

/-- Bytes 2 to 11 of a record of a context: FRAME to CHAN (R205, R218). -/
def Ctx.place (c : Ctx) : List Byte :=
  leBytes 2 c.frame ++ leBytes 2 c.column ++ leBytes 2 c.pixrow ++ leBytes 2 c.emitter ++ leBytes 2 (c.chan + 512 * c.merge)

/-- A POINT record as it is held until its pixel ends (R205): the points of the pixel, CONF, WDN and SPEC are still open. -/
def Ctx.point (c : Ctx) (echo range intens flags h v : Nat) : List Byte :=
  leBytes 1 1 ++ leBytes 1 echo ++ c.place ++ leBytes 3 range ++ leBytes 1 c.fired ++ leBytes 2 intens ++ leBytes 2 flags
    ++ leBytes 3 h ++ leBytes 3 v ++ leBytes 2 0 ++ leBytes 4 c.t0

/-- The angles of journal entry JIDX on two axes (R210); an unusable entry gives free values (R543)
(open points: DESIGN CHOICE, log 46). -/
def State.pointAngles (s : State) (c : Ctx) : State × Nat × Nat :=
  let a := journalBase c.jidx
  let s := s.touch (a / 32)
  if s.wordOk (a / 32) then
    (s, s.num (a + 16 + 3 * s.get F.PNT_CFG_HAX) 3, s.num (a + 16 + 3 * s.get F.PNT_CFG_VAX) 3)
  else (s.draw.draw, s.fresh.toNat % 2 ^ 24, s.draw.fresh.toNat % 2 ^ 24)

/-- RANGE of position p of the context's histogram, with the range zero z of the channel (R184, R210)
(open points: DESIGN CHOICE, log 46). -/
def fallbackRange (c : Ctx) (p z : Int) : Nat :=
  let w : Int := (4 * 2 ^ c.binw : Nat)
  let half : Int := 2 * c.origin + w * (2 * p + 1)
  (clampInt 0 (2 ^ 24 - 1 : Nat) (roundDiv (625 * (8192 * half - z) * 599584916) (16384 * 1000000000))).toNat

/-- The fallback points of a pixel from its candidate block (R210, R213, R215) (open points: DESIGN CHOICE, log 46). -/
def State.fallback (s : State) (c : Ctx) (block : List Byte) (overrun : Bool) : State × List (List Byte) :=
  let (s, h, v) := s.pointAngles c
  let n := field block 2 1
  let dsat := bit (field block 3 1) 0
  let f : Int := (field block 6 1 % 2 + 1 : Nat)
  let ok := s.rangeOk (recBase c.chan + 428) 4
  let s := s.recTouch c.chan 428 4
  let z := if ok then sint 32 (s.num (recBase c.chan + 428) 4) else 0
  (s, (List.range n).map fun i =>
    let e := 32 + 16 * i
    let p := f * (field block e 2 : Int) - field block 4 2
    let sat := dsat || bit (field block (e + 3) 1) 0
    let ypk := (max 0 (sint 24 (field block (e + 4) 3))).toNat
    c.point i (fallbackRange c p z) (min 65535 (ypk / 2 ^ s.get F.PNT_CFG_ISH))
      (c.pointFlags + 8 * b01 sat + 16 * b01 overrun) h v)

/-! ### Resolution and hand-on -/

/-- RANGE of a POINT record. -/
def rangeOf (p : List Byte) : Nat := field p 12 3

/-- The nearest unclaimed point to a range; equal ones go to the lower RANGE (R221). -/
def nearestPoint (range : Nat) (pts : List (Nat × Nat)) : Option (Nat × Nat) :=
  pts.foldl (fun best q => match best with
    | some b =>
      let x := ((q.2 : Int) - range).natAbs
      let y := ((b.2 : Int) - range).natAbs
      if x < y || (x = y && q.2 < b.2) then some q else some b
    | none => some q) none

/-- What resolution says of an early record: confirmed by a point of an index and range, or withdrawn with REASON and RANGE
(R221, R223). -/
inductive Verdict where
  | confirm (point range : Nat)
  | withdraw (reason range : Nat)
  deriving DecidableEq, Repr

/-- The verdicts of a pixel's early records, in order, over its points not yet claimed (R221). -/
def verdicts : List Early → List (Nat × Nat) → List (Early × Verdict)
  | [], _ => []
  | e :: es, pts => match nearestPoint e.range pts with
    | none => (e, .withdraw 2 0) :: verdicts es pts
    | some (i, r) =>
      if ((r : Int) - e.range).natAbs ≤ e.unc then (e, .confirm i r) :: verdicts es (pts.filter fun q => q.1 ≠ i)
      else (e, .withdraw 1 r) :: verdicts es pts

/-- A final POINT record: the number of points, SPEC, CONF and WDN put in (R205, R206). -/
def finishPoint (total : Nat) (spec : Option Nat) (wdn : Bool) (p : List Byte) : List Byte :=
  let p := patch p 1 (leBytes 1 (field p 1 1 % 8 + 8 * (total - 1)))
  let p := patch p 18 (leBytes 2 (field p 18 2 + 1024 * b01 spec.isSome + 2048 * b01 wdn))
  patch p 26 (leBytes 2 (spec.getD 0))

/-- The SPEC that a verdict list gives to point i. -/
def specOf (i : Nat) (l : List (Early × Verdict)) : Option Nat :=
  l.findSome? fun x => match x.2 with
    | .confirm j _ => if j = i then some x.1.spec else none
    | .withdraw _ _ => none

/-- A verdict is a withdrawal. -/
def Verdict.withdrawn : Verdict → Bool
  | .withdraw _ _ => true
  | .confirm _ _ => false

/-- A POINT record on its way to the zone monitor and VC0 (R224). -/
def pointRec (c : Ctx) (p : List Byte) (last : Bool) : ZRec where
  kind := .point
  vc := 0
  item := { Item.of p with ctx := some c.id, echo := field p 1 1 % 8 }
  frame := c.frame
  column := c.column
  pixrow := c.pixrow
  range := rangeOf p
  spec := 0
  tstamp := c.t0 % 2 ^ 32
  last := last
  untested := false

/-- A context in WORK whose last record was handed on is RETAINED, and FREE when all its records were accepted (R138). -/
def State.retain (s : State) (id : Nat) : State :=
  match s.ctx? id with
  | some c =>
    if c.state = .work then
      let s := (s.putCtx { c with state := .retained }).latchFrame
      if c.owed = 0 then s.freeCtx id else s
    else s
  | none => s

/-- Points handed on, the last of them closing the pixel; with none, the last of the records already handed on closes it. -/
def State.handPoints (s : State) (c : Ctx) (pts : List (List Byte)) : State :=
  let n := pts.length
  let s := (((List.range n).zip pts).foldl (fun s p => s.handRec (pointRec c p.2 (p.1 + 1 = n))) s).countN (F.PNT_CNT_COUNT 0) n
  if n ≠ 0 then s
  else if s.pnt.zoneQ.any fun z => z.item.ctx = some c.id then
    let mark : List ZRec → List ZRec := fun l => (modFirst (fun (z : ZRec) => z.item.ctx = some c.id)
      (fun (z : ZRec) => { z with last := true }) l.reverse).reverse
    { s with pnt := { s.pnt with zoneQ := mark s.pnt.zoneQ } }
  else s.retain c.id

/-- The first pass of a pixel resolves its early records and hands on its records (R221, R224). -/
def State.firstPass (s : State) (c : Ctx) (pts : List (List Byte)) : State :=
  let es := s.earliesOf c.id
  let vs := verdicts es ((List.range pts.length).zip (pts.map rangeOf))
  let wdn := vs.any fun v => v.2.withdrawn
  let final := ((List.range pts.length).zip pts).map fun p => finishPoint pts.length (specOf p.1 vs) wdn p.2
  let s := vs.foldl (fun s v => match v.2 with
    | .confirm _ r => s.resolve true 0 r v.1
    | .withdraw reason r => s.resolve false reason r v.1) s
  let s := s.modCtx c.id fun x => { x with resolved := true, passed := final }
  let overrun := pts.any fun p => bit (field p 18 2) 4
  let s := if pts.isEmpty then s else s.stat c.frame fun x =>
    { x with pixels := x.pixels + 1, points := x.points + pts.length, overrun := x.overrun + b01 overrun }
  s.handPoints c final

/-- A destroyed item's place filled by its regenerated record, or given up where there is none (open points: DEDUCED, log 47). -/
def fillHole (id : Nat) (pts : List (List Byte)) (it : Item) : Item :=
  if it.hole && it.ctx = some id then
    match pts[it.echo]? with
    | some p => { it with data := p, hole := false, errs := 0#32 }
    | none => it
  else it

/-- The items of a channel's buffer and jobs changed. -/
def State.mapItems (s : State) (vc : Nat) (f : List Item → List Item) : State :=
  let jobs := (s.stl.jobs.getD vc []).map fun (j : Job) => { j with items := f j.items }
  { s with stl := { s.stl with
      bufs := s.stl.bufs.setIfInBounds vc (f (s.stl.bufs.getD vc [])), jobs := s.stl.jobs.setIfInBounds vc jobs } }

/-- The stream jobs of a channel that have lost every record go (R425, R435). -/
def State.dropEmptied (s : State) (vc : Nat) : State :=
  { s with stl := { s.stl with jobs := s.stl.jobs.setIfInBounds vc ((s.stl.jobs.getD vc []).filter fun (j : Job) => !j.items.isEmpty) } }

/-- A replay pass of a resolved pixel: SPEC, CONF and WDN come from the first pass, destroyed records are put back in their
places, and points beyond the first pass's count are handed on (R227, R548) (open points: DEDUCED, log 47; DEDUCED, log 48). -/
def State.replayPass (s : State) (c : Ctx) (pts : List (List Byte)) : State :=
  let wdn := c.passed.any fun p => bit (field p 18 2) 11
  let final := ((List.range pts.length).zip pts).map fun p => match c.passed[p.1]? with
    | some q => finishPoint pts.length (if bit (field q 18 2) 10 then some (field q 26 2) else none) (bit (field q 18 2) 11) p.2
    | none => finishPoint pts.length none wdn p.2
  let s := s.mapItems 0 fun l => l.map (fillHole c.id final)
  let gone := (s.bufItems 0).filter fun i => i.hole && i.ctx = some c.id
  let s := (s.mapItems 0 fun l => l.filter fun i => !(i.hole && i.ctx = some c.id)).dropEmptied 0
  let s := (gone.foldl (fun s _ => s.acceptFor c.id) s).showBuf 0
  let s := s.modCtx c.id fun x => { x with passed := c.passed ++ final.drop c.passed.length }
  s.handPoints c (final.drop c.passed.length)

/-- A pixel's records are held: an earlier context of the same emitter and block has early records unresolved (R225), or one is
re-acquired over slots that it shares and is not handed on (R555) (open points: DEDUCED, log 48). -/
def State.holds (s : State) (c : Ctx) : Bool :=
  s.waitsFor c || s.pool.ctxs.any fun d => c.twin d && (d.state = .reacq || d.replayed)
    && d.replay.any fun r => match r.found, c.first with
      | some n, some f => f ≤ n && n ≤ c.last
      | _, _ => false

/-- The POINT records that count: of a PROV context only the one with ECHO 0, the others counted in TBS_CNT1 (R518); of a context
that fired no shot none (R554) (open points: DEDUCED, log 47). -/
def State.keptPoints (s : State) (c : Ctx) (pts : List (List Byte)) : State × List (List Byte) :=
  if c.fired = 0 then (s, [])
  else if c.prov then (s.countN (F.TBS_CNT_COUNT 1) (pts.length - 1), pts.take 1)
  else (s, pts)

/-- A pixel's records handed on (R224, R548); its replay slots hold nothing back any more (R555). -/
def State.handPixel (s : State) (id : Nat) (pts : List (List Byte)) : State :=
  match s.ctx? id with
  | some c =>
    let r := (s.modCtx id fun x => { x with replay := [] }).keptPoints c pts
    if c.resolved then r.1.replayPass c r.2 else r.1.firstPass c r.2
  | none => s

/-- Nothing holds a record any more (R225). -/
def State.recFree (s : State) (z : ZRec) : Bool := match z.item.ctx.bind s.ctx? with
  | some c => !s.waitsFor c
  | none => true

/-- The records that nothing holds any more go on to the zone monitor, in order; a resolution that goes on so may free those behind it
(R225); up to n of them. -/
def State.releaseUpTo (s : State) : Nat → State
  | 0 => s
  | n + 1 => match s.pnt.recsHeld.find? s.recFree with
    | some z => { s with pnt := { s.pnt with
        zoneQ := s.pnt.zoneQ ++ [z], recsHeld := dropFirst (fun y => y = z) s.pnt.recsHeld } }.releaseUpTo n
    | none => s

/-- All records that nothing holds any more go on (R225). -/
def State.releaseRecs (s : State) : State := s.releaseUpTo s.pnt.recsHeld.length

/-- The pixels that wait, each handed on once nothing holds it; n turns (open points: DEDUCED, log 48). -/
def State.releaseEnded (s : State) : Nat → State
  | 0 => s.releaseRecs
  | n + 1 =>
    let s := s.releaseRecs
    match s.seq.ended.find? fun e => match s.ctx? e.ctx with
      | some c => !s.holds c
      | none => true with
    | some e =>
      let rest := dropFirst (fun x => x = e) s.seq.ended
      ({ s with seq := { s.seq with ended := rest } }.handPixel e.ctx e.points).releaseEnded n
    | none => s

/-- A pixel's dispatch or fallback has ended with its final points (R213, R221, R224, R225, R555). -/
def State.endPixel (s : State) (id : Nat) (pts : List (List Byte)) : State :=
  match s.ctx? id with
  | some c =>
    if s.holds c then { s with seq := { s.seq with ended := s.seq.ended ++ [(⟨id, pts⟩ : Ended)] } }
    else (s.handPixel id pts).releaseEnded s.seq.ended.length
  | none => s

/-! ### Zone monitor -/

/-- The BAR2 offset of entry i of zone map z (R229). -/
def zoneEntry (z i : Nat) : Nat := 0x880000 + 0x800 * z + 16 + 16 * i

/-- The zones of a map: entries below COUNT; none where the header cannot be read (R229, R543). The spec gives a COUNT of 0 to 64 only: one above
is taken as 64 (open points: DEDUCED, log 50). -/
def State.zoneCount (s : State) (z : Nat) : Nat := min 64 ((s.table (0x880000 + 0x800 * z) 1).getD 0)

/-- A read of a zone map: its header, then the entries below COUNT, are corrected, or detected, first (R37, R40). -/
def State.zoneTouch (s : State) (z : Nat) : State :=
  let s := s.touchRange (0x880000 + 0x800 * z) 16
  s.touchRange (0x880010 + 0x800 * z) (16 * s.zoneCount z)

/-- OUT of a zone of the map in force. -/
def State.zoneOut (s : State) (i : Nat) : Nat := s.num (zoneEntry (s.get F.PNT_ZSEL_CUR) i + 14) 1 % 4

/-- A zone entry is out of order (R230) (open points: DEDUCED, log 50). -/
def State.zoneBad (s : State) (z i : Nat) : Bool :=
  let a := zoneEntry z i
  s.num (a + 2) 2 < s.num a 2 || s.num (a + 6) 2 < s.num (a + 4) 2 || s.num (a + 11) 3 < s.num (a + 8) 3
    || 16 ≤ s.num (a + 14) 1 || s.num (a + 15) 1 ≠ 0

/-- A record lies in zone i of the map in force (R231). -/
def State.inZone (s : State) (r : ZRec) (i : Nat) : Bool :=
  let a := zoneEntry (s.get F.PNT_ZSEL_CUR) i
  let ctl := s.num (a + 14) 1
  s.rangeOk a 16 && !s.pnt.disabled.contains i && bit ctl 3 && s.num a 2 ≤ r.column && r.column ≤ s.num (a + 2) 2
    && s.num (a + 4) 2 ≤ r.pixrow && r.pixrow ≤ s.num (a + 6) 2 && s.num (a + 8) 3 ≤ r.range && r.range ≤ s.num (a + 11) 3
    && (r.kind = .point || (r.kind = .early && bit ctl 2))

/-- The hold time of output n in coarse ticks (R234). -/
def State.holdTicks (s : State) (n : Nat) : Nat := 16000 * s.get (F.PNT_ZHOLD_HOLD n)

/-- A trip's hold time runs at t (open points: DEDUCED, log 50). -/
def State.holdRuns (s : State) (n trip t : Nat) : Bool := trip ≠ 0 && t < (trip - 1) + s.holdTicks n

/-- PNT_ZTRIPj and PNT_ZOUT.PIN follow the zones, with the vector 14 event (R234, R508). -/
def State.showZones (s : State) : State :=
  let on := (List.range 64).filter fun i => FMap.nat s.pnt.zones i ≠ 0
  let s := (s.put (F.PNT_ZTRIP_NCLR 0) ((on.filter (· < 32)).map (2 ^ ·)).sum).put (F.PNT_ZTRIP_NCLR 1)
    ((on.filter (32 ≤ ·)).map fun i => 2 ^ (i - 32)).sum
  let pin := ((List.range 4).map fun n =>
    if bit (s.get F.PNT_ZOUT_HOLDING) n || on.any fun i => s.zoneOut i = n then 2 ^ n else 0).sum
  (s.put F.PNT_ZOUT_PIN pin).eventIf (s.get F.PNT_ZOUT_PIN ≠ pin) 14

/-- The state of a zone set. -/
def State.setZone (s : State) (i v : Nat) : State :=
  { s with pnt := { s.pnt with zones := FMap.setNat s.pnt.zones i v } }

/-- A ZTRIP or ZCLEAR record handed to the VC1 buffer (R235). -/
def State.zoneNote (s : State) (trip : Bool) (i code : Nat) (r : ZRec) (spec : Nat) : State :=
  let n := leBytes 1 (if trip then 5 else 6) ++ leBytes 1 (i + 64 * s.get F.PNT_ZSEL_CUR) ++ leBytes 1 (s.zoneOut i + 4 * code)
    ++ leBytes 1 0 ++ leBytes 2 r.frame ++ leBytes 2 r.column ++ leBytes 2 r.pixrow ++ leBytes 3 r.range ++ leBytes 1 0
    ++ leBytes 2 spec ++ leBytes 12 0 ++ leBytes 4 r.tstamp
  (s.count (F.PNT_CNT_COUNT (if trip then 8 else 9))).handOn 1 (Item.of n)

/-- A record of no pixel, at a device time (R235: EXPIRED and MAPCHANGE). -/
def noRec (t : Nat) : ZRec where
  kind := .point
  vc := 1
  item := Item.of []
  frame := 0
  column := 0
  pixrow := 0
  range := 0
  spec := 0
  tstamp := t % 2 ^ 32
  last := false
  untested := true

/-- A zone clears for a reason: 1 WITHDRAWN, 2 EXPIRED, 3 MAPCHANGE (R232, R235). -/
def State.zoneClear (s : State) (i reason : Nat) (r : ZRec) (spec : Nat) : State :=
  (s.setZone i 0).zoneNote false i reason r spec

/-- Zone i is tripped by a record at t (R232, R234). -/
def State.zoneTrip (s : State) (r : ZRec) (t i : Nat) : State :=
  let early := r.kind = .early
  let v := FMap.nat s.pnt.zones i
  let n := s.zoneOut i
  let s := s.setZone i (if early && v ≠ 2 then 1 else 2)
  let s := { s with pnt := { s.pnt with
    zoneTrip := FMap.setNat s.pnt.zoneTrip i (t + 1), outTrip := FMap.setNat s.pnt.outTrip n (t + 1) } }
  let s := s.put ⟨F.PNT_ZOUT_HOLDING.off, F.PNT_ZOUT_HOLDING.lo + n, 1⟩ 1
  if v = 0 then s.zoneNote true i (if early then 1 else 2) r (if early then r.spec else 0) else s

/-- A zone enters FIRM by a confirmation at t: after its hold time it goes straight on to CLEAR (R232). -/
def State.zoneFirm (s : State) (t i : Nat) : State :=
  if FMap.nat s.pnt.zones i ≠ 1 then s
  else if s.holdRuns (s.zoneOut i) (FMap.nat s.pnt.zoneTrip i) t then s.setZone i 2
  else s.zoneClear i 2 (noRec t) 0

/-- A zone loses the support of a withdrawn record (R232). -/
def State.zoneDrop (s : State) (r : ZRec) (i : Nat) : State :=
  if FMap.nat s.pnt.zones i = 1 && !s.pnt.outstanding.any fun e => e.spec ≠ r.spec && e.zones.contains i then
    s.zoneClear i 1 r r.spec
  else s

/-- A record that may trip zones is processed at t (R231 to R233, R236). -/
def State.zoneTest (s : State) (r : ZRec) (t : Nat) : State :=
  if r.untested then s
  else
    let s := s.zoneTouch (s.get F.PNT_ZSEL_CUR)
    let n := s.zoneCount (s.get F.PNT_ZSEL_CUR)
    let zs := (List.range n).filter (s.inZone r)
    let own : Early → Early := fun e =>
      if r.kind = .early && e.spec = r.spec && !zs.isEmpty then { e with zones := zs, tripped := true } else e
    let s := { s with pnt := { s.pnt with outstanding := s.pnt.outstanding.map own } }
    zs.foldl (fun s i => s.zoneTrip r t i) s

/-- A resolution record is processed at t: ZFLAG is put in, and the zones of its early record change (R223, R232, R233). -/
def State.zoneResolve (s : State) (r : ZRec) (t : Nat) : State :=
  match s.pnt.outstanding.find? fun e => e.spec = r.spec with
  | some e =>
    let it := { r.item with data := patch r.item.data 13 (leBytes 1 (b01 e.tripped)) }
    let s := s.handOn 1 it
    let s := e.zones.foldl (fun s i => if r.kind = .confirm then s.zoneFirm t i else s.zoneDrop r i) s
    { s with pnt := { s.pnt with outstanding := s.pnt.outstanding.filter fun (x : Early) => x.spec ≠ r.spec } }
  | none => s.handOn 1 r.item

/-- The SKIPMARKs of a queue before which no point record stands any more, and the rest of the queue (R173). -/
def splitMarks : List ZRec → List ZRec × List ZRec
  | [] => ([], [])
  | z :: q =>
    if z.kind = .mark then (z :: (splitMarks q).1, (splitMarks q).2)
    else if z.vc = 0 then ([], z :: q)
    else ((splitMarks q).1, z :: (splitMarks q).2)

/-- The SKIPMARKs whose turn has come enter VC0 (R173). -/
def State.drainMarks (s : State) : State :=
  let x := splitMarks s.pnt.zoneQ
  x.1.foldl (fun s z => s.handOn 0 z.item) { s with pnt := { s.pnt with zoneQ := x.2 } }

/-- ZONE_RECORD: the first record handed on is processed to completion at t, and the SKIPMARKs behind it follow (R173, R224, R232); before
and after it, what waited for a resolution is handed on (R225) (open points: DEDUCED, log 50). -/
def State.zoneRecord (s : State) (t : Nat) : State :=
  let s := s.releaseEnded s.seq.ended.length
  match s.pnt.zoneQ with
  | r :: q =>
    let s := { s with pnt := { s.pnt with zoneQ := q } }.at t
    let s := match r.kind with
      | .point | .early => (s.handOn r.vc r.item).zoneTest r t
      | .confirm | .withdraw => s.zoneResolve r t
      | .mark => s.handOn 0 r.item
    let s := s.drainMarks.showZones.releaseEnded s.seq.ended.length
    match r.item.ctx with
    | some id => if r.last then s.retain id else s
    | none => s
  | [] => s

/-- The meaning of ZONE_RECORD. -/
def execZoneRecord (t : Nat) (s : State) : Host.Outcome State Fault Refusal := act s (s.zoneRecord t)

/-- ZONE_HOLD_EXPIRE: the hold time of output n has run out by t; its FIRM zones clear (R232, R234). -/
def State.zoneExpire (s : State) (n t : Nat) : State :=
  let s := s.at t
  let due := (List.range 64).filter fun i =>
    FMap.nat s.pnt.zones i = 2 && s.zoneOut i = n && !s.holdRuns n (FMap.nat s.pnt.zoneTrip i) t
  let s := due.foldl (fun s i => s.zoneClear i 2 (noRec t) 0) s
  let s := if s.holdRuns n (FMap.nat s.pnt.outTrip n) t then s
    else s.put ⟨F.PNT_ZOUT_HOLDING.off, F.PNT_ZOUT_HOLDING.lo + n, 1⟩ 0
  s.showZones

/-- The meaning of ZONE_HOLD_EXPIRE. -/
def execZoneHoldExpire (n : Fin 4) (t : Nat) (s : State) : Host.Outcome State Fault Refusal := act s (s.zoneExpire n.val t)

/-- A write of PNT_ZSEL (R230) (open points: DEDUCED, log 50). -/
def State.zselWrite (s : State) (v : Word) : State :=
  { s with pnt := { s.pnt with zpend := F.PNT_ZSEL_SEL.of v } }.put F.PNT_ZSEL_PEND 1

/-- The meaning of ZONE_MAP_SELECT. -/
def execZoneMapSelect (src : Src) (v : Word) (s : State) : Host.Outcome State Fault Refusal := actBy src s (s.zselWrite v)

/-- The pending zone map comes into force at t (R230, R232, R233), with the vector 20 event. A record handed to the monitor before the change and
not processed yet is not tested against the new map, as R233 says, nor against the old one any more, of which the spec says nothing
(open points: DEDUCED, log 50). -/
def State.zoneMark (s : State) (t : Nat) : State :=
  if !s.is F.PNT_ZSEL_PEND then s
  else
    let on := (List.range 64).filter fun i => FMap.nat s.pnt.zones i ≠ 0
    let s := on.foldl (fun s i => s.zoneClear i 3 (noRec t) 0) s
    let z := s.pnt.zpend
    let s := (s.put F.PNT_ZSEL_CUR z).put F.PNT_ZSEL_PEND 0
    let s := s.zoneTouch z
    let bad := (List.range (s.zoneCount z)).filter (s.zoneBad z)
    let clear : Early → Early := fun e => { e with zones := [] }
    let old : ZRec → ZRec := fun r => { r with untested := true }
    let s := { s with pnt := { s.pnt with
      disabled := bad, outstanding := s.pnt.outstanding.map clear, zoneQ := s.pnt.zoneQ.map old } }
    ((s.countN (F.PNT_CNT_COUNT 10) bad.length).showZones).event 20

end Sys2Proof.Machine
end

