-- ==== Sys2Proof/Machine/Sense.lean ====
section
/-!
DEFINITION. The sense converters, CHKDAC, derating, and the frequency meters (R70 to R77, R313 to R334).
-/
namespace Sys2Proof.Machine

/-- A conversion requested (R320). -/
def State.convRequest (s : State) (n : Nat) (kind : ConvKind) (input : Nat) : State :=
  s.setAdc n { s.adc n with reqs := (s.adc n).reqs ++ [⟨kind, input, s.dt⟩] }

/-- A converter as the converters stop at a device time: the conversions under way are requests again, since none is lost (R321, R527)
(open points: DEDUCED, log 64). -/
def Adc.stopped (t : Nat) (c : Adc) : Adc :=
  let back : Conv → Option Conv := fun q => match q.kind with
    | .axis _ => none
    | _ => some { q with start := t }
  { c with reqs := c.runs.filterMap back ++ c.reqs, runs := [], free := t }

/-! ### The slot plan (R317 to R322) -/

/-- The rank of a conversion, the highest first (R320). -/
def ConvKind.rank : ConvKind → Nat
  | .axis _ => 0
  | .derate => 1
  | .check _ _ => 2
  | .host => 3
  | .demand => 4

/-- The next HOST input of a mask, from an input on and wrapping (R319). -/
def nextHost (mask at_ : Nat) : Option Nat :=
  ((List.range 16).map fun i => (at_ + i) % 16).find? fun m => bit mask m

/-- The requests of a step instant on converter n (R319). -/
def State.stepRequests (s : State) (n : Nat) : State :=
  let s := if s.is F.EMI_DRCFG_EN && s.get F.EMI_DRCFG_CONV = n then s.convRequest n .derate (s.get F.EMI_DRCFG_INPUT) else s
  match nextHost (s.get (F.SNS_HKMASK_MASK n)) (s.adc n).next with
  | some m => (s.setAdc n { s.adc n with next := m + 1 }).convRequest n .host m
  | none => s

/-- HOUSEKEEPING_STEP: a step instant; a new STEP takes effect from it (R319). -/
def State.housekeeping (s : State) (t : Nat) : State :=
  if s.is F.SYS_STAT_TBLOCK && t % (1600 * s.sns.step) = 0 && s.sns.stepAt.all (fun b => b < t) then
    let s := (List.range 4).foldl State.stepRequests (s.at t)
    { s with sns := { s.sns with step := s.get F.SNS_CFG_STEP, stepAt := some t } }
  else s

/-- The meaning of HOUSEKEEPING_STEP. -/
def execHousekeepingStep (t : Nat) (s : State) : Host.Outcome State Fault Refusal := act s (s.housekeeping t)

/-- The request that is served first: the highest rank, equal ranks in the order raised (R320). -/
def firstConv : List Conv → Option Conv
  | [] => none
  | c :: cs => match firstConv cs with
    | some d => if d.kind.rank < c.kind.rank then some d else some c
    | none => some c

/-- CONVERSION_START: converter n starts a pending conversion at edge t, of those raised by then; for a check CHKDAC drives the input
(R318 to R321, R326) (open points: DEDUCED, log 64). -/
def State.convStart (s : State) (n t : Nat) : State :=
  let c := s.adc n
  match firstConv (c.reqs.filter fun q => q.start ≤ t) with
  | some q =>
    if s.is F.SYS_STAT_TBLOCK && s.convEdge n = some t then
      let s := (s.at t).setAdc n
        { c with reqs := dropFirst (fun x => x = q) c.reqs, runs := c.runs ++ [{ q with start := t }], free := t + 1600 }
      match q.kind with
      | .check code _ => s.out (.chkdac (16 * n + q.input) code)
      | _ => s
    else s
  | none => s

/-- The meaning of CONVERSION_START (open points: DESIGN CHOICE, log 23). -/
def execConversionStart (n : Fin 4) (t : Nat) (s : State) : Host.Outcome State Fault Refusal := act s (s.convStart n.val t)

/-- CONVERSION_REQUEST: a write to SNS_CONV (R322) (open points: DEDUCED, log 64). -/
def State.convWrite (s : State) (v : Word) : State :=
  let busy := s.is F.SNS_CONV_BUSY
  let n := F.SNS_CONV_CONV.of v
  let m := F.SNS_CONV_INPUT.of v
  let s := (s.put F.SNS_CONV_CONV n).put F.SNS_CONV_INPUT m
  if !F.SNS_CONV_GO.isOf v then s
  else if busy then s.count (F.SNS_CNT_COUNT 0)
  else (s.put F.SNS_CONV_BUSY 1).convRequest n .demand m

/-- The meaning of CONVERSION_REQUEST: a write of SNS_CONV with GO = 1. -/
def execConversionRequest (src : Src) (v : Word) (s : State) : Host.Outcome State Fault Refusal :=
  actBy src s (s.convWrite (v ||| 0x80000000#32))

/-! ### Derating (R70 to R77) -/

/-- COUNT of the derating table, at most its 16 entries (open points: DESIGN CHOICE, log 31). -/
def State.derateCount (s : State) : Nat := min 16 ((s.table 0x840800 1).getD 0)

/-- The first byte of derating entry i. -/
def derateAt (i : Nat) : Nat := 0x840810 + 16 * i

/-- CODE of a derating entry; an unreadable entry applies to no code (R543) (open points: DESIGN CHOICE, log 31). -/
def State.derateCode (s : State) (i : Nat) : Option Nat := (s.table (derateAt i) 2).map (· % 4096)

/-- Whether derating may be enabled: an entry or more, all readable, their codes rising (R72, R543)
(open points: DESIGN CHOICE, log 31). -/
def State.derateOk (s : State) : Bool :=
  let n := s.derateCount
  n ≠ 0 && ((List.range n).all fun i => match s.derateCode i with
    | some c => i = 0 || (s.derateCode (i - 1)).getD 4096 < c
    | none => false)

/-- The readable entries of the table, lowest first (R543) (open points: DESIGN CHOICE, log 31). -/
def State.derateGood (s : State) : List Nat := (List.range s.derateCount).filter fun i => (s.derateCode i).isSome

/-- The entry that a reading selects (R75). -/
def State.derateEntry (s : State) (r : Reading) : Nat :=
  let cur := s.get F.EMI_STAT_DRENT
  let x := if s.is F.EMI_DRCFG_INV then 4095 - r.code else r.code
  if r.ovr || r.undr then s.derateGood.getLastD cur
  else
    let j := (s.derateGood.filter fun i => (s.derateCode i).getD 4096 ≤ x).getLastD 0
    if j < cur && (s.derateCode cur).isSome && s.num (derateAt cur) 2 % 4096 ≤ x + s.num (derateAt cur + 2) 2 % 4096 then cur else j

/-- A read of the derating table: its words are corrected, or detected, first (R37, R40). -/
def State.derateTouch (s : State) : State :=
  let s := s.touchRange 0x840800 32
  s.touchRange 0x840820 (16 * (s.derateCount - 1))

/-- The entry in force: its STOP and MINSP apply to the fires after this (R74, R76); an unreadable one forbids nothing
(open points: DESIGN CHOICE, log 31). -/
def State.setDerate (s : State) (j : Nat) : State :=
  let s := (s.keep keyDerate s.derating).put F.EMI_STAT_DRENT j
  { s with emi := { s.emi with
      drStop := bit ((s.table (derateAt j + 9) 1).getD 0) 0, drMin := (s.table (derateAt j + 4) 4).getD 0 } }

/-- A DERATE conversion selects the entry in force; a newly selected one names its image, and one that names none leaves an older image
that still waits (R75 to R77) (open points: DESIGN CHOICE, log 31). -/
def State.derateEvaluate (s : State) (r : Reading) : State :=
  let s := s.derateTouch
  if s.derateCount = 0 then s
  else
    let j := s.derateEntry r
    let new := j ≠ s.get F.EMI_STAT_DRENT
    let s := s.setDerate j
    let img := (s.table (derateAt j + 8) 1).getD 255
    if new && img < 8 then { s with emi := { s.emi with derImage := some img } }.showChain else s

/-- A write to EMI_DRCFG (R71, R72, R315). While EN is 0, EMI_STAT.DRENT goes on showing the entry that was last in force
(open points: DESIGN CHOICE, log 31). -/
def State.drcfgWrite (s : State) (src : Src) (v : Word) : State :=
  let own := ownFld (F.EMI_DRCFG_CONV.of v) (F.EMI_DRCFG_INPUT.of v)
  let was := s.is F.EMI_DRCFG_EN
  let old := ownFld (s.get F.EMI_DRCFG_CONV) (s.get F.EMI_DRCFG_INPUT)
  let en := F.EMI_DRCFG_EN.isOf v
  let s := if en then s.derateTouch else s
  if (s.is own && !(was && own = old)) || (en && !s.derateOk) then s.ignoreReg src F.EMI_DRCFG_EN.off
  else
    let s := s.keep keyDerate s.derating
    let s := if was then s.put old 0 else s
    let s := s.setReg F.EMI_DRCFG_EN.off (v &&& 0x1FD#32)
    if en then
      let s := s.put own 2
      if was then s else s.setDerate 0
    else s

/-- The meaning of DERATE_ENABLE: a write of EMI_DRCFG with EN = 1. -/
def execDerateEnable (src : Src) (v : Word) (s : State) : Host.Outcome State Fault Refusal := actBy src s (s.drcfgWrite src (v ||| 1#32))

/-- HKMASK_WRITE: a write to SNS_HKMASKn (R315, R316). -/
def State.hkWrite (s : State) (src : Src) (n : Nat) (v : Word) : State :=
  let mask := (F.SNS_HKMASK_MASK n).of v
  if (setBits 16 mask).any fun m => s.is (ownFld n m) && s.get (ownFld n m) ≠ 3 then s.ignoreReg src (F.SNS_HKMASK_MASK n).off
  else
    let s := s.put (F.SNS_HKMASK_MASK n) mask
    (List.range 16).foldl (fun s m =>
      if bit mask m then s.put (ownFld n m) 3 else if s.get (ownFld n m) = 3 then s.put (ownFld n m) 0 else s) s

/-- The meaning of HKMASK_WRITE. -/
def execHkmaskWrite (src : Src) (n : Fin 4) (v : Word) (s : State) : Host.Outcome State Fault Refusal :=
  actBy src s (s.hkWrite src n.val v)

/-! ### CHKDAC (R326, R327) -/

/-- CHECK_START: a write to SNS_CHK at t (R326) (open points: DEDUCED, log 64). -/
def State.chkWrite (s : State) (v : Word) (t : Nat) : State :=
  let busy := s.is F.SNS_CHK_BUSY
  let n := F.SNS_CHK_CONV.of v
  let m := F.SNS_CHK_INPUT.of v
  let code := F.SNS_CHK_CODE.of v
  let tol := F.SNS_CHK_TOL.of v
  let s := (((s.put F.SNS_CHK_CONV n).put F.SNS_CHK_INPUT m).put F.SNS_CHK_CODE code).put F.SNS_CHK_TOL tol
  if !F.SNS_CHK_GO.isOf v then s
  else if busy then s.count (F.SNS_CNT_COUNT 0)
  else
    let s := (s.put F.SNS_CHK_BUSY 1).at t
    { s with sns := { s.sns with check := some (n, m, code, tol, s.dt) } }

/-- The meaning of CHECK_START: a write of SNS_CHK with GO = 1. -/
def execCheckStart (src : Src) (v : Word) (t : Nat) (s : State) : Host.Outcome State Fault Refusal :=
  actBy src s (s.chkWrite (v ||| 0x80000000#32) t)

/-- CHECK_SETTLED: at least 2.0 µs after its GO the check raises its request (R326) (open points: DEDUCED, log 64). -/
def State.checkSettled (s : State) (t : Nat) : State :=
  match s.sns.check with
  | some (n, m, code, tol, t0) =>
    if t0 + 3200 ≤ t then ({ s with sns := { s.sns with check := none } }.at t).convRequest n (.check code tol) m else s
  | none => s

/-- The meaning of CHECK_SETTLED. -/
def execCheckSettled (t : Nat) (s : State) : Host.Outcome State Fault Refusal := act s (s.checkSettled t)

/-- The check's result, with the vector 19 event (R326, R327, R508). -/
def State.checkResult (s : State) (n m code tol : Nat) (r : Reading) : State :=
  let want := 4 * code + 2
  let pass : Bool := (r.code - want) + (want - r.code) ≤ tol
  let s := ((s.put F.SNS_CHK_BUSY 0).put F.SNS_CHKRES_DONE 1).putB F.SNS_CHKRES_FAIL (!pass)
  let s := ((s.put F.SNS_CHKRES_CONV n).put F.SNS_CHKRES_INPUT m).put F.SNS_CHKRES_RESULT r.code
  let s := if pass then s.count (F.SNS_CNT_COUNT 4)
    else (s.count (F.SNS_CNT_COUNT 3)).raise Cause.check (16 * n + m) (detail := r.code)
  s.event 19

/-! ### Readings (R323 to R325) -/

/-- The reading of an input at a voltage in nV: ⌊4,096 V / 1.600 V⌋, one code being 390,625 nV; above and below the range the end codes
with their flags (R313, R324) (open points: DEDUCED, log 64). -/
def readingOf (v : Int) : Reading :=
  if v < 0 then ⟨0, false, true⟩ else if 1600000000 ≤ v then ⟨0xFFF, true, false⟩ else ⟨v.toNat / 390625, false, false⟩

/-- SNS_RESn_m takes a reading (R323 to R325). -/
def State.putReading (s : State) (n m : Nat) (r : Reading) (rcv : Bool) : State :=
  let s := (s.put (F.SNS_RES_SEQ n m) (s.get (F.SNS_RES_SEQ n m) + 1)).put (F.SNS_RES_CODE n m) r.code
  ((s.putB (F.SNS_RES_OVR n m) r.ovr).putB (F.SNS_RES_UNDR n m) r.undr).putB (F.SNS_RES_RCV n m) rcv

/-- The result goes to what asked for it, and to the input's owner: an axis takes the codes of its sample instants, derating every reading
of its input (R75, R270, R322, R323, R327) (open points: DEDUCED, log 64). -/
def State.convGive (s : State) (n : Nat) (q : Conv) (r : Reading) : State :=
  let mine : Bool := s.get (ownFld n q.input) = 2
  match q.kind with
  | .axis a => s.axisReading a q.start r
  | .check code tol => s.checkResult n q.input code tol r
  | .derate | .host => if mine then s.derateEvaluate r else s
  | .demand =>
    let s := s.put F.SNS_CONV_BUSY 0
    if mine then s.derateEvaluate r else s

/-- A check's conversion. -/
def ConvKind.isCheck : ConvKind → Bool
  | .check _ _ => true
  | _ => false

/-- CONVERSION_COMPLETE: the code of converter n's conversion is available (R314, R323 to R327) (open points: DEDUCED, log 64). -/
def State.convComplete (s : State) (n : Nat) (v : Int) (t : Nat) : State :=
  let c := s.adc n
  match c.runs with
  | q :: rest =>
    if q.start + 1600 ≤ t then
      let r := readingOf v
      let rcv : Bool := match c.recover with
        | some e => q.start < e + 3200
        | none => false
      let chk := q.kind.isCheck
      let rec1 := if (r.ovr || r.undr) && !chk then some (q.start + 1600) else c.recover
      let s := (s.at t).setAdc n { c with runs := rest, recover := rec1 }
      let s := if r.ovr then s.count (F.SNS_CNT_COUNT 1) else if r.undr then s.count (F.SNS_CNT_COUNT 2) else s
      (if chk then s else s.putReading n q.input r rcv).convGive n q r
    else s
  | [] => s

/-- The meaning of CONVERSION_COMPLETE (open points: DESIGN CHOICE, log 98). -/
def execConversionComplete (n : Fin 4) (v : Int) (t : Nat) (s : State) : Host.Outcome State Fault Refusal :=
  act s (s.convComplete n.val v t)

/-! ### Frequency meters (R328 to R334) -/

/-- The range of IDX for a source (R328). -/
def idxRange (src : Nat) : Nat :=
  if src = 3 || src = 4 || src = 5 then 4 else if src = 6 then 512 else 1

/-- A write of SNS_FMCFGi with EN = 1 is refused (R333). -/
def State.meterBarred (s : State) (i : Nat) (v : Word) : Bool :=
  let src := (F.SNS_FMCFG_SRC i).of v
  let gate := s.get (F.SNS_FMGATE_GATE i)
  src = 0 || (F.SNS_FMCFG_DIV i).of v = 0 || gate = 0 || 10000 < gate || idxRange src ≤ (F.SNS_FMCFG_IDX i).of v

/-- A write to SNS_FMCFGi at t (R331, R333) (open points: DEDUCED, log 65). -/
def State.fmWrite (s : State) (src : Src) (i : Nat) (v : Word) (t : Nat) : State :=
  let off := (F.SNS_FMCFG_EN i).off
  let en := (F.SNS_FMCFG_EN i).isOf v
  if en && (s.is (F.SNS_FMCFG_EN i) || s.meterBarred i v) then s.ignoreReg src off
  else
    let s := (s.setReg off (v &&& 0x8FFFFFFF#32)).at t
    if en then s.setMeter i ⟨s.dt, [], 0, none, [], none, false⟩ else s

/-- The meaning of METER_ENABLE: a write of SNS_FMCFGi with EN = 1. -/
def execMeterEnable (src : Src) (i : Fin 8) (v : Word) (t : Nat) (s : State) : Host.Outcome State Fault Refusal :=
  actBy src s (s.fmWrite src i.val (v ||| 0x80000000#32) t)

/-- A stamp is taken: every DIV-th is accepted, one less than 250 ns after the last is discarded (R330)
(open points: DEDUCED, log 65). -/
def State.meterTake (s : State) (i x : Nat) : State :=
  let m := s.meter i
  let m := { m with count := m.count + 1, prev := some x }
  if (m.count - 1) % s.get (F.SNS_FMCFG_DIV i) ≠ 0 then s.setMeter i m
  else if m.last.any fun l => x < l + 409600 then
    (s.setMeter i { m with loss := true }).count (F.SNS_CNT_COUNT 5)
  else s.setMeter i { m with stamps := m.stamps ++ [x], last := some x }

/-- The oldest stamp that a meter's source has given is taken (R328 to R330) (open points: DEDUCED, log 65). -/
def State.meterStamp (s : State) (i : Nat) : State := match (s.meter i).given with
  | x :: xs => (s.setMeter i { s.meter i with given := xs }).meterTake i x
  | [] => s

/-- METER_STAMP: the meter takes the stamp x, the oldest one that its source has given (R328 to R330)
(open points: DEDUCED, log 65). -/
def execMeterStamp (i : Fin 8) (x : Nat) (s : State) : Host.Outcome State Fault Refusal :=
  act s (if (s.meter i).given.head? = some x then s.meterStamp i.val else s)

/-- STAMP_POST: a Postmark written to SNS_FMPOSTi at t (R334) (open points: DEDUCED, log 65). -/
def State.stampPost (s : State) (i : Nat) (v : Word) (t : Nat) : State :=
  let s := s.at t
  if s.is (F.SNS_FMCFG_EN i) && s.get (F.SNS_FMCFG_SRC i) = 7 then
    let low := v.toNat / 64
    let c := s.dt - (s.dt + 2 ^ 26 - low) % 2 ^ 26
    let x := 1024 * c + 16 * (v.toNat % 64) + 8
    match (s.meter i).prev with
    | some l => if x < l then s.count (F.SNS_CNT_COUNT 6) else s.meterTake i x
    | none => s.meterTake i x
  else s

/-- The meaning of STAMP_POST. -/
def execStampPost (src : Src) (i : Fin 8) (v : Word) (t : Nat) (s : State) : Host.Outcome State Fault Refusal :=
  actBy src s (s.stampPost i.val v t)

/-- The sum of (2 i - N + 1) t_i over the stamps, N of them in all, from index i on (R331). -/
def slopeSum (n : Nat) : Nat → List Nat → Int
  | _, [] => 0
  | i, x :: xs => (2 * (i : Int) - n + 1) * x + slopeSum n (i + 1) xs

/-- P in 2^-16 fine LSB, from stamps in 1/16 fine LSB (R331) (open points: DEDUCED, log 65). -/
def fitPeriod (l : List Nat) : Nat :=
  let n := l.length
  (roundDiv (24576 * slopeSum n 0 l) ((n * (n * n - 1) : Nat) : Int)).toNat

/-- The residual rms in 1/16 fine LSB, rounded to nearest (R332) (open points: DEDUCED, log 65). -/
def fitRms (l : List Nat) : Nat :=
  let n := l.length
  let l := l.map fun x => x - l.headD 0
  let sx := l.sum
  let sxx := (l.map fun x => x * x).sum
  let k := slopeSum n 0 l
  let num : Nat := ((((n * sxx : Nat) : Int) - (sx * sx : Nat)) * ((n * n - 1 : Nat) : Int) - 3 * k * k).toNat
  let den := n * (n * n - 1) * (n - 2)
  let r := isqrt (num / den)
  if den * ((2 * r + 1) * (2 * r + 1)) ≤ 4 * num then r + 1 else r

/-- METER_GATE_END: the meter's gate ends in device time, the stamps before its end are taken, and its results are published (R331, R332)
(open points: DEDUCED, log 65). -/
def State.gateEnd (s : State) (i : Nat) : State :=
  if s.is (F.SNS_FMCFG_EN i) && s.is F.SYS_STAT_TBLOCK then
    let stop := (s.meter i).gate + 1600000 * s.get (F.SNS_FMGATE_GATE i)
    let s := ((s.meter i).given.takeWhile fun x => x < 1024 * stop).foldl (fun s _ => s.meterStamp i) (s.at stop)
    let m := s.meter i
    let n := m.stamps.length
    let p := if n < 3 then 0 else fitPeriod m.stamps
    let s := (s.put (F.SNS_FMPERLO_PER i) p).put (F.SNS_FMPERHI_PER i) (p / 2 ^ 32)
    let s := if n < 3 then s else s.put (F.SNS_FMRES_RMS i) (min (fitRms m.stamps) (2 ^ 32 - 1))
    let s := ((s.putB (F.SNS_FMSTAT_VALID i) (3 ≤ n)).putB (F.SNS_FMSTAT_LOSS i) m.loss).put (F.SNS_FMSTAT_N i) n
    let s := s.put (F.SNS_FMSTAT_GSEQ i) (s.get (F.SNS_FMSTAT_GSEQ i) + 1)
    s.setMeter i { m with gate := stop, stamps := [], loss := false }
  else s

/-- The meaning of METER_GATE_END. -/
def execMeterGateEnd (i : Fin 8) (s : State) : Host.Outcome State Fault Refusal := act s (s.gateEnd i.val)

/-- A write to SNS_FMGATEi or SNS_FMHYSi while the meter is enabled is refused (R333). -/
def State.meterHeld (s : State) (src : Src) (i off : Nat) (mask v : Word) : State :=
  if s.is (F.SNS_FMCFG_EN i) then s.ignoreReg src off else s.setReg off (v &&& mask)

end Sys2Proof.Machine
end

