-- ==== Sys2Proof/Machine/Seq.lean ====
section
/-!
DEFINITION. The Fire Sequencer and the Point Engines around their instructions: starting and stopping, banks, loops, traps,
dispatch, waits, and the frame mark (R336 to R371, R612).
-/
namespace Sys2Proof.Machine

/-! ### Engines -/

/-- The number under which parity keeps the queue of records that an engine holds until its work ends (R353, R612)
(open points: DEDUCED, log 103). -/
def heldQueue : Nat := 96

/-- Point Engine n. -/
def State.pe (s : State) (n : Nat) : Pe := s.seq.pes.getD n ⟨Engine.reset, none, none⟩

/-- Point Engine n replaced. -/
def State.setPe (s : State) (n : Nat) (p : Pe) : State :=
  if h : n < 16 then { s with seq := { s.seq with pes := s.seq.pes.set n p h } } else s

/-- The Fire Sequencer replaced. -/
def State.setFsq (s : State) (f : Fsq) : State := { s with seq := { s.seq with fsq := f } }

/-- The registers of an engine. -/
def State.eng (s : State) : Eng → Engine
  | .fsq => s.seq.fsq.eng
  | .pe n => (s.pe n.val).eng

/-- SEQ_STAT.INTRAP and the PESTAT copies follow the engine's registers. -/
def State.setEng (s : State) (e : Eng) (g : Engine) : State := match e with
  | .fsq => (s.setFsq { s.seq.fsq with eng := g }).putB F.SEQ_STAT_INTRAP g.intrap
  | .pe n =>
    let s := s.setPe n.val { s.pe n.val with eng := g }
    ((s.put (F.SEQ_PESTAT_TCAUSE n.val) g.tcause).putB (F.SEQ_PESTAT_AOV n.val) g.aov).putB (F.SEQ_PESTAT_MSAT n.val) g.msat

/-- SEQ_STAT.PEBUSY and PESTAT.KIND follow the work of engine n (open points: DEDUCED, log 71). -/
def State.showWork (s : State) (n : Nat) : State :=
  let k := match (s.pe n).work with
    | some d => d.kind
    | none => 0
  (s.put ⟨F.SEQ_STAT_PEBUSY.off, F.SEQ_STAT_PEBUSY.lo + n, 1⟩ (b01 (k ≠ 0))).put (F.SEQ_PESTAT_KIND n) k

/-- Engine n holds the Postmaster role; in SOLO from reset PE15 (R369). -/
def State.isPost (s : State) (n : Nat) : Bool := s.is (F.SEQ_PESTAT_POST n)

/-- The local memory of engine n in BAR2 (R367). -/
def peBase (n : Nat) : Nat := 0x100000 + 0x20000 * n

/-- The words of an engine's bank. -/
def bankWords : Eng → Nat
  | .fsq => 65536
  | .pe _ => 8192

/-- The BAR2 offset of word i of an engine's bank in use (R354, R364). -/
def State.wordAt (s : State) (e : Eng) (i : Nat) : Nat := match e with
  | .fsq => 0x40000 * s.get F.SEQ_BANK_FCUR + 4 * i
  | .pe n => peBase n.val + 0x8000 * (s.pe n.val).eng.bank + 4 * i

/-! ### Loops (R343, R344, R382) -/

/-- LC of a level written. -/
def Engine.setLc (g : Engine) (i : Nat) (v : Word) : Engine := if h : i < 4 then { g with lc := g.lc.set i v h } else g

/-- RRB after an iteration of a rotating loop (R344). -/
def Engine.rotate (g : Engine) (rot : Bool) : Engine := if rot then { g with rrb := (g.rrb + 31) % 32 } else g

/-- The back-edge tests at word index i, from the innermost level on: the index where execution continues, other than the
sequential one, and the levels that end (R343, R382); n bounds the levels (open points: DEDUCED, log 66). -/
def Engine.backEdge (g : Engine) (i : Nat) : Nat → Engine × Option Nat
  | 0 => (g, none)
  | n + 1 => match g.loops.getLast? with
    | some l =>
      if l.last ≠ i then (g, none)
      else
        let k := g.loops.length - 1
        let c := (g.lc.getD k 0#32).toNat
        let g := g.rotate l.rot
        if 1 < c then (g.setLc k (BitVec.ofNat 32 (c - 1)), some l.top)
        else ({ g.setLc k 0#32 with loops := g.loops.dropLast }).backEdge i n
    | none => (g, none)

/-- The engine after the instruction at PC, of len words, without a taken branch (R376, R382) (open points: DEDUCED, log 66). -/
def Engine.next (g : Engine) (len : Nat) : Engine :=
  let (h, back) := g.backEdge g.pc 4
  { h with pc := back.getD (g.pc + len) }

/-- The levels whose body holds a branch target, from the outermost on (R343) (open points: DEDUCED, log 66). -/
def keepLevels (target : Nat) : List LoopLv → List LoopLv
  | [] => []
  | l :: ls => if l.top ≤ target && target ≤ l.last then l :: keepLevels target ls else []

/-- The engine after a taken branch (R343, R382). -/
def Engine.branch (g : Engine) (target : Nat) : Engine := { g with pc := target, loops := keepLevels target g.loops }

/-! ### The Fire Sequencer (R336 to R342, R363) -/

/-- The FSQ runs. -/
def State.running (s : State) : Bool := s.is F.SEQ_STAT_RUN

/-- A write of RUN = 1 starts the stopped FSQ at device time t (R336, R564) (open points: DEDUCED, log 70). -/
def State.fsqStart (s : State) (t : Nat) : State :=
  let s := s.at t
  let tc := s.dt + 16000
  let g := { Engine.reset with tcause := s.seq.fsq.eng.tcause, tpc := s.seq.fsq.eng.tpc }
  let s := (s.setFsq ⟨g, tc, 0, 0, none, none, false, false⟩).setEng .fsq g
  let s := (((s.put F.SEQ_STAT_RUN 1).put F.SEQ_CTRL_RUN 1).put F.SEQ_STAT_HALT 0).put F.SEQ_FPOS_FRAME 0
  let s := s.put F.SEQ_FPOS_COLUMN 0
  { s with pool := { s.pool with frame := 0, column := 0 }, emi := { s.emi with codeMarks := s.emi.codeMarks ++ [tc] } }

/-- The FSQ is stopped; the contexts close once no queued command remains (R342) (open points: DEDUCED, log 70). -/
def State.fsqHold (s : State) : State :=
  let s := (s.put F.SEQ_STAT_RUN 0).put F.SEQ_CTRL_RUN 0
  s.setFsq { s.seq.fsq with stall := none, wait := none, stopping := false, flush := true }

/-- A write of RUN = 0: the FSQ stops after its current instruction, at once when none is stalled or waits (R342)
(open points: DEDUCED, log 70). -/
def State.fsqStop (s : State) : State :=
  if !s.running then s.put F.SEQ_CTRL_RUN 0
  else if s.seq.fsq.stall.isSome || s.seq.fsq.wait.isSome then
    (s.put F.SEQ_CTRL_RUN 0).setFsq { s.seq.fsq with stopping := true }
  else s.fsqHold

/-- A stalled or waiting instruction has ended; a stop that was asked for follows (R342) (open points: DEDUCED, log 70). -/
def State.fsqResumed (s : State) : State := if s.seq.fsq.stopping then s.fsqHold else s

/-- The FSQ halts: one fault record, and R342 (R363). -/
def State.fsqHalt (s : State) : State := (s.fsqHold.put F.SEQ_STAT_HALT 1).raise Cause.fsqhalt 0

/-- A write to SEQ_CTRL at t (R336, R342). -/
def State.seqCtrl (s : State) (src : Src) (v : Word) (t : Nat) : State :=
  let run := F.SEQ_CTRL_RUN.isOf v
  if run && !s.running && !s.is F.SYS_STAT_TBLOCK then s.ignoreReg src F.SEQ_CTRL_RUN.off
  else
    let s := s.put F.SEQ_CTRL_PEEN (F.SEQ_CTRL_PEEN.of v)
    if run then (if s.running then s else s.fsqStart t) else s.fsqStop

/-- The meaning of FSQ_RUN: a write of SEQ_CTRL with RUN = 1. -/
def execFsqRun (src : Src) (v : Word) (t : Nat) (s : State) : Host.Outcome State Fault Refusal :=
  actBy src s (s.seqCtrl src (v ||| 1#32) t)

/-- The meaning of FSQ_STOP: a write of SEQ_CTRL with RUN = 0. -/
def execFsqStop (src : Src) (v : Word) (s : State) : Host.Outcome State Fault Refusal :=
  actBy src s (s.seqCtrl src (v &&& 0xFFFFFFFE#32) s.dt)

/-- FSQ_STOP_FLUSH: no queued command remains after a stop; every OPEN or ZOOM context closes as by a late command (R342)
(open points: DEDUCED, log 70). -/
def State.stopFlush (s : State) (t : Nat) : State :=
  if s.seq.fsq.flush && s.emi.tq.isEmpty then
    let s := (s.at t).setFsq { s.seq.fsq with flush := false }
    ((s.pool.ctxs.filter fun c => c.live).map fun c => c.id).foldl (fun s id => s.requestClose id true) s
  else s

/-- The meaning of FSQ_STOP_FLUSH. -/
def execFsqStopFlush (t : Nat) (s : State) : Host.Outcome State Fault Refusal := act s (s.stopFlush t)

/-- A trap of the FSQ: counted; inside the handler it is NESTED and halts the FSQ, else execution continues at the TRAP entry with
the resume index in TPC (R360, R363, R386) (open points: DEDUCED, log 67). -/
def State.fsqTrap (s : State) (cause tpc : Nat) : State :=
  let s := s.count (F.SEQ_CNT_COUNT 4)
  let g := s.seq.fsq.eng
  if g.intrap then (s.setEng .fsq { g with tcause := 7, tpc := tpc, pc := 8 }).fsqHalt
  else s.setEng .fsq { g with tcause := cause, intrap := true, tpc := tpc, pc := 8 }

/-! ### The timed command queue's stall (R31) -/

/-- A command enters the timed queue, with its device time from TC and an offset word; less than 64 coarse ticks before its device time it
is late (R30, R337, R388, R545). -/
def State.queueCmd (s : State) (k : TKind) (off : Nat) : State :=
  let f := s.seq.fsq
  let sub := f.sub + off % 16
  let c : TCmd := ⟨k, f.tc + off / 16 + sub / 16, sub % 16, s.get F.SEQ_FPOS_FRAME, s.get F.SEQ_FPOS_COLUMN, false⟩
  s.setQ (s.emi.tq ++ [{ c with late := s.lateAt c < s.dt + 64 }])

/-- FRAME and COLUMN of the FSQ after a MARK issues (R340). -/
def State.markIssued (s : State) (column : Bool) : State :=
  if column then s.put F.SEQ_FPOS_COLUMN (s.get F.SEQ_FPOS_COLUMN + 1)
  else (s.put F.SEQ_FPOS_FRAME (s.get F.SEQ_FPOS_FRAME + 1)).put F.SEQ_FPOS_COLUMN 0

/-- A MARK FRAME brings a pending FSQ bank into force: execution continues at its SWAP entry with no loop active (R365)
(open points: DEDUCED, log 72). -/
def State.bankSwap (s : State) : State :=
  if s.is F.SEQ_BANK_FPENDV then
    let s := ((s.put F.SEQ_BANK_FCUR (s.get F.SEQ_BANK_FPEND)).put F.SEQ_BANK_FPENDV 0).put F.SEQ_BANK_FPEND 0
    (s.setEng .fsq { s.seq.fsq.eng with pc := 4, loops := [] }).event 20
  else s

/-- A timed command issues: it enters the queue, and the FSQ goes on (R337, R340, R365). -/
def State.timedIssue (s : State) (k : TKind) (off len : Nat) : State :=
  let s := s.queueCmd k off
  let s := s.setEng .fsq (s.seq.fsq.eng.next len)
  match k with
  | .mark column => let s := s.markIssued column; if column then s else s.bankSwap
  | .row r => s.setFsq { s.seq.fsq with row := r }
  | _ => s

/-- A timed command issues, or stalls the pipeline on a full queue (R31). -/
def State.timed (s : State) (k : TKind) (off len : Nat) : State :=
  if 512 ≤ s.emi.tq.length then
    (s.setFsq { s.seq.fsq with stall := some ⟨k, off, len⟩ }).count (F.SEQ_CNT_COUNT 1)
  else s.timedIssue k off len

/-- TIMED_QUEUE_ENTRY_FREED: the stalled instruction issues (R31). -/
def State.entryFreed (s : State) : State :=
  match s.seq.fsq.stall with
  | some x =>
    if s.emi.tq.length < 512 then ((s.setFsq { s.seq.fsq with stall := none }).timedIssue x.kind x.off x.len).fsqResumed else s
  | none => s

/-- The meaning of TIMED_QUEUE_ENTRY_FREED. -/
def execTimedQueueEntryFreed (s : State) : Host.Outcome State Fault Refusal := act s s.entryFreed

/-! ### Waits (R339) -/

/-- A predicate written; Q0 always reads 1 (R380). -/
def Engine.setQ (g : Engine) (i : Nat) (b : Bool) : Engine :=
  if i % 8 = 0 then g
  else { g with q := if b then g.q ||| (1#8 <<< (i % 8)) else g.q &&& ~~~(1#8 <<< (i % 8)) }

/-- The wait ends: TC and the predicate take their values, and the FSQ goes on. -/
def State.waitEnd (s : State) (tc sub qd : Nat) (q : Bool) : State :=
  let s := s.setFsq { s.seq.fsq with wait := none, tc := tc, sub := sub }
  (s.setEng .fsq ((s.seq.fsq.eng.setQ qd q).next 1)).fsqResumed

/-- The earliest frame-marker time at or after TC (R566) (open points: DEDUCED, log 92). -/
def State.markerTime (s : State) : Option Nat :=
  let d := 16 * s.get F.FLE_SYNC_DELAY
  ((s.fle.syncs.map fun x => x + d).filter fun m => 16 * s.seq.fsq.tc + s.seq.fsq.sub ≤ 16 * m).foldl
    (fun b m => some (match b with
      | some x => min x m
      | none => m)) none

/-- WAITA_RESUME: the crossing or the frame-marker time that the FSQ waits for is known (R296, R297, R339)
(open points: DEDUCED, log 63). -/
def State.waitResume (s : State) : State :=
  let f := s.seq.fsq
  match f.wait with
  | some (.axis a target dir qd) =>
    if s.axisOut a then (s.count (F.AXS_CNT_COUNT a 5)).waitEnd f.tc f.sub qd false
    else match s.crossing a target dir (16 * f.tc + f.sub) with
      | some c => s.waitEnd c 0 qd true
      | none => s
  | some (.sync qd) => match s.markerTime with
    | some m => s.waitEnd m 0 qd true
    | none => s
  | none => s

/-- The meaning of WAITA_RESUME. -/
def execWaitaResume (s : State) : Host.Outcome State Fault Refusal := act s s.waitResume

/-- WAIT_TIMEOUT: device time reaches TC + SEQ_WTMO first (R339). -/
def State.waitTimeout (s : State) (t : Nat) : State :=
  let f := s.seq.fsq
  let n := s.get F.SEQ_WTMO_WTMO
  match f.wait with
  | some w =>
    if 16 * (f.tc + n) + f.sub ≤ 16 * t then
      let qd := match w with
        | .axis _ _ _ q => q
        | .sync q => q
      ((s.at t).count (F.SEQ_CNT_COUNT 2)).waitEnd (f.tc + n) f.sub qd false
    else s
  | none => s

/-- The meaning of WAIT_TIMEOUT. -/
def execWaitTimeout (t : Nat) (s : State) : Host.Outcome State Fault Refusal := act s (s.waitTimeout t)

/-! ### Banks (R365 to R367) -/

/-- Any PEEN bit is set or any context is not FREE (R366); in SOLO, bit 15 of PEEN has no effect (R369). -/
def State.peInUse (s : State) : Bool :=
  s.get F.SEQ_CTRL_PEEN % (if s.solo then 2 ^ 15 else 2 ^ 16) ≠ 0 || !s.pool.ctxs.isEmpty

/-- A request for an FSQ bank, judged on its own (R365, R367) (open points: DEDUCED, log 72). -/
def State.fsqGo (s : State) (src : Src) (sel : Nat) : State :=
  if s.is F.SEQ_BANK_FPENDV || sel = s.get F.SEQ_BANK_FCUR then s.ignoreReg src F.SEQ_BANK_FGO.off
  else if s.running then (s.put F.SEQ_BANK_FPENDV 1).put F.SEQ_BANK_FPEND sel
  else s.put F.SEQ_BANK_FCUR sel

/-- A request for a PE bank, judged on its own (R366, R367) (open points: DEDUCED, log 72). -/
def State.peGo (s : State) (src : Src) (sel : Nat) : State :=
  if s.is F.SEQ_BANK_PPENDV || sel = s.get F.SEQ_BANK_PCUR then s.ignoreReg src F.SEQ_BANK_PGO.off
  else if s.peInUse then (s.put F.SEQ_BANK_PPENDV 1).put F.SEQ_BANK_PPEND sel
  else (s.put F.SEQ_BANK_PCUR sel).showHeld

/-- A write to SEQ_BANK (R367) (open points: DEDUCED, log 72). -/
def State.bankWrite (s : State) (src : Src) (v : Word) : State :=
  let f := F.SEQ_BANK_FSEL.of v
  let p := F.SEQ_BANK_PSEL.of v
  let s := (s.put F.SEQ_BANK_FSEL f).put F.SEQ_BANK_PSEL p
  let s := if F.SEQ_BANK_FGO.isOf v then s.fsqGo src f else s
  if F.SEQ_BANK_PGO.isOf v then s.peGo src p else s

/-- The meaning of FSQ_BANK_GO: a write of SEQ_BANK with FGO = 1. -/
def execFsqBankGo (src : Src) (v : Word) (s : State) : Host.Outcome State Fault Refusal := actBy src s (s.bankWrite src (v ||| 0x100#32))

/-- The meaning of PE_BANK_GO: a write of SEQ_BANK with PGO = 1. -/
def execPeBankGo (src : Src) (v : Word) (s : State) : Host.Outcome State Fault Refusal := actBy src s (s.bankWrite src (v ||| 0x400#32))

/-- The pending PE bank comes into force at a frame mark (R366) (open points: DEDUCED, log 72). -/
def State.peBankMark (s : State) : State :=
  if s.is F.SEQ_BANK_PPENDV then
    (((s.put F.SEQ_BANK_PCUR (s.get F.SEQ_BANK_PPEND)).put F.SEQ_BANK_PPENDV 0).put F.SEQ_BANK_PPEND 0).showHeld.event 20
  else s

/-! ### The frame mark (R340) -/

/-- A frame mark at t: the contexts' FRAME and COLUMN, the code indices, and every change that waits for it. -/
def State.frameMark (s : State) (t : Nat) : State :=
  let f := (s.pool.frame + 1) % 65536
  let s := { s with pool := { s.pool with frame := f, column := 0 }, emi := { s.emi with codeK := [] } }
  (((((s.stat f id).decMark).zoneMark t).peBankMark).axisMark).latchFrame

/-- MARK_ACTS: the due MARK acts (R340). -/
def State.markActs (s : State) : State := match s.takeDue TKind.mark? with
  | some (true, _, s) => { s with pool := { s.pool with column := (s.pool.column + 1) % 65536 } }
  | some (false, c, s) => s.frameMark c.tc
  | none => s

/-- The meaning of MARK_ACTS. -/
def execMarkActs (s : State) : Host.Outcome State Fault Refusal := act s s.markActs

/-! ### Dispatch (R349 to R353) -/

/-- Engine n receives dispatches (R349, R362, R369). -/
def State.peServes (s : State) (n : Nat) : Bool :=
  bit (s.get F.SEQ_CTRL_PEEN) n && !s.is (F.SEQ_PESTAT_RETIRED n) && !s.isPost n

/-- The engine that the next item goes to: the lowest-numbered with an empty staging slot (R349). -/
def State.stageSlot (s : State) : Option Nat := (List.range 16).find? fun n => s.peServes n && (s.pe n).staged.isNone

/-- The KIND of a block's dispatch (R351). -/
def PassKind.kind : PassKind → Nat
  | .close => 1
  | .replay => 4
  | .early => 2

/-- A close-pass block waits for its context's early pass (R194). The rule does not name the replay-pass block of a context whose close pass
was abandoned: it goes on at once (open points: DEDUCED, log 71). -/
def State.blockHeld (s : State) (b : Block) : Bool := b.kind = .close && match s.ctx? b.ctx with
  | some c => c.earlyRun
  | none => false

/-- The context header that a block's dispatch shows: of an early one the partial copy's (R351). -/
def State.headerOf (s : State) (b : Block) : List Byte := match b.part with
  | some p => p.data.take 64
  | none => match s.ctx? b.ctx with
    | some c => c.header
    | none => []

/-- The header of a block's partial copy is read: the copy as corrected, and whether it can be used (R37, R40, R543). -/
def State.readHeader (s : State) (b : Block) : State × Option Partial × Bool := match b.part with
  | some p => let r := s.readPart p 0 64; (r.1, some r.2.1, r.2.2)
  | none => (s, none, true)

/-- The pixel of a block is emitted from its raw candidates (R210, R213, R215). -/
def State.rawPixel (s : State) (id : Nat) (data : List Byte) (overrun : Bool) : State := match s.ctx? id with
  | some c => let (s, pts) := s.fallback c data overrun; s.endPixel id pts
  | none => s

/-- A block is taken by the dispatcher for engine n: staged with the budget read now, or dealt with under a budget of 0 (R212,
R215); one that a parity error struck sends its pixel to processing replay (R535) (open points: DEDUCED, log 71). -/
def State.stageBlock (s : State) (n : Nat) (b : Block) : State :=
  let s := { s with dec := { s.dec with blocks := dropFirst (fun x => x = b) s.dec.blocks } }
  let early := b.kind = .early
  let budget := s.get (if early then F.PNT_BUDGET_EARLY else F.PNT_BUDGET_PIX)
  if b.bad then
    let s := s.raise Cause.parity 17 (proc := if early then [] else [b.ctx])
    if early then s else s.toReplay b.ctx
  else if budget = 0 then (if early then s else s.rawPixel b.ctx b.data false)
  else
    let (s, part, ok) := s.readHeader b
    if !ok then s
    else
      let b := { b with part := part }
      s.setPe n { s.pe n with staged := some ⟨b.kind.kind, some b.ctx, b.slot, b.bank, some budget, b.data, s.headerOf b, b.part, []⟩ }

/-- DISPATCH_STAGE: the next item in the order of R349 fills an empty staging slot. A returned dispatch keeps its rank (R362)
(open points: DEDUCED, log 71). -/
def State.dispatchStage (s : State) : State :=
  match s.stageSlot with
  | some n =>
    let turn : PassKind → Option State := fun k =>
      match s.seq.returned.find? fun d => d.kind = k.kind with
      | some d => some (({ s with seq := { s.seq with returned := dropFirst (fun x => x = d) s.seq.returned } }).setPe n
          { s.pe n with staged := some d })
      | none => (s.dec.blocks.find? fun b => b.kind = k && !s.blockHeld b).map fun b => s.stageBlock n b
    (([PassKind.replay, .early, .close].findSome? turn).getD s)
  | none => s

/-- The meaning of DISPATCH_STAGE. -/
def execDispatchStage (s : State) : Host.Outcome State Fault Refusal := act s s.dispatchStage

/-- The first word of the entry of a kind of work (R364). -/
def entryOf : Nat → Nat
  | 2 => 4
  | 3 => 8
  | 5 => 16
  | _ => 0

/-- The registers at a dispatch start, PC at an entry of a bank (R350). -/
def Engine.dispatch (g : Engine) (bank entry : Nat) : Engine :=
  { Engine.reset with
    p := (Vector.replicate 16 0#32).set 0 0x30000#32
    tcause := g.tcause
    tpc := g.tpc
    aov := g.aov
    msat := g.msat
    bank := bank
    pc := entry }

/-- The mailbox of a dispatch on engine n (R351). -/
def mailbox (n : Nat) (d : Disp) : List Byte :=
  let pad : Nat → List Byte → List Byte := fun k l => l ++ List.replicate (k - l.length) 0#8
  pad 32 (leBytes 1 d.kind ++ leBytes 1 n ++ leBytes 2 d.slot ++ leBytes 2 (d.budget.getD 0) ++ leBytes 1 d.bank)
    ++ pad 224 d.block ++ pad 64 d.header

/-! ### The end of an engine's work (R353, R361, R362) -/

/-- An engine is retired: its staged dispatch returns to the dispatcher (R362). -/
def State.peRetire (s : State) (n : Nat) : State :=
  let s := s.put (F.SEQ_PESTAT_RETIRED n) 1
  match (s.pe n).staged with
  | some d =>
    let s := (s.setPe n { s.pe n with staged := none }).count (F.SEQ_CNT_COUNT 6)
    { s with seq := { s.seq with returned := d :: s.seq.returned } }
  | none => s

/-- A trap of engine n with the index that it resumes at (R359 to R362, R386, R612). An ending trap raises its record and dooms the
work; the work of a trap inside the handler ends at once, which the caller sees by the second component. Its TCAUSE is NESTED, so that it
depends on no MEMORY root (R540) (open points: DEDUCED, log 67). -/
def State.peTrapIn (s : State) (n cause : Nat) (own : Bool) (mem : Option Nat) (tpc : Nat) : State × Bool :=
  if h : n < 16 then
    let g := (s.pe n).eng
    let nested := g.intrap
    let c := if nested then 7 else cause
    let ending := nested || 3 ≤ c
    let retire := g.retire || cause = 6 || (cause = 5 && own)
    let g' := { g with tcause := c, intrap := true, retire := retire, doomed := g.doomed || ending, tpc := tpc, pc := 12 }
    let s := s.setEng (.pe ⟨n, h⟩) g'
    if ending then
      let pixel : List Nat := match (s.pe n).work with
        | some d => if d.kind = 1 then d.ctx.toList else []
        | none => []
      let s := s.count (F.SEQ_CNT_COUNT 3)
      let f : FaultRec := ⟨Cause.petrap, n, c + 65536 * g.pc, false, false, !pixel.isEmpty, retire, 0, pixel.length, 0, 0, 0, pixel⟩
      (s.raiseIn f (if nested then none else mem), nested)
    else (s, false)
  else (s, false)

/-- A unit of work starts on engine n (R350). A mode word with a SCALE above 40 makes it trap before its first instruction, and so
does one that cannot be read (open points: DEDUCED, log 71). -/
def State.workStart (s : State) (n : Nat) (d : Disp) : State :=
  if h : n < 16 then
    let a := peBase n + 0x8000 * d.bank + 0x50
    let s := s.touchRange a 4
    let m := (s.byte a).toNat
    let bad := 40 < m % 64
    let g := { (s.pe n).eng.dispatch d.bank (entryOf d.kind) with mode := BitVec.ofNat 8 (if bad then m / 64 * 64 else m) }
    let s := (((s.setPe n { s.pe n with work := some d }).setEng (.pe ⟨n, h⟩) g)).showWork n
    if !s.rangeOk a 4 then (s.peTrapIn n 5 true (some 2) g.pc).1
    else if bad then (s.peTrapIn n 3 false none g.pc).1 else s
  else s

/-- The management program starts at the MANAGE entry of a bank (R369, R371). -/
def State.manage (s : State) (n bank : Nat) : State := s.workStart n ⟨5, none, 0, bank, none, [], [], none, []⟩

/-- What an ending trap does to the work, by its kind (R361). -/
def State.trapOutcome (s : State) (d : Disp) : State := match d.kind, d.ctx with
  | 1, some id => s.toReplay id
  | 4, some id => (s.count (F.SEQ_CNT_COUNT 8)).rawPixel id d.block true
  | _, _ => s

/-- Engine n has no work any more; what waited for its early records is handed on (R225); a retired one leaves service, and an engine that
the Postmaster role has passed to starts the management program (R361, R362, R371) (open points: DEDUCED, log 71). -/
def State.workDone (s : State) (n : Nat) : State :=
  let p := s.pe n
  let s := (s.setPe n { p with work := none }).showWork n
  let s := match p.work with
    | some d => if d.kind = 2 then s.releaseEnded s.seq.ended.length else s
    | none => s
  if p.eng.retire then s.peRetire n
  else match p.work with
    | some ⟨5, _, _, _, _, _, _, _, _⟩ => s.manage n p.eng.bank
    | _ => if s.isPost n && s.solo then s.manage n (s.get F.SEQ_BANK_PCUR) else s

/-- The work of engine n ends as an ending trap has it (R361). -/
def State.trapEnd (s : State) (n : Nat) : State := match (s.pe n).work with
  | some d => (s.trapOutcome d).workDone n
  | none => s

/-- A trap of engine n, and the end of its work where the trap came inside the handler (R360, R361). -/
def State.peTrap (s : State) (n cause : Nat) (own : Bool) (mem : Option Nat) (tpc : Nat) : State :=
  let (s, ended) := s.peTrapIn n cause own mem tpc
  if ended then s.trapEnd n else s

/-- The work of engine n ends with END (R353): a pixel's held points are handed on. -/
def State.workEnd (s : State) (n : Nat) : State := match (s.pe n).work with
  | some d =>
    if (s.pe n).eng.doomed then s.trapEnd n
    else match d.kind, d.ctx with
      | 1, some id => (s.endPixel id d.points).workDone n
      | 4, some id => (s.endPixel id d.points).workDone n
      | _, _ => s.workDone n
  | none => s

/-- DISPATCH_START: an idle engine starts its staged dispatch (R350). -/
def State.dispatchStart (s : State) (n : Nat) : State :=
  let p := s.pe n
  match p.work, p.staged with
  | none, some d => if s.isPost n then s else (s.setPe n { p with staged := none }).workStart n d
  | _, _ => s

/-- The meaning of DISPATCH_START. -/
def execDispatchStart (n : Fin 16) (s : State) : Host.Outcome State Fault Refusal := act s (s.dispatchStart n.val)

/-- A dispatch waits: a block that may be handed on, a returned one, or a staged one (R349). -/
def State.anyWaiting (s : State) : Bool :=
  (s.dec.blocks.any fun b => !s.blockHeld b) || !s.seq.returned.isEmpty
    || (List.range 16).any fun n => (s.pe n).staged.isSome

/-- BACKGROUND_SLICE_START: an idle engine starts a slice when no dispatch waits (R349, R357, R366)
(open points: DEDUCED, log 71). -/
def State.sliceStart (s : State) (n : Nat) : State :=
  let bg := s.get F.SEQ_BGBUD_BG
  if s.peServes n && (s.pe n).work.isNone && !s.anyWaiting && bg ≠ 0 then
    s.workStart n ⟨3, none, 0, s.get F.SEQ_BANK_PCUR, some bg, [], [], none, []⟩
  else s

/-- The meaning of BACKGROUND_SLICE_START. -/
def execBackgroundSliceStart (n : Fin 16) (s : State) : Host.Outcome State Fault Refusal := act s (s.sliceStart n.val)

/-- The engine has issued its whole budget: the next instruction is cut (R212, R357) (open points: DESIGN CHOICE, log 96). -/
def State.spent (s : State) (n : Nat) : Bool := match (s.pe n).work with
  | some d => match d.budget with
    | some b => b ≤ (s.pe n).eng.count
    | none => false
  | none => false

/-- BUDGET_CUT: the work is cut at the instruction beyond its budget (R212 to R214, R357, R360). -/
def State.budgetCut (s : State) (n : Nat) : State :=
  if !s.spent n then s
  else match (s.pe n).work with
    | some d =>
      if (s.pe n).eng.doomed then s.trapEnd n
      else match d.kind, d.ctx with
        | 1, some id => ((s.count (F.PNT_CNT_COUNT 6)).rawPixel id d.block true).workDone n
        | 4, some id => ((s.count (F.PNT_CNT_COUNT 6)).rawPixel id d.block true).workDone n
        | 3, _ => (s.count (F.SEQ_CNT_COUNT 5)).workDone n
        | _, _ => s.workDone n
    | none => s

/-- The meaning of BUDGET_CUT (open points: DESIGN CHOICE, log 96). -/
def execBudgetCut (n : Fin 16) (s : State) : Host.Outcome State Fault Refusal := act s (s.budgetCut n.val)

/-- POSTMASTER_HANDOVER: the role of a retired Postmaster passes to the highest engine in service; it starts the management
program once its dispatch has ended (R371). -/
def State.handPost (s : State) : State :=
  match (List.range 16).find? fun n => s.isPost n && s.is (F.SEQ_PESTAT_RETIRED n),
      ((List.range 16).filter fun n => !s.is (F.SEQ_PESTAT_RETIRED n)).getLast? with
  | some old, some n =>
    let s := (s.put (F.SEQ_PESTAT_POST old) 0).put (F.SEQ_PESTAT_POST n) 1
    let s := match (s.pe n).staged with
      | some d =>
        let s := (s.setPe n { s.pe n with staged := none }).count (F.SEQ_CNT_COUNT 6)
        { s with seq := { s.seq with returned := d :: s.seq.returned } }
      | none => s
    if (s.pe n).work.isNone then s.manage n (s.get F.SEQ_BANK_PCUR) else s
  | _, _ => s

/-- The meaning of POSTMASTER_HANDOVER. -/
def execPostmasterHandover (s : State) : Host.Outcome State Fault Refusal := act s s.handPost

end Sys2Proof.Machine
end

