-- ==== Sys2Proof/Machine/Bar2.lean ====
section
/-!
DEFINITION. The device memories behind BAR2 (R483, R484): regions, the writes that a bank's or table's own rule refuses, and
reads and writes of bytes as the host, the Postmaster, a command and the boot make them.
-/
namespace Sys2Proof.Machine

/-- The regions of BAR2 (R483). -/
inductive Bar2Region where
  | fsqBank (b : Nat)
  | pe (n : Nat)
  | broadcast
  | shared
  | tables
  | cellar
  | journal
  | histogram
  deriving DecidableEq, Repr

/-- The region that a BAR2 offset lies in; none in a reserved range. -/
def bar2Region (a : Nat) : Option Bar2Region :=
  if a < 0x40000 then some (.fsqBank 0)
  else if a < 0x80000 then some (.fsqBank 1)
  else if a < 0x100000 then none
  else if a < 0x300000 then some (.pe ((a - 0x100000) / 0x20000))
  else if a < 0x320000 then some .broadcast
  else if a < 0x400000 then none
  else if a < 0x800000 then some .shared
  else if a < 0x1000000 then some .tables
  else if a < 0x1100000 then some .cellar
  else if a < 0x2000000 then none
  else if a < 0x2200000 then some .journal
  else if a < 0x8000000 then none
  else if a < 0x10000000 then some .histogram
  else none

/-- Regions that are read only. -/
def Bar2Region.readOnly : Bar2Region → Bool
  | .journal => true
  | .histogram => true
  | _ => false

/-- The region that n bytes from a lie in; none where they are none, cross a border or touch a reserved range (R484, R500). -/
def rangeRegion (a n : Nat) : Option Bar2Region :=
  match bar2Region a with
  | some r => if n ≠ 0 && bar2Region (a + n - 1) = some r then some r else none
  | none => none

/-- Sizes and alignments that BAR2 accepts (R484) (open points: DEDUCED, log 82). -/
def bar2Shape (a n : Nat) : Bool :=
  (n = 1) || (n = 2 && a % 2 = 0) || (n = 4 && a % 4 = 0) || (n = 8 && a % 8 = 0) || (8 < n && n % 4 = 0 && a % 4 = 0)

/-! ### Writes that a bank's or table's rule refuses -/

/-- Engine n runs from PE bank b. -/
def State.runsFrom (s : State) (n b : Nat) : Bool := (s.pe n).work.isSome && (s.pe n).eng.bank = b

/-- A write to PE bank b is refused in every engine's copy (R367, R368) (open points: DEDUCED, log 72). -/
def State.peBankHeld (s : State) (b : Nat) : Bool :=
  (s.get F.SEQ_BANK_PCUR = b && (List.range 16).any fun n => !(s.solo && s.isPost n) && s.runsFrom n b)
  || (s.is F.SEQ_BANK_PPENDV && s.get F.SEQ_BANK_PPEND = b)
  || s.pool.ctxs.any fun c => c.bank = b

/-- A write to an offset of engine n's local memory is refused: the bank it lies in is held, or the Postmaster runs from it
(R367, R368). -/
def State.localHeld (s : State) (n o : Nat) : Bool :=
  o < 0x10000 && (s.peBankHeld (o / 0x8000) || (s.solo && s.isPost n && s.runsFrom n (o / 0x8000)))

/-- A write to the broadcast window is refused (R367, R368). -/
def State.broadcastHeld (s : State) (o : Nat) : Bool := o < 0x10000 && s.peBankHeld (o / 0x8000)

/-- A write to FSQ bank b is refused (R367). -/
def State.fsqBankHeld (s : State) (b : Nat) : Bool :=
  (s.running && s.get F.SEQ_BANK_FCUR = b) || (s.is F.SEQ_BANK_FPENDV && s.get F.SEQ_BANK_FPEND = b)

/-- A Decanter set is in force, pending or latched (R198). -/
def State.setHeld (s : State) (x : Nat) : Bool :=
  s.get F.DEC_STAT_CUR = x || (s.is F.DEC_STAT_PEND && s.get F.DEC_STAT_PSET = x) || s.pool.ctxs.any fun c => c.set = some x

/-- A zone map is in force or pending (R230) (open points: DEDUCED, log 82). -/
def State.zoneHeld (s : State) (z : Nat) : Bool :=
  s.get F.PNT_ZSEL_CUR = z || (s.is F.PNT_ZSEL_PEND && s.pnt.zpend = z)

/-- An emitter-to-return map is in force or named by a MAP command issued (R161) (open points: DEDUCED, log 82). -/
def State.mapHeld (s : State) (m : Nat) : Bool :=
  s.get F.CTX_MAPSEL_CUR = m || (s.emi.tq.filterMap TCmd.mapNamed).contains m

/-- An offset of table memory whose table's rule refuses a write (R73, R161, R198, R230, R256, R281, R422). -/
def State.tableHeld (s : State) (a : Nat) : Bool :=
  let within : Nat → Nat → Bool := fun b n => b ≤ a && a < b + n
  (s.is F.EMI_DRCFG_EN && within 0x840800 (16 + 16 * 16))
  || [0, 1].any (fun x => within (setBase x) 0x400 && s.setHeld x)
  || [0, 1].any (fun z => within (0x880000 + 0x800 * z) 1040 && s.zoneHeld z)
  || (0x900000 ≤ a && a < 0xA00000 && s.mapHeld ((a - 0x900000) / 0x20000))
  || (inCal a && s.is F.CAL_STAT_LOADED)
  || (0x8A0000 ≤ a && a < 0x8A4000 && s.lawProtected a 1)
  || [0, 1].any fun t => within (tabBase t) (s.tabSize t) && s.tableLocked t

/-- A write to an offset is refused by the rule of its bank or table (R484) (open points: DEDUCED, log 82). -/
def State.refused (s : State) (a : Nat) : Bool := match bar2Region a with
  | some (.fsqBank b) => s.fsqBankHeld b
  | some (.pe n) => s.localHeld n (a - peBase n)
  | some .broadcast => s.broadcastHeld (a - 0x300000)
  | some .tables => s.tableHeld a
  | _ => false

/-! ### Bytes -/

/-- Where a written byte goes: nowhere, memory, the staging copy of the calibration region (R256), or every engine (R368). -/
inductive ByteDest where
  | refused | memory | staging | broadcast
  deriving DecidableEq, Repr

/-- Where a byte written to a BAR2 offset goes. -/
def State.byteDest (s : State) (a : Nat) : ByteDest :=
  if s.refused a then .refused
  else if inCal a then .staging
  else if bar2Region a = some .broadcast then .broadcast
  else .memory

/-- Bytes from an offset cut into runs that go to one place. -/
def cutRuns (dest : Nat → ByteDest) : Nat → List Byte → List (ByteDest × Nat × List Byte)
  | _, [] => []
  | a, b :: bs => match cutRuns dest (a + 1) bs with
    | (d, a', l) :: rest => if dest a = d then (d, a, b :: l) :: rest else (dest a, a, [b]) :: (d, a', l) :: rest
    | [] => [(dest a, a, [b])]

/-- One run written. A write to a Decanter set clears its VALID (R196). -/
def State.putRun (s : State) (r : ByteDest × Nat × List Byte) : State := match r with
  | (.refused, _, _) => s
  | (.memory, a, l) => (s.store a l).setTouched a l.length
  | (.staging, a, l) => s.stage a l
  | (.broadcast, a, l) => (List.range 16).foldl (fun s n =>
      if s.solo && s.isPost n then s else s.store (peBase n + (a - 0x300000)) l) s

/-- Bytes written from a BAR2 offset, each where it goes; refused ones are left out. -/
def State.putBar2 (s : State) (a : Nat) (bs : List Byte) : State := (cutRuns s.byteDest a bs).foldl State.putRun s

/-- Any byte of a range is refused. -/
def State.anyRefused (s : State) (a n : Nat) : Bool := (List.range n).any fun i => s.refused (a + i)

/-- The memory offsets that a byte written to a BAR2 offset goes to. -/
def State.destsOf (s : State) (a : Nat) : List Nat := match s.byteDest a with
  | .memory => [a]
  | .broadcast => ((List.range 16).filter fun n => !(s.solo && s.isPost n)).map fun n => peBase n + (a - 0x300000)
  | _ => []

/-- The words of memory that a write would change in part and that are uncorrectable: the write is not made there (R38)
(open points: DEDUCED, log 69). -/
def State.badParts (s : State) (a : Nat) (bs : List Byte) : List Nat :=
  (cutRuns s.byteDest a bs).flatMap fun r => (s.destsOf r.2.1).flatMap fun b =>
    (wordsOf b r.2.2.length).filter fun w => !covers b r.2.2.length w && !s.wordOk w

/-- A write through BAR2: made, or ignored as a whole; at a static table, what says whether it is locked is read first (R37, R38, R355, R422,
R484) (open points: DEDUCED, log 69). -/
def State.bar2Write (s : State) (src : Src) (a : Nat) (bs : List Byte) : State :=
  let s := if 0xB00000 ≤ a && a < 0xB20000 then (s.touchRange (tabBase ((a - 0xB00000) / 0x10000)) 2).descTouch else s
  match rangeRegion a bs.length with
  | some r =>
    if !bar2Shape a bs.length || r.readOnly || s.anyRefused a bs.length then s.ignore .bar2 (src = .postmaster) a
    else match s.badParts a bs with
      | [] => s.putBar2 a bs
      | ws => (ws.foldl State.touch s).ignore .bar2 (src = .postmaster) a
  | none => s.ignore .bar2 (src = .postmaster) a

/-- A byte whose contents on a read are not specified: the context directory and partial copies (R140)
(open points: DEDUCED, log 82). -/
def unspecified (a : Nat) : Bool := 0xF600000 ≤ a && a < 0x10000000

/-- The memory offset that a read of a BAR2 offset reaches: a read of the broadcast window returns PE0's word (R367). -/
def readAt (a : Nat) : Nat := if bar2Region a = some .broadcast then peBase 0 + (a - 0x300000) else a

/-- What n bytes from a BAR2 offset read as: corrected bytes, the stored bytes of an uncorrectable word as they stood at the read
(R37, R41), and free ones where they are unspecified (open points: DESIGN CHOICE, log 6). -/
def State.seenBytes (s : State) (a n : Nat) : List Byte :=
  let t := s.touchRange (readAt a) n
  (List.range n).map fun i => if unspecified (a + i) then (Config.freeWord (s.free + i)).setWidth 8 else t.byte (readAt a + i)

/-- The counter of free values moved past a read (open points: DESIGN CHOICE, log 6). -/
def State.drawRead (s : State) (a n : Nat) : State :=
  if unspecified a || unspecified (a + n - 1) then { s with free := s.free + n } else s

/-- The words that a read touches, with the outcome of each (R37, R40, R543) (open points: DEDUCED, log 82). -/
def State.readBar2 (s : State) (a n : Nat) : State := s.readAnyRange (readAt a) n

/-- A read through BAR2: corrected bytes, or the stored bytes of an uncorrectable word (R37, R40, R41); 0 where it is ignored
(R484). -/
def State.bar2Read (s : State) (src : Src) (a n : Nat) : State × List Byte :=
  if (rangeRegion a n).isSome && bar2Shape a n then
    ((s.readBar2 a n).drawRead a n, s.seenBytes a n)
  else (s.ignore .bar2 (src = .postmaster) a, List.replicate n 0#8)

/-- BAR2_READ (R41, R484). -/
def execBar2Read (src : Src) (off : BitVec 28) (len : Nat) (s : State) : Host.Outcome State Fault Refusal :=
  act s (if s.hears src then
      let r := s.bar2Read src off.toNat len
      { r.1 with lastRead := r.2 }
    else s.refusedRead)

/-- BAR2_WRITE (R484). -/
def execBar2Write (src : Src) (off : BitVec 28) (data : List Byte) (s : State) : Host.Outcome State Fault Refusal :=
  actBy src s (s.bar2Write src off.toNat data)

end Sys2Proof.Machine
end

