-- ==== Sys2Proof/Machine/Hash.lean ====
section
/-!
DEFINITION. SHA-256 and the verification of an ECDSA signature on P-256, which R522 names: the algorithms and the curve are those of
FIPS 180-4 and FIPS 186-4 (PRESUMED, log 14).
-/
namespace Sys2Proof.Machine

/-- A number from bytes, the first the highest. -/
def beNat (bs : List Byte) : Nat := bs.foldl (fun n b => 256 * n + b.toNat) 0

/-- A number as n bytes, the first the highest. -/
def beBytes (n v : Nat) : List Byte := (leBytes n v).reverse

/-! ### SHA-256 -/

/-- The eight words of a hash in progress. -/
structure Sha where
  a : Word
  b : Word
  c : Word
  d : Word
  e : Word
  f : Word
  g : Word
  h : Word
  deriving DecidableEq, Repr

/-- The hash before the first block (PRESUMED, log 14). -/
def Sha.init : Sha := ⟨0x6A09E667#32, 0xBB67AE85#32, 0x3C6EF372#32, 0xA54FF53A#32, 0x510E527F#32, 0x9B05688C#32, 0x1F83D9AB#32, 0x5BE0CD19#32⟩

/-- The constants of the 64 rounds (PRESUMED, log 14). -/
def shaRounds : List Word := [
  0x428A2F98#32, 0x71374491#32, 0xB5C0FBCF#32, 0xE9B5DBA5#32, 0x3956C25B#32, 0x59F111F1#32, 0x923F82A4#32, 0xAB1C5ED5#32,
  0xD807AA98#32, 0x12835B01#32, 0x243185BE#32, 0x550C7DC3#32, 0x72BE5D74#32, 0x80DEB1FE#32, 0x9BDC06A7#32, 0xC19BF174#32,
  0xE49B69C1#32, 0xEFBE4786#32, 0x0FC19DC6#32, 0x240CA1CC#32, 0x2DE92C6F#32, 0x4A7484AA#32, 0x5CB0A9DC#32, 0x76F988DA#32,
  0x983E5152#32, 0xA831C66D#32, 0xB00327C8#32, 0xBF597FC7#32, 0xC6E00BF3#32, 0xD5A79147#32, 0x06CA6351#32, 0x14292967#32,
  0x27B70A85#32, 0x2E1B2138#32, 0x4D2C6DFC#32, 0x53380D13#32, 0x650A7354#32, 0x766A0ABB#32, 0x81C2C92E#32, 0x92722C85#32,
  0xA2BFE8A1#32, 0xA81A664B#32, 0xC24B8B70#32, 0xC76C51A3#32, 0xD192E819#32, 0xD6990624#32, 0xF40E3585#32, 0x106AA070#32,
  0x19A4C116#32, 0x1E376C08#32, 0x2748774C#32, 0x34B0BCB5#32, 0x391C0CB3#32, 0x4ED8AA4A#32, 0x5B9CCA4F#32, 0x682E6FF3#32,
  0x748F82EE#32, 0x78A5636F#32, 0x84C87814#32, 0x8CC70208#32, 0x90BEFFFA#32, 0xA4506CEB#32, 0xBEF9A3F7#32, 0xC67178F2#32]

/-- The next word of the message schedule, from the sixteen before it (PRESUMED, log 14). -/
def shaNext (w : List Word) : Word :=
  let x := w.getD 1 0#32
  let y := w.getD 14 0#32
  (x.rotateRight 7 ^^^ x.rotateRight 18 ^^^ (x >>> 3)) + (y.rotateRight 17 ^^^ y.rotateRight 19 ^^^ (y >>> 10))
    + w.getD 0 0#32 + w.getD 9 0#32

/-- One round: the working words, and the sixteen words of the schedule from this round's on (PRESUMED, log 14). -/
def Sha.round (s : Sha × List Word) (k : Word) : Sha × List Word :=
  let v := s.1
  let ch := (v.e &&& v.f) ^^^ (~~~v.e &&& v.g)
  let maj := (v.a &&& v.b) ^^^ (v.a &&& v.c) ^^^ (v.b &&& v.c)
  let t := v.h + (v.e.rotateRight 6 ^^^ v.e.rotateRight 11 ^^^ v.e.rotateRight 25) + ch + k + s.2.headD 0#32
  let u := (v.a.rotateRight 2 ^^^ v.a.rotateRight 13 ^^^ v.a.rotateRight 22) + maj
  (⟨t + u, v.a, v.b, v.c, v.d + t, v.e, v.f, v.g⟩, s.2.tail ++ [shaNext s.2])

/-- A block of sixteen words taken into the hash (PRESUMED, log 14). -/
def Sha.block (s : Sha) (w : List Word) : Sha :=
  let v := (shaRounds.foldl Sha.round (s, w)).1
  ⟨s.a + v.a, s.b + v.b, s.c + v.c, s.d + v.d, s.e + v.e, s.f + v.f, s.g + v.g, s.h + v.h⟩

/-- The first n words of a byte string (PRESUMED, log 14). -/
def shaWords : Nat → List Byte → List Word
  | 0, _ => []
  | n + 1, m => BitVec.ofNat 32 (beNat (m.take 4)) :: shaWords n (m.drop 4)

/-- The first n blocks of sixteen words of a padded message (PRESUMED, log 14). -/
def shaBlocks : Nat → List Byte → List (List Word)
  | 0, _ => []
  | n + 1, m => shaWords 16 m :: shaBlocks n (m.drop 64)

/-- A message padded to whole blocks: a one bit, zeros, and its length in bits (PRESUMED, log 14). -/
def shaPad (m : List Byte) : List Byte :=
  m ++ [0x80#8] ++ List.replicate ((119 - m.length % 64) % 64) 0#8 ++ beBytes 8 (8 * m.length)

/-- The bytes of a hash. -/
def Sha.bytes (s : Sha) : List Byte := [s.a, s.b, s.c, s.d, s.e, s.f, s.g, s.h].flatMap fun w => beBytes 4 w.toNat

/-- SHA-256 of a byte string (R522) (PRESUMED, log 14). -/
def sha256 (m : List Byte) : List Byte := ((shaBlocks ((m.length + 72) / 64) (shaPad m)).foldl Sha.block Sha.init).bytes

/-! ### The curve P-256 -/

/-- The prime of the field (PRESUMED, log 14). -/
def p256 : Nat := 2 ^ 256 - 2 ^ 224 + 2 ^ 192 + 2 ^ 96 - 1

/-- The order of the base point (PRESUMED, log 14). -/
def n256 : Nat := 0xFFFFFFFF00000000FFFFFFFFFFFFFFFFBCE6FAADA7179E84F3B9CAC2FC632551

/-- The constant b of the curve y² = x³ - 3 x + b (PRESUMED, log 14). -/
def b256 : Nat := 0x5AC635D8AA3A93E7B3EBBD55769886BC651D06B0CC53B0F63BCE3C3E27D2604B

/-- A power modulo m, by the low k bits of the exponent. -/
def powMod (a e m k : Nat) : Nat := (List.range k).foldr (fun i r => let q := r * r % m; if bit e i then q * a % m else q) 1

/-- The inverse modulo a prime below 2^256; 0 of 0. -/
def invMod (a m : Nat) : Nat := powMod a (m - 2) m 256

/-- A point in Jacobian coordinates: x / z² and y / z³; the point at infinity where z is 0. -/
structure Pt where
  x : Nat
  y : Nat
  z : Nat
  deriving DecidableEq, Repr

/-- The point at infinity. -/
def Pt.zero : Pt := ⟨1, 1, 0⟩

/-- The base point (PRESUMED, log 14). -/
def Pt.base : Pt := ⟨0x6B17D1F2E12C4247F8BCE6E563A440F277037D812DEB33A0F4A13945D898C296,
  0x4FE342E2FE1A7F9B8EE7EB4A7C0F9E162BCE33576B315ECECBB6406837BF51F5, 1⟩

/-- A difference in the field. -/
def subP (a b : Nat) : Nat := (a + p256 - b % p256) % p256

/-- A point doubled (PRESUMED, log 14). -/
def Pt.double (p : Pt) : Pt :=
  if p.z = 0 then p
  else
    let zz := p.z * p.z % p256
    let yy := p.y * p.y % p256
    let s := 4 * p.x * yy % p256
    let m := 3 * (subP p.x zz * (p.x + zz)) % p256
    let x := subP (m * m) (2 * s)
    ⟨x, subP (m * subP s x) (8 * (yy * yy)), 2 * p.y * p.z % p256⟩

/-- The sum of two points (PRESUMED, log 14). -/
def Pt.add (p q : Pt) : Pt :=
  if p.z = 0 then q
  else if q.z = 0 then p
  else
    let pz := p.z * p.z % p256
    let qz := q.z * q.z % p256
    let u := p.x * qz % p256
    let h := subP (q.x * pz) u
    let s := p.y * (qz * q.z % p256) % p256
    let r := subP (q.y * (pz * p.z % p256)) s
    if h = 0 then (if r = 0 then p.double else Pt.zero)
    else
      let hh := h * h % p256
      let k := h * hh % p256
      let v := u * hh % p256
      let x := subP (r * r) (k + 2 * v)
      ⟨x, subP (r * subP v x) (s * k), h * (p.z * q.z % p256) % p256⟩

/-- A multiple of a point, by a factor below 2^256 (open points: PRESUMED, log 14). -/
def Pt.times (k : Nat) (p : Pt) : Pt :=
  (List.range 256).foldl (fun r i => let d := r.double; if bit k (255 - i) then d.add p else d) Pt.zero

/-- The affine x of a point that is not at infinity. -/
def Pt.affineX (p : Pt) : Nat := p.x * invMod (p.z * p.z % p256) p256 % p256

/-- A point is a public key: its coordinates are in the field and it lies on the curve (PRESUMED, log 14). -/
def keyPoint (x y : Nat) : Bool := x < p256 && y < p256 && y * y % p256 = subP (x * x * x + b256) (3 * x)

/-- An ECDSA signature over a hash of 32 bytes holds under a key: r and s, X and Y, of 32 bytes each (R522) (PRESUMED, log 14). -/
def ecdsaVerify (key hash signature : List Byte) : Bool :=
  let x := beNat (key.take 32)
  let y := beNat (key.drop 32)
  let r := beNat (signature.take 32)
  let s := beNat (signature.drop 32)
  if key.length = 64 && signature.length = 64 && 1 ≤ r && r < n256 && 1 ≤ s && s < n256 && keyPoint x y then
    let w := invMod s n256
    let q := (Pt.base.times (beNat hash * w % n256)).add (Pt.times (r * w % n256) ⟨x, y, 1⟩)
    q.z ≠ 0 && q.affineX % n256 = r
  else false

end Sys2Proof.Machine
end

