-- ==== Sys2Proof/Machine/Stream.lean ====
section
/-!
DEFINITION. The stream link (13_stream_link.md): lanes and presets, capability messages, lane reports, electrical idle, frames
received and forwarded, transmission, credits, loss records and the management rings.
-/
namespace Sys2Proof.Machine

/-! ### Lanes -/

/-- CRC-8, polynomial 0x07, initial value 0 (R443, R453). -/
def crc8Of (bs : List Byte) : Byte :=
  bs.foldl (fun c b => (List.range 8).foldl (fun (c : Byte) _ => if c.msb then (c <<< 1) ^^^ 0x07#8 else c <<< 1) (c ^^^ b)) 0#8

/-- A number from a list of bits by place. -/
def maskOf (n : Nat) (p : Nat → Bool) : Nat := ((List.range n).map fun i => if p i then 2 ^ i else 0).sum

/-- A TX lane. -/
def State.txLane (s : State) (l : Nat) : TxLane := s.stl.tx.getD l ⟨.pll, Preset.builtin, none, none⟩

/-- A TX lane changed. -/
def State.modTx (s : State) (l : Nat) (f : TxLane → TxLane) : State :=
  { s with stl := { s.stl with tx := s.stl.tx.setIfInBounds l (f (s.txLane l)) } }

/-- An RX lane. -/
def State.rxLane (s : State) (l : Nat) : RxLane := s.stl.rx.getD l ⟨Preset.builtin, [], 0, false⟩

/-- An RX lane changed. -/
def State.modRx (s : State) (l : Nat) (f : RxLane → RxLane) : State :=
  { s with stl := { s.stl with rx := s.stl.rx.setIfInBounds l (f (s.rxLane l)) } }

/-- Stages of an RX lane as STL_LANES.RXST codes them. -/
abbrev rxWait : Nat := 0
abbrev rxTrain : Nat := 1
abbrev rxLock : Nat := 2
abbrev rxCap : Nat := 3
abbrev rxActive : Nat := 4
abbrev rxIdle : Nat := 5

/-- The field of an RX lane's stage. -/
def rxField (l : Nat) : Fld := ⟨F.STL_LANES_RXST.off, 4 * l, 4⟩

/-- The stage of an RX lane. -/
def State.rxStage (s : State) (l : Nat) : Nat := s.get (rxField l)

/-- A TX lane is in use (R448). -/
def State.txUse (s : State) (l : Nat) : Bool :=
  (s.txLane l).stage = .active && !bit (s.get F.STL_LANES_TXDOWN) l

/-- The BAR2 offset of the preset table (R445). -/
def presetBase : Nat := 0xB40000

/-- Entry i of the preset table is in order (R446). -/
def State.presetOk (s : State) (i : Nat) : Bool :=
  let a := presetBase + 16 + 8 * i
  s.num a 1 < 16 && s.num (a + 1) 1 < 32 && s.num a 1 + s.num (a + 1) 1 ≤ 40 && s.num (a + 2) 1 < 8 && s.num (a + 3) 1 < 16
    && s.num (a + 4) 1 < 4 && s.num (a + 5) 3 = 0

/-- The preset table is valid (R446); a word that cannot be read makes it invalid (R543). -/
def State.presetsValid (s : State) : Bool :=
  let n := s.num presetBase 1
  let sel := s.num (presetBase + 2) 4
  1 ≤ n && n ≤ 16 && s.num (presetBase + 1) 1 = 0 && s.num (presetBase + 6) 10 = 0 && s.rangeOk presetBase (16 + 8 * n)
    && (List.range 8).all (fun k => bits sel (4 * k) 4 < n) && (List.range n).all s.presetOk

/-- The preset that nibble k of TXSEL and RXSEL names (open points: DEDUCED, log 81). -/
def State.presetAt (s : State) (k : Nat) : Preset :=
  let i := bits (s.num (presetBase + 2) 4) (4 * k) 4
  let a := presetBase + 16 + 8 * i
  ⟨some i, s.num a 1, s.num (a + 1) 1, s.num (a + 2) 1, s.num (a + 3) 1, s.num (a + 4) 1⟩

/-- A lane reads the preset table at the start of a TRAIN stage: nibble k (R446). -/
def State.readPreset (s : State) (k : Nat) : State × Preset :=
  let s := s.touchRange presetBase 16
  let s := s.touchRange presetBase (16 + 8 * min 16 (s.num presetBase 1))
  if s.presetsValid then (s, s.presetAt k) else (s.count (F.STL_CNT_COUNT 12), Preset.builtin)

/-- Records that a full buffer held back meet it again when the port stops being ACTIVE, and are dropped (R472). -/
def State.dropHeld (s : State) (vc : Nat) : State :=
  let h := s.stl.held.getD vc []
  let s := { s with stl := { s.stl with held := s.stl.held.setIfInBounds vc [] } }
  h.foldl (fun s it => s.handOn vc it) s

/-- Low 32 bits of device time. -/
def State.stamp (s : State) : Nat := s.dt % 2 ^ 32

/-- A LOSS record (R473). Records of VC2 cannot travel on VC2 (R454): they go on VC3 (open points: DEDUCED, log 78). -/
def State.sendLoss (s : State) (l : Loss) : State :=
  s.handOn (if l.vc = 2 then 3 else l.vc) (Item.of (leBytes 1 8 ++ leBytes 1 l.cause ++ leBytes 1 l.vc ++ leBytes 1 0
    ++ leBytes 2 (s.get F.FLE_UID_UID) ++ leBytes 2 l.src ++ leBytes 4 l.frames ++ leBytes 4 l.items ++ leBytes 4 l.first
    ++ leBytes 4 l.last ++ leBytes 4 0 ++ leBytes 4 s.stamp))

/-- The losses that pass a test sent, each by one record. -/
def State.sendLosses (s : State) (p : Loss → Bool) : State :=
  let l := s.stl.losses.filter p
  l.foldl State.sendLoss { s with stl := { s.stl with losses := s.stl.losses.filter fun x => !p x } }

/-- The transmit port becomes ACTIVE: CMODE takes effect, GRANT and USED are 0, LINKDOWN losses are sent (R448, R469, R473). -/
def State.portUp (s : State) : State :=
  let s := (((s.put (F.STL_GRANT_GRANT 0) 0).put (F.STL_GRANT_GRANT 1) 0).put (F.STL_USED_USED 0) 0).put (F.STL_USED_USED 1) 0
  let s := { s with stl := { s.stl with granted := s.is F.STL_CFG_CMODE, grants := Vector.replicate 2 [], lastTx := s.dt } }
  ((s.put F.STL_STAT_TXST 1).setStat F.SYS_STAT_STLUP true).sendLosses fun l => l.cause = 1

/-- The transmit port stops being ACTIVE (R448, R472) (open points: DEDUCED, log 81). -/
def State.portDown (s : State) : State :=
  [0, 1, 3].foldl State.dropHeld ((s.put F.STL_STAT_TXST 0).setStat F.SYS_STAT_STLUP false)

/-- STL_LANES.TXUSE and STL_STAT.TXST follow the lanes (R448). -/
def State.showTx (s : State) : State :=
  let use := maskOf 4 s.txUse
  let s := s.put F.STL_LANES_TXUSE use
  if use ≠ 0 && !s.txActive then s.portUp else if use = 0 && s.txActive then s.portDown else s

/-- A TX lane enters TRAIN: it reads its preset and sends TS blocks (R440, R446). The number of the built-in preset is not
stated. -/
def State.txTrain (s : State) (l : Nat) : State :=
  let r := s.readPreset l
  let s := r.1.modTx l fun x => { x with stage := .train, preset := r.2 }
  match r.2.index with
  | some i => s.out (.train l i)
  | none => s.draw.out (.train l (s.fresh.toNat % 256))

/-- A LANESTAT frame to the upstream partner (R447); a report that still waits gives way to the new one
(open points: DEDUCED, log 81). -/
def State.laneReport (s : State) : State :=
  if !s.is F.STL_STAT_UPV then s
  else
    let act := maskOf 4 fun l => s.rxStage l = rxActive || s.rxStage l = rxIdle
    let train := maskOf 4 fun l => s.rxStage l ≠ rxWait
    let it : Item := { Item.of (leBytes 1 act ++ leBytes 1 train ++ leBytes 2 (s.get F.FLE_UID_UID) ++ leBytes 4 0) with
      entered := s.dt }
    { s with stl := { s.stl with bufs := s.stl.bufs.setIfInBounds 2 [it] } }.showBuf 2

/-- An RX lane changes stage, with a lane report (R441, R447). -/
def State.rxTo (s : State) (l st : Nat) : State :=
  let s := if st = rxTrain then
      let r := s.readPreset (4 + l)
      r.1.modRx l fun x => { x with preset := r.2 }
    else s
  ((s.modRx l fun x => { x with cap := [], run := 0 }).put (rxField l) st).laneReport

/-- The capability message of a lane (R443) (open points: DESIGN CHOICE, log 102). -/
def State.capMsg (s : State) (l : Nat) : List Byte :=
  let m := leBytes 1 1 ++ leBytes 1 0 ++ leBytes 2 (s.get F.FLE_UID_UID) ++ leBytes 1 (l + 16 * s.get F.STL_LANES_TXUSE)
    ++ leBytes 1 (1 + 2 * s.get F.STL_CFG_EIEN + 4 * b01 s.solo + 8 * b01 s.stl.granted) ++ leBytes 2 4096
    ++ leBytes 2 (64 * s.get F.STL_EI_FEB) ++ leBytes 8 s.serial ++ leBytes 5 0
  m ++ [crc8Of m]

/-- A CAP message sent on a lane (open points: DEDUCED, log 81). -/
def State.sendCap (s : State) (l : Nat) : State := s.out (.cap l (s.capMsg l))

/-- LANE_PLL_LOCK: a lane goes from PLL to DETECT (R440). -/
def execLanePllLock (l : Fin 4) (s : State) : Host.Outcome State Fault Refusal :=
  act s (if (s.txLane l).stage = .pll && !s.is F.TBS_STAT_SLEEP then s.modTx l fun x => { x with stage := .detect } else s)

/-- RECEIVER_DETECT: a lane in DETECT tests for the partner's termination; in SOLO it leaves once the presets are placed (R440,
R523). -/
def execReceiverDetect (l : Fin 4) (found : Bool) (s : State) : Host.Outcome State Fault Refusal :=
  act s (if (s.txLane l).stage ≠ .detect then s
    else if !found then
      ((s.put ⟨F.STL_LANES_TXDET.off, F.STL_LANES_TXDET.lo + l, 1⟩ 0).count (F.STL_CNT_COUNT 10))
    else
      let s := s.put ⟨F.STL_LANES_TXDET.off, F.STL_LANES_TXDET.lo + l, 1⟩ 1
      if s.solo && s.stl.presetsWait then s else s.txTrain l)

/-- TRAIN_END: a lane goes to ANNOUNCE and sends the first of its CAP messages (R440, R443). -/
def execTrainEnd (l : Fin 4) (s : State) : Host.Outcome State Fault Refusal :=
  act s (if (s.txLane l).stage = .train then (s.modTx l fun x => { x with stage := .announce }).sendCap l else s)

/-- ANNOUNCE_END: a lane becomes ACTIVE (R440, R448). -/
def execAnnounceEnd (l : Fin 4) (t : Nat) (s : State) : Host.Outcome State Fault Refusal :=
  act s (let s := s.at t
    if (s.txLane l).stage = .announce then (s.modTx l fun x => { x with stage := .active }).showTx else s)

/-- CAP_SEND: a lane in ANNOUNCE sends the next of its CAP messages back to back, an ACTIVE lane one between frames (R440). In electrical
idle the lanes are not driven (open points: DEDUCED, log 81). -/
def execCapSend (l : Fin 4) (s : State) : Host.Outcome State Fault Refusal :=
  act s (if (s.txLane l).stage = .announce then s.sendCap l
    else if (s.txLane l).stage = .active && s.get F.STL_STAT_TXST ≠ 2 && (s.txLane l).cur.isNone then
    let s := s.sendCap l
    { s with stl := { s.stl with lastTx := s.dt } }
  else s)

/-- RX_ADAPTED: a lane in TRAIN seeks block lock (R441). -/
def execRxAdapted (l : Fin 4) (s : State) : Host.Outcome State Fault Refusal :=
  act s (if s.rxStage l = rxTrain then s.rxTo l rxLock else s)

/-- BLOCK_LOCK: a lane in LOCK goes to CAP, swapped legs found and corrected; one that waits after EIDLE is ACTIVE again (R438,
R441, R451, R582) (open points: DESIGN CHOICE, log 108). -/
def execBlockLock (l : Fin 4) (s : State) : Host.Outcome State Fault Refusal :=
  act s (if s.rxStage l = rxLock then (s.modRx l fun x => { x with swapped := Config.legsSwapped l }).rxTo l rxCap
    else if s.rxStage l = rxIdle then s.put (rxField l) rxActive else s)

/-- BLOCK_LOCK_LOSS: an ACTIVE lane returns to TRAIN (R441). -/
def execBlockLockLoss (l : Fin 4) (s : State) : Host.Outcome State Fault Refusal :=
  act s (if s.rxStage l = rxActive then s.rxTo l rxTrain else s)

/-- SIGNAL_LOSS: an ACTIVE lane returns to TRAIN (R441). -/
def execSignalLoss (l : Fin 4) (s : State) : Host.Outcome State Fault Refusal :=
  act s (if s.rxStage l = rxActive then s.rxTo l rxTrain else s)

/-- RX_STAGE_TIMEOUT: a stage reaches its limit (R441). -/
def execRxStageTimeout (l : Fin 4) (s : State) : Host.Outcome State Fault Refusal :=
  act s (let n := s.count (F.STL_CNT_COUNT 9)
    if s.rxStage l = rxTrain then n.rxTo l rxWait
    else if s.rxStage l = rxLock || s.rxStage l = rxCap then n.rxTo l rxTrain else s)

/-- EIDLE_RECEIVE: an ACTIVE lane holds its adaptation and waits (R451). -/
def execEidleReceive (l : Fin 4) (s : State) : Host.Outcome State Fault Refusal :=
  act s (if s.rxStage l = rxActive then s.put (rxField l) rxIdle else s)

/-- EIDLE_RELOCK_TIMEOUT: the lane returns to TRAIN (R451). -/
def execEidleRelockTimeout (l : Fin 4) (s : State) : Host.Outcome State Fault Refusal :=
  act s (if s.rxStage l = rxIdle then s.rxTo l rxTrain else s)

/-- A capability message is valid (R444). -/
def capValid (m : List Byte) : Bool :=
  m.length = 24 && crc8Of (m.take 23) = m.getD 23 0#8 && hdrField m 0 1 = 1 && hdrField m 6 2 = 4096 && hdrField m 1 1 < 2

/-- The upstream partner that a capability message names: accepted, a change counted (R444)
(open points: DESIGN CHOICE, log 10). -/
def State.acceptCap (s : State) (m : List Byte) : State :=
  let uid := hdrField m 2 2 % 2048
  let gw := hdrField m 1 1 = 1
  let ser := hdrField m 10 8
  let known := s.is F.STL_STAT_UPV
  let same := known && s.get F.STL_STAT_UPUID = uid && s.is F.STL_STAT_UPGW = gw && s.stl.upSerial = ser
  let s := { s with stl := { s.stl with upFeb := hdrField m 8 2, upSerial := ser } }
  if same then s
  else
    let s := ((s.putB F.STL_STAT_UPGW gw).put F.STL_STAT_UPUID uid).put F.STL_STAT_UPV 1
    if known then s.count (F.STL_CNT_COUNT 12) else s

/-- CAP_MESSAGE: a capability message is received (R441, R443, R444) (open points: DEDUCED, log 79). -/
def execCapMessage (l : Fin 4) (msg : Vector Byte 24) (s : State) : Host.Outcome State Fault Refusal :=
  act s (let st := s.rxStage l
    let m := msg.toList
    if st ≠ rxCap && st ≠ rxActive then s
    else if !capValid m then s.modRx l fun x => { x with cap := [], run := 0 }
    else
      let x := s.rxLane l
      let run := if x.cap = m then x.run + 1 else 1
      let s := (s.modRx l fun x => { x with cap := m, run := run }).acceptCap m
      if st = rxCap && 3 ≤ run then s.rxTo l rxActive else s)

/-- LANESTAT_SEND: the receive port's timer (R447). -/
def execLanestatSend (s : State) : Host.Outcome State Fault Refusal := act s s.laneReport

/-- A LANESTAT report of the downstream partner: RX lanes in ACTIVE (R448). A lane that it takes out of use trains again
(open points: DEDUCED, log 81). -/
def State.takeLanestat (s : State) (active : Nat) : State :=
  let leave := (List.range 4).filter fun l => s.txUse l && !bit active l
  let s := leave.foldl State.txTrain s
  (s.put F.STL_LANES_TXDOWN (maskOf 4 fun l => !bit active l)).showTx

/-- LANESTAT: a report of the downstream partner (R448) (open points: DEDUCED, log 79). -/
def execLanestat (active : BitVec 4) (t : Nat) (s : State) : Host.Outcome State Fault Refusal :=
  act s ((s.at t).takeLanestat active.toNat)

/-- Every TX lane restarts at PLL, as R440 has it, and every RX lane at WAIT (R440, R441) (open points: DEDUCED, log 81). -/
def State.retrain (s : State) : State :=
  if s.is F.TBS_STAT_SLEEP then s
  else
    let s := (List.range 4).foldl (fun s l => s.modTx l fun x => { x with stage := .pll }) s
    ((List.range 4).foldl (fun s l => (s.modRx l fun x => { x with cap := [], run := 0 }).put (rxField l) rxWait) s).laneReport.showTx

/-- A write of STL_CTRL. -/
def State.stlCtrl (s : State) (v : Word) : State := if v.getLsbD 0 then s.retrain else s

/-- RETRAIN: a write of STL_CTRL.RETRAIN = 1 (R440). -/
def execRetrain (src : Src) (s : State) : Host.Outcome State Fault Refusal := actBy src s s.retrain

/-! ### Frames waiting to be sent -/

/-- The own address. -/
def State.uid (s : State) : Nat := s.get F.FLE_UID_UID

/-- Credits that a payload takes (R469). -/
def credits (len : Nat) : Nat := (len + 32 + 63) / 64

/-- The index of a channel's credit registers. -/
def creditIx (vc : Nat) : Nat := if vc = 3 then 1 else 0

/-- Whether an own frame of a channel can take credit for a payload (R469). -/
def State.hasCredit (s : State) (vc len : Nat) : Bool :=
  !s.stl.granted || (vc ≠ 0 && vc ≠ 3)
    || ((credits len : Nat) : Int) ≤ sint 32 (s.get (F.STL_GRANT_GRANT (creditIx vc)) + 2 ^ 32 - s.get (F.STL_USED_USED (creditIx vc)))

/-- The payload limit of a RECORDS frame (R454). -/
def recordLimit (vc : Nat) : Nat := if vc = 1 then 256 else 4096

/-- The records at the head of a list that one frame takes: up to the limit and the credit, and not past a place that waits for
a regenerated record (R465, R469, R548). -/
def State.takeRecords (s : State) (vc : Nat) : Nat → List Item → List Item
  | _, [] => []
  | n, it :: l =>
    let n' := n + it.data.length
    if it.hole || recordLimit vc < n' || !s.hasCredit vc n' then [] else it :: s.takeRecords vc n' l

/-- Where a frame comes from. -/
inductive FrameSrc where
  | lanestat
  | mtx
  /-- Records at the head of the stream buffer. -/
  | records
  /-- Records of a job that goes uncompressed. -/
  | plain (id : Nat)
  /-- A compressed job. -/
  | job (id : Nat)
  | forward
  deriving DecidableEq, Repr

/-- A frame that could be chosen: its source, when it became ready, its payload bytes. -/
structure TxCand where
  src : FrameSrc
  ready : Nat
  len : Nat
  deriving DecidableEq, Repr

/-- When the credit for a payload became available: the first grant that covers it; 0 where none is taken (R464, R469)
(open points: DEDUCED, log 80). -/
def State.creditAt (s : State) (vc len : Nat) : Nat :=
  if s.stl.granted && (vc = 0 || vc = 3) then
    let k := creditIx vc
    match (s.stl.grants.getD k []).find? fun g =>
        ((credits len : Nat) : Int) ≤ sint 32 (g.2 + 2 ^ 32 - s.get (F.STL_USED_USED k)) with
    | some g => g.1
    | none => 0
  else 0

/-- The own frame that records at a head would make (open points: DEDUCED, log 80). -/
def State.recordCand (s : State) (vc at' : Nat) (src : FrameSrc) (l : List Item) : Option TxCand :=
  match s.takeRecords vc 0 l with
  | [] => none
  | it :: r => some ⟨src, max (max it.entered at') (s.creditAt vc it.data.length), ((it :: r).map fun i => i.data.length).sum⟩

/-- The own frame that is ready on VC0, VC1 or VC3 (R425, R464, R465). -/
def State.ownCand (s : State) (vc : Nat) : Option TxCand :=
  match s.stl.jobs.getD vc [] with
  | [] => s.recordCand vc 0 .records (s.stl.bufs.getD vc [])
  | j :: _ => match j.state with
    | .ready p => if s.hasCredit vc p.length then some ⟨.job j.id, max j.readyAt (s.creditAt vc p.length), p.length⟩ else none
    | .plain => s.recordCand vc j.readyAt (.plain j.id) j.items
    | _ => none

/-- The BAR2 offset of management slot n of a ring. -/
def mgmtSlot (base n : Nat) : Nat := base + 0x1020 * n

/-- The transmit ring has a slot that waits (R475). -/
def State.mtxWaits (s : State) : Bool :=
  s.is F.STL_MTXIDX_SIZE && s.get F.STL_MTXIDX_CONS ≠ s.get F.STL_MTXIDX_PROD && !s.stl.mtxBusy

/-- The slot at the head of the transmit ring. -/
def State.mtxHead (s : State) : Nat := mgmtSlot (s.get F.STL_MTXBASE_BASE) (s.get F.STL_MTXIDX_CONS)

/-- An address that R453 does not reserve. -/
def addrOk (a : Nat) : Bool := a ≤ 0x800 || a = 0xFFF

/-- The head slot can be sent (R475, R543). -/
def State.mtxOk (s : State) : Bool :=
  let a := s.mtxHead
  let len := s.num a 2
  s.rangeOk a 32 && 1 ≤ len && len ≤ 4096 && addrOk (s.num (a + 2) 2) && s.rangeOk (a + 32) len

/-- CONS of the transmit ring advances (open points: DEDUCED, log 80). -/
def State.mtxNext (s : State) : State :=
  let s := s.put F.STL_MTXIDX_CONS ((s.get F.STL_MTXIDX_CONS + 1) % max 1 (s.get F.STL_MTXIDX_SIZE))
  { s with stl := { s.stl with mtxAt := s.dt } }

/-- Slots that cannot be sent are skipped (R475); n bounds them. -/
def State.mtxSkip (s : State) : Nat → State
  | 0 => s
  | n + 1 =>
    if !s.mtxWaits then s
    else
      let a := s.mtxHead
      let s := s.touchRange a 32
      let s := if s.rangeOk a 32 && 1 ≤ s.num a 2 && s.num a 2 ≤ 4096 then s.touchRange (a + 32) (s.num a 2) else s
      if s.mtxOk then s else State.mtxSkip (s.count (F.STL_CNT_COUNT 11)).mtxNext n

/-- Own frames ready on VC2 (R447, R475). -/
def State.ownCand2 (s : State) : List TxCand :=
  (match s.stl.bufs.getD 2 [] with
    | [] => []
    | it :: _ => [⟨.lanestat, it.entered, it.data.length⟩])
  ++ (if s.mtxWaits then [⟨.mtx, s.stl.mtxAt, s.num s.mtxHead 2⟩] else [])

/-- The earlier of two frames; the first where both are ready at once. -/
def TxCand.first (a b : TxCand) : TxCand := if b.ready < a.ready then b else a

/-- The frame that goes next on a channel, a forwarded frame before an own one ready at the same instant (R464)
(open points: DEDUCED, log 80). -/
def State.cand (s : State) (vc : Nat) : Option TxCand :=
  let own : List TxCand := if vc = 2 then s.ownCand2 else (s.ownCand vc).toList
  let all : List TxCand := (match s.stl.fwd.getD vc [] with
    | [] => []
    | f :: _ => [(⟨.forward, f.ready, f.payload.length⟩ : TxCand)]) ++ own
  match all with
  | [] => none
  | c :: l => some (l.foldl TxCand.first c)

/-- A duration in whole microseconds, rounded up (open points: DEDUCED, log 80). -/
def usUp (d : Nat) : Nat := (d + 1599) / 1600

/-- AGE of a frame at its first block (R458, R461) (open points: DEDUCED, log 80). -/
def Frame.ageAt (f : Frame) (t : Nat) : Nat := min 65535 (f.age + usUp (t - f.since))

/-- A forwarded VC0 or VC3 frame is past the merge horizon, or its age is not known (R459). -/
def State.tooOld (s : State) (f : Frame) (t : Nat) : Bool :=
  f.forwarded && (f.vc = 0 || f.vc = 3) && (s.get F.STL_HOR_HORIZON < f.ageAt t || f.ageAt t = 65535)

/-- A forwarded frame discarded at the horizon (R459, R473). -/
def State.dropOld (s : State) (f : Frame) : State := (s.count (F.STL_CNT_COUNT 4)).lose 3 f.vc f.src 1 f.payload.length

/-- The first forwarded frame of a channel taken. -/
def State.popFwd (s : State) (vc : Nat) : State :=
  { s with stl := { s.stl with fwd := s.stl.fwd.setIfInBounds vc (s.stl.fwd.getD vc []).tail } }

/-- The candidate of a channel, forwarded frames that are too old discarded as they are chosen; n bounds them. -/
def State.freshCand (s : State) (vc : Nat) : Nat → State × Option TxCand
  | 0 => (s, s.cand vc)
  | n + 1 => match s.cand vc with
    | some c =>
      match c.src, s.stl.fwd.getD vc [] with
      | .forward, f :: _ => if s.tooOld f s.dt then ((s.popFwd vc).dropOld f).freshCand vc n else (s, some c)
      | _, _ => (s, some c)
    | none => (s, none)

/-- Deficits and turn of VC0 and VC3 (R464); n turns (open points: DEDUCED, log 80). -/
def State.roundRobin (s : State) : Nat → State × Option (Nat × TxCand)
  | 0 => (s, none)
  | n + 1 =>
    let vc := if s.stl.turn3 then 3 else 0
    let k := creditIx vc
    let r := s.freshCand vc (s.stl.fwd.getD vc []).length
    let s := r.1
    let pass := fun (s : State) => { s with stl := { s.stl with turn3 := !s.stl.turn3, turnNew := true } }
    match r.2 with
    | none => (pass { s with stl := { s.stl with deficit := s.stl.deficit.setIfInBounds k 0 } }).roundRobin n
    | some c =>
      let q := 4096 * (if k = 0 then s.get F.STL_WRR_Q0 else s.get F.STL_WRR_Q3)
      let d := s.stl.deficit.getD k 0 + (if s.stl.turnNew then q else 0)
      if c.len ≤ d then
        ({ s with stl := { s.stl with deficit := s.stl.deficit.setIfInBounds k (d - c.len), turnNew := false } }, some (vc, c))
      else (pass { s with stl := { s.stl with deficit := s.stl.deficit.setIfInBounds k d } }).roundRobin n

/-- The frame that a free lane starts (R464) (open points: DEDUCED, log 80). -/
def State.choose (s : State) : State × Option (Nat × TxCand) :=
  match s.cand 1 with
  | some c => (s, some (1, c))
  | none => match s.cand 2 with
    | some c => (s, some (2, c))
    | none => s.roundRobin 4

/-- An own frame of RECORDS or PRESSJOB, addressed to GATEWAY (R454, R461). Records held across a sleep give AGE 65,535 (R530)
(open points: DEDUCED, log 80). -/
def State.ownFrame (s : State) (vc kind : Nat) (payload : List Byte) (items : List Item) (since : Nat) : Frame :=
  ⟨vc, kind, s.uid, 0x800, s.get F.STL_CFG_TTL, if items.any fun i => i.slept then 65535 else 0, payload, (jobCrc payload).toNat,
    since, 0, false, items, false⟩

/-- The oldest entry among items. -/
def oldest (l : List Item) (t : Nat) : Nat := l.foldl (fun m i => min m i.entered) t

/-- An own frame takes its credit (R469). -/
def State.spend (s : State) (vc len : Nat) : State :=
  if s.stl.granted && (vc = 0 || vc = 3) then
    let k := creditIx vc
    let s := s.put (F.STL_USED_USED k) (s.get (F.STL_USED_USED k) + credits len)
    let l := (s.stl.grants.getD k []).filter fun g => 0 < sint 32 (g.2 + 2 ^ 32 - s.get (F.STL_USED_USED k))
    { s with stl := { s.stl with grants := s.stl.grants.setIfInBounds k l } }
  else s

/-- The buffer words that a chosen frame takes are read (R543). -/
def State.readFor (s : State) (vc : Nat) (c : TxCand) : State := match c.src with
  | .records => s.readHead vc (s.takeRecords vc 0 (s.stl.bufs.getD vc [])).length
  | .plain id => s.readJob vc id
  | .job id => s.readJob vc id
  | .lanestat => s.readHead 2 1
  | .forward => s
  | .mtx => s

/-- A chosen frame formed, and taken from where it waited (R465, R475); none where the reads left nothing to send. -/
def State.formFrame (s : State) (vc : Nat) (c : TxCand) : State × Option Frame :=
  let s := s.readFor vc c
  match c.src with
  | .forward => match s.stl.fwd.getD vc [] with
    | f :: _ => (s.popFwd vc, some f)
    | [] => (s, none)
  | .lanestat => match s.stl.bufs.getD 2 [] with
    | it :: l =>
      let dest := if s.is F.STL_STAT_UPGW then 0x800 else s.get F.STL_STAT_UPUID
      ({ s with stl := { s.stl with bufs := s.stl.bufs.setIfInBounds 2 l } }.showBuf 2,
        some { s.ownFrame 2 4 it.data [] it.entered with dest := dest })
    | [] => (s, none)
  | .mtx =>
    let a := s.mtxHead
    ({ s with stl := { s.stl with mtxBusy := true } },
      some { s.ownFrame 2 2 (s.bytes (a + 32) (s.num a 2)) [] s.stl.mtxAt with dest := s.num (a + 2) 2, mtx := true })
  | .records =>
    let b := s.stl.bufs.getD vc []
    let l := s.takeRecords vc 0 b
    let f := s.ownFrame vc 0 (l.flatMap fun i => i.data) l (oldest l s.dt)
    if l.isEmpty then (s, none)
    else (((s.setBuf vc (b.drop l.length)).spend vc f.payload.length).showBuf vc, some f)
  | .plain id => match (s.stl.jobs.getD vc []).find? fun j => j.id = id with
    | some j =>
      let l := s.takeRecords vc 0 j.items
      let f := s.ownFrame vc 0 (l.flatMap fun i => i.data) l (oldest l s.dt)
      if l.isEmpty then (s, none)
      else
        let s := if l.length = j.items.length then s.dropJob vc id else s.modJob vc id fun j => { j with items := j.items.drop l.length }
        ((s.spend vc f.payload.length).showBuf vc, some f)
    | none => (s, none)
  | .job id => match (s.stl.jobs.getD vc []).find? fun j => j.id = id with
    | some j => match j.state with
      | .ready p =>
        let f := s.ownFrame vc 1 p j.items (oldest j.items s.dt)
        ((((s.dropJob vc id).spend vc c.len).showBuf vc).count (F.PRS_CNT_COUNT 0), some f)
      | _ => (s, none)
    | none => (s, none)

/-- The header of a frame at its first block (R453, R458, R461) (open points: DESIGN CHOICE, log 102). -/
def Frame.header (f : Frame) (seq t : Nat) : List Byte :=
  let h := leBytes 1 (f.vc + 4 * f.kind) ++ leBytes 2 f.payload.length ++ leBytes 2 seq
    ++ leBytes 1 (if f.forwarded then f.ttl - 1 else f.ttl) ++ leBytes 1 0 ++ leBytes 2 f.src ++ leBytes 2 f.dest
    ++ leBytes 2 (f.ageAt t) ++ leBytes 1 0
  h ++ [crc8Of h]

/-- A frame's first block goes out on a lane: SEQ is assigned (R452, R453, R463) (open points: DESIGN CHOICE, log 102). -/
def State.startFrame (s : State) (l : Nat) (inserted : Bool) (f : Frame) : State :=
  let seq := s.stl.seqTx.getD f.vc 0
  let s := { s with stl := { s.stl with seqTx := s.stl.seqTx.setIfInBounds f.vc ((seq + 1) % 65536), lastTx := s.dt } }
  let s := s.out (.frame l inserted (f.header seq s.dt) f.payload f.crc)
  s.modTx l fun x => if inserted then { x with ins := some f } else { x with cur := some f }

/-- A free lane starts the next frame (R464). -/
def State.transmit (s : State) (l : Nat) : State :=
  if s.get F.STL_STAT_TXST ≠ 1 || !s.txUse l || (s.txLane l).cur.isSome then s
  else
    let s := s.mtxSkip 64
    let r := s.choose
    match r.2 with
    | none => r.1
    | some (vc, c) =>
      let q := r.1.formFrame vc c
      match q.2 with
      | some f => q.1.startFrame l false f
      | none => q.1

/-- FRAME_TRANSMIT_START: a free lane chooses and starts a frame (R464). -/
def execFrameTransmitStart (l : Fin 4) (t : Nat) (s : State) : Host.Outcome State Fault Refusal := act s ((s.at t).transmit l)

/-- The lane that a VC1 frame is inserted into: the lowest in use whose frame is not of VC1 (R456, R466). -/
def State.insertLane (s : State) : Option Nat :=
  (List.range 4).find? fun l => s.txUse l && (s.txLane l).ins.isNone && match (s.txLane l).cur with
    | some f => f.vc ≠ 1
    | none => false

/-- A ready VC1 frame is inserted where no lane is free (R466). -/
def State.insertVc1 (s : State) : State :=
  if s.get F.STL_STAT_TXST ≠ 1 || (List.range 4).any (fun l => s.txUse l && (s.txLane l).cur.isNone) then s
  else match s.insertLane, s.cand 1 with
    | some l, some c =>
      let q := s.formFrame 1 c
      match q.2 with
      | some f => q.1.startFrame l true f
      | none => q.1
    | _, _ => s

/-- VC1_INSERT (R466). -/
def execVc1Insert (t : Nat) (s : State) : Host.Outcome State Fault Refusal := act s ((s.at t).insertVc1)

/-- A frame's EOF or IEOF has been sent: its records count as accepted (R468, R475) (open points: DEDUCED, log 81). -/
def State.frameDone (s : State) (f : Frame) : State :=
  let s := s.count (F.STL_CNT_COUNT 0)
  let s := { s with stl := { s.stl with lastTx := s.dt } }
  let s := if f.mtx then { s.mtxNext with stl := { s.mtxNext.stl with mtxBusy := false } } else s
  f.items.foldl State.accept s

/-- FRAME_SENT: the inserted frame of a lane ends, or its frame in progress (R468) (open points: DESIGN CHOICE, log 2). -/
def execFrameSent (l : Fin 4) (t : Nat) (s : State) : Host.Outcome State Fault Refusal :=
  act s (let s := s.at t
    match (s.txLane l).ins, (s.txLane l).cur with
    | some f, _ => (s.modTx l fun x => { x with ins := none }).frameDone f
    | none, some f => (s.modTx l fun x => { x with cur := none }).frameDone f
    | none, none => s)

/-! ### Electrical idle -/

/-- Something waits to be sent or is being sent (R449). -/
def State.txBusy (s : State) : Bool :=
  (List.range 4).any (fun l => (s.txLane l).cur.isSome)
  || (List.range 4).any (fun vc => !(s.bufItems vc).isEmpty || !(s.stl.fwd.getD vc []).isEmpty || !(s.stl.held.getD vc []).isEmpty)
  || s.mtxWaits || s.stl.mtxBusy

/-- A forwarded frame waits for one before it on its channel (R449, R462). -/
def State.rxWaiting (s : State) : Bool :=
  (List.range 4).any fun vc => (s.stl.heldRx.getD vc []).any fun h => h.frame.isSome

/-- EIDLE_ENTRY: the port stops driving its lanes (R449) (open points: DEDUCED, log 81). -/
def execEidleEntry (t : Nat) (s : State) : Host.Outcome State Fault Refusal :=
  act s (let s := s.at t
    if s.is F.STL_CFG_EIEN && s.get F.STL_STAT_TXST = 1 && !s.txBusy && !s.rxWaiting && s.stl.lastTx + 1600 * s.get F.STL_EI_ENTRY ≤ s.dt then
      let s := (setBits 4 (s.get F.STL_LANES_TXUSE)).foldl (fun s l => s.out (.eidle l)) s
      { s.put F.STL_STAT_TXST 2 with stl := { s.stl with eiAt := s.dt } }
    else s)

/-- EIDLE_EXIT: the port sends the fast exit burst, FEB × 64 TS blocks, and a CAP message on every lane in use (R450)
(open points: DEDUCED, log 81). -/
def execEidleExit (t : Nat) (s : State) : Host.Outcome State Fault Refusal :=
  act s (let s := s.at t
    if s.get F.STL_STAT_TXST = 2 && (s.txBusy || s.stl.eiAt + 1600 * s.get F.STL_EI_MAX ≤ s.dt) then
      let s := (setBits 4 (s.get F.STL_LANES_TXUSE)).foldl (fun s l => (s.out (.exitBurst l (64 * s.get F.STL_EI_FEB))).sendCap l) s
      { s.put F.STL_STAT_TXST 1 with stl := { s.stl with lastTx := s.dt } }
    else s)

/-! ### Receiving -/

/-- A frame of a KIND is allowed on its VC, with its length (R454, R455). -/
def kindOk (vc kind len src : Nat) (payload : List Byte) : Bool :=
  if kind = 0 then vc ≠ 2 && len % 32 = 0 && len ≤ recordLimit vc
  else if kind = 1 then vc = 0 || vc = 3
  else if kind = 2 then vc = 2
  else if kind = 3 then vc = 2 && len = 16 && src = 0x800 && hdrField payload 8 8 = 0
  else kind = 4 && vc = 2 && len = 8 && hdrField payload 4 4 = 0 && hdrField payload 2 2 < 2048 && hdrField payload 0 1 < 16
    && hdrField payload 1 1 < 16

end Sys2Proof.Machine

namespace Sys2Proof
open Machine

/-- Header fields of a received frame (R453). -/
def RxFrame.field (f : RxFrame) (i n : Nat) : Nat := hdrField f.hdr.toList i n

/-- The header check of R453. -/
def RxFrame.hcrcOk (f : RxFrame) : Bool := crc8Of (f.hdr.toList.take 14) = f.hdr.toList.getD 14 0#8

/-- LEN, with its reserved bits. -/
def RxFrame.len (f : RxFrame) : Nat := f.field 1 2

/-- A frame passes R455 but for its length limit of 4,096. -/
def RxFrame.ok (f : RxFrame) : Bool :=
  let vc := f.field 0 1 % 4
  let kind := f.field 0 1 / 4
  f.blocksOk && 1 ≤ f.len && f.len < 8192 && f.payload.length = f.len && f.pad.toNat = 8 * ((f.len + 7) / 8) - f.len && kind < 5
    && f.field 6 1 = 0 && f.field 13 1 = 0 && addrOk (f.field 7 2) && addrOk (f.field 9 2) && (jobCrc f.payload) = f.crc
    && kindOk vc kind f.len (f.field 7 2) f.payload && (!f.inserted || (vc = 1 && kind = 0))

/-- A received frame as it is forwarded. -/
def RxFrame.frame (f : RxFrame) (t : Nat) : Frame :=
  ⟨f.field 0 1 % 4, f.field 0 1 / 4, f.field 7 2, f.field 9 2, f.field 5 1, f.field 11 2, f.payload, f.crc.toNat, t, t, true, [],
    false⟩

end Sys2Proof

namespace Sys2Proof.Machine

/-- Sizes of the receive buffers (R460). -/
def fwdSize (vc : Nat) : Nat := if vc = 0 then 262144 else if vc = 3 then 131072 else 32768

/-- Payload bytes of forwarded frames that a channel holds. -/
def State.fwdBytes (s : State) (vc : Nat) : Nat :=
  ((s.stl.fwd.getD vc []).map fun f => f.payload.length).sum
  + ((s.stl.heldRx.getD vc []).map fun h => match h.frame with
    | some f => f.payload.length
    | none => 0).sum

/-- SEQ a has passed where b is next, modulo 65,536. -/
def seqPassed (a b : Nat) : Bool := 32768 ≤ (a + 65536 - b) % 65536

/-- A SEQ may be released: it is the next one, or it was declared lost before it came; before the first release any may (R462)
(open points: DEDUCED, log 78). -/
def State.mayRelease (s : State) (vc seq : Nat) : Bool := match s.stl.expect.getD vc none with
  | none => true
  | some e => seq = e || seqPassed seq e

/-- The next SEQ of a channel moves past one that is released, consumed or lost (open points: DEDUCED, log 78). -/
def State.passSeq (s : State) (vc seq : Nat) : State :=
  let e := match s.stl.expect.getD vc none with
    | some e => if seqPassed seq e then e else (seq + 1) % 65536
    | none => (seq + 1) % 65536
  { s with stl := { s.stl with expect := s.stl.expect.setIfInBounds vc (some e) } }

/-- A CREDIT grant of one channel (R469). -/
def State.grant (s : State) (k g : Nat) : State :=
  let d := (g + 2 ^ 32 - s.get (F.STL_GRANT_GRANT k)) % 2 ^ 32
  if 1 ≤ d && d < 2 ^ 31 then
    { s.put (F.STL_GRANT_GRANT k) g with stl := { s.stl with
        grants := s.stl.grants.setIfInBounds k (s.stl.grants.getD k [] ++ [(s.dt, g)]) } }
  else s.count (F.STL_CNT_COUNT 12)

/-- A MGMT frame, with the device time of its arrival, written to the management receive ring (R474)
(open points: DEDUCED, log 79). -/
def State.mgmtReceive (s : State) (f : RxFrame) (arrival : Nat) : State :=
  let size := s.get F.STL_MRXIDX_SIZE
  let prod := s.get F.STL_MRXIDX_PROD
  let next := (prod + 1) % max 1 size
  let a := mgmtSlot (s.get F.STL_MRXBASE_BASE) prod
  let slot := leBytes 2 f.len ++ leBytes 2 (f.field 7 2) ++ leBytes 2 (f.field 11 2) ++ leBytes 1 (b01 (f.field 9 2 = 0xFFF))
    ++ leBytes 1 0 ++ leBytes 8 arrival ++ leBytes 16 0 ++ f.payload
  if size = 0 || next = s.get F.STL_MRXIDX_CONS then s.count (F.STL_CNT_COUNT 11)
  else
    let ok := s.storeOk a slot.length
    let s := s.store a slot
    if ok then (s.put F.STL_MRXIDX_PROD next).event 11 else s.count (F.STL_CNT_COUNT 11)

/-- A frame addressed to this unit or to ALL is consumed (R457) (open points: DEDUCED, log 79). -/
def State.consume (s : State) (f : RxFrame) (arrival : Nat) : State :=
  let kind := f.field 0 1 / 4
  if kind = 2 then s.mgmtReceive f arrival
  else if kind = 3 then (s.grant 0 (hdrField f.payload 0 4)).grant 1 (hdrField f.payload 4 4)
  else if kind = 4 then s.takeLanestat (hdrField f.payload 0 1)
  else s.count (F.STL_CNT_COUNT 2)

/-- Places of discarded frames at the head of the order are passed; n bounds them (open points: DEDUCED, log 78). -/
def State.passGone (s : State) (vc : Nat) : Nat → State
  | 0 => s
  | n + 1 =>
    match (s.stl.heldRx.getD vc []).find? fun h => h.frame.isNone && h.own.isNone && s.mayRelease vc h.seq with
    | some h =>
      let rest := dropFirst (fun x => x = h) (s.stl.heldRx.getD vc [])
      ({ s with stl := { s.stl with heldRx := s.stl.heldRx.setIfInBounds vc rest } }.passSeq vc h.seq).passGone vc n
    | none => s

/-- A frame released: it is consumed, is ready to be sent on, or both (R457, R462, R464). -/
def State.release (s : State) (h : RxHeld) : State :=
  let s := match h.own with
    | some f => s.consume f h.arrival
    | none => s
  match h.frame with
  | some f =>
    { s with stl := { s.stl with fwd := s.stl.fwd.setIfInBounds f.vc (s.stl.fwd.getD f.vc [] ++ [{ f with ready := s.dt }]) } }
  | none => s

/-- A frame received complete takes its place in the order of its channel: released at once where nothing is missing before it
(R462) (open points: DEDUCED, log 78). -/
def State.place (s : State) (vc seq : Nat) (own : Option RxFrame) (f : Option Frame) : State :=
  let h : RxHeld := ⟨seq, s.dt, own, f⟩
  let s := if s.mayRelease vc seq then (s.passSeq vc seq).release h
    else { s with stl := { s.stl with heldRx := s.stl.heldRx.setIfInBounds vc (s.stl.heldRx.getD vc [] ++ [h]) } }
  s.passGone vc (s.stl.heldRx.getD vc []).length

/-- The first held frame that may be released. -/
def State.nextHeld (s : State) (vc : Nat) : Option RxHeld := (s.stl.heldRx.getD vc []).find? fun h => s.mayRelease vc h.seq

/-- A held frame is released in SEQ order (R462) (open points: DEDUCED, log 78). -/
def State.releaseHeld (s : State) (vc : Nat) : State :=
  match s.nextHeld vc with
  | some h =>
    let rest := dropFirst (fun x => x = h) (s.stl.heldRx.getD vc [])
    let s := { s with stl := { s.stl with heldRx := s.stl.heldRx.setIfInBounds vc rest } }.passSeq vc h.seq
    (s.release h).passGone vc rest.length
  | none => s

/-- FRAME_RELEASE (R462). -/
def execFrameRelease (vc : BitVec 2) (t : Nat) (s : State) : Host.Outcome State Fault Refusal :=
  act s ((s.at t).releaseHeld vc.toNat)

/-- The next frame of a channel is declared lost (R463, R473). Its originator and its length are not known
(open points: DEDUCED, log 78). -/
def State.lostFrame (s : State) (vc : Nat) : State :=
  match s.stl.expect.getD vc none with
  | some e =>
    if (s.stl.heldRx.getD vc []).isEmpty || (s.nextHeld vc).isSome then s
    else
      let src := s.fresh.toNat % 4096
      let s := s.draw
      let len := s.fresh.toNat % 4097
      let s := ((s.draw.count (F.STL_CNT_COUNT 8)).lose 5 vc src 1 len).passSeq vc e
      s.passGone vc (s.stl.heldRx.getD vc []).length
  | none => s

/-- FRAME_LOST (R463) (open points: DEDUCED, log 78). -/
def execFrameLost (vc : BitVec 2) (t : Nat) (s : State) : Host.Outcome State Fault Refusal := act s ((s.at t).lostFrame vc.toNat)

/-- CREDIT: a CREDIT frame from the gateway (R469) (open points: DEDUCED, log 79). -/
def execCredit (grant0 grant3 : Word) (s : State) : Host.Outcome State Fault Refusal :=
  act s ((s.grant 0 grant0.toNat).grant 1 grant3.toNat)

/-- A frame that is consumed as a management message: KIND MGMT, addressed to this unit or to ALL. -/
def State.isMgmt (s : State) (f : RxFrame) : Bool :=
  f.hcrcOk && f.len ≤ 4096 && f.ok && f.field 0 1 / 4 = 2 && f.field 7 2 ≠ s.uid && (f.field 9 2 = s.uid || f.field 9 2 = 0xFFF)

/-- MGMT_RECEIVE: a consumed MGMT frame is written to the ring (R474). -/
def execMgmtReceive (fr : RxFrame) (t : Nat) (s : State) : Host.Outcome State Fault Refusal :=
  act s (let s := s.at t
    if s.isMgmt fr then s.mgmtReceive fr s.dt else s)

/-- A frame to be forwarded, or discarded for its TTL, its age or a full buffer (R457, R459, R460); a MGMT frame to ALL is consumed
besides. -/
def State.forward (s : State) (f : RxFrame) (own : Option RxFrame) : State :=
  let g := f.frame s.dt
  let seq := f.field 3 2
  let n := g.payload.length
  if g.ttl ≤ 1 then (s.count (F.STL_CNT_COUNT 6)).place g.vc seq own none
  else if s.tooOld g s.dt then (s.dropOld g).place g.vc seq own none
  else if fwdSize g.vc < s.fwdBytes g.vc + n then ((s.count (F.STL_CNT_COUNT 5)).lose 4 g.vc g.src 1 n).place g.vc seq own none
  else s.place g.vc seq own (some g)

/-- A whole frame received (R455, R457). -/
def State.receive (s : State) (f : RxFrame) : State :=
  let vc := f.field 0 1 % 4
  let src := f.field 7 2
  let dest := f.field 9 2
  let kind := f.field 0 1 / 4
  if !f.hcrcOk then s.count (F.STL_CNT_COUNT 2)
  else if 4096 < f.len % 8192 then (s.count (F.STL_CNT_COUNT 3)).lose 2 vc (src % 4096) 1 (f.len % 8192)
  else if !f.ok then (s.count (F.STL_CNT_COUNT 2)).lose 2 vc (src % 4096) 1 (f.len % 8192)
  else
    let s := s.count (F.STL_CNT_COUNT 1)
    let seq := f.field 3 2
    if src = s.uid then (s.count (F.STL_CNT_COUNT 6)).place vc seq none none
    else if dest = s.uid then s.place vc seq (some f) none
    else if dest = 0xFFF then
      if kind = 2 then s.forward f (some f) else (s.count (F.STL_CNT_COUNT 2)).place vc seq none none
    else s.forward f none

/-- FRAME_RECEIVE: a whole frame is received on an ACTIVE lane, checked and consumed, forwarded or discarded (R457)
(open points: DEDUCED, log 79; DESIGN CHOICE, log 98). -/
def execFrameReceive (l : Fin 4) (fr : RxFrame) (t : Nat) (s : State) : Host.Outcome State Fault Refusal :=
  act s (let s := s.at t
    if s.rxStage l = rxActive then s.receive fr else s)

/-! ### Holding and loss -/

/-- Held records enter their buffer while it has room (R470); n bounds them (open points: DEDUCED, log 95). -/
def State.resumeHeld (s : State) (vc : Nat) : Nat → State
  | 0 => s
  | n + 1 => match s.stl.held.getD vc [] with
    | [] => s
    | it :: l =>
      if s.hasRoom vc it.data.length then
        ({ s with stl := { s.stl with held := s.stl.held.setIfInBounds vc l } }.enterBuf vc { it with entered := s.dt }).resumeHeld vc n
      else s

/-- RECORD_PATH_RESUME: a full stream buffer gains room (R470). -/
def execRecordPathResume (vc : BitVec 2) (t : Nat) (s : State) : Host.Outcome State Fault Refusal :=
  act s ((s.at t).resumeHeld vc.toNat (s.stl.held.getD vc.toNat []).length)

/-- LOSS_WINDOW_END: one LOSS record for each cause and channel, LINKDOWN apart (R473) (open points: DEDUCED, log 95). -/
def execLossWindowEnd (t : Nat) (s : State) : Host.Outcome State Fault Refusal :=
  act s ((s.at t).sendLosses fun l => l.cause ≠ 1)

/-! ### Register writes -/

/-- A write to STL_CFG. -/
def State.stlCfgWrite (s : State) (src : Src) (v : Word) : State :=
  if F.STL_CFG_TTL.of v = 0 then s.ignoreReg src F.STL_CFG_TTL.off else s.setReg F.STL_CFG_TTL.off (v &&& 0xFF03#32)

/-- A write to STL_HOR. -/
def State.horWrite (s : State) (src : Src) (v : Word) : State :=
  if F.STL_HOR_HORIZON.of v < 100 then s.ignoreReg src F.STL_HOR_HORIZON.off else s.put F.STL_HOR_HORIZON (F.STL_HOR_HORIZON.of v)

/-- A write to STL_EI. -/
def State.eiWrite (s : State) (src : Src) (v : Word) : State :=
  if F.STL_EI_MAX.of v < 100 || F.STL_EI_FEB.of v < 4 || F.STL_EI_ENTRY.of v = 0 then s.ignoreReg src F.STL_EI_MAX.off
  else s.setReg F.STL_EI_MAX.off (v &&& 0xFFFF3FFF#32)

/-- A write to STL_WRR. -/
def State.wrrWrite (s : State) (src : Src) (v : Word) : State :=
  if F.STL_WRR_Q0.of v = 0 || F.STL_WRR_Q3.of v = 0 then s.ignoreReg src F.STL_WRR_Q0.off
  else s.setReg F.STL_WRR_Q0.off (v &&& 0xFFFF#32)

/-- A management ring lies in shared memory, aligned (STL registers). -/
def ringFits (base size : Nat) : Bool := base % 32 = 0 && (size = 0 || (0x400000 ≤ base && base + 0x1020 * size ≤ 0x800000))

/-- A write to a BASE register of a management ring. -/
def State.mgmtBaseWrite (s : State) (src : Src) (base size : Fld) (v : Word) : State :=
  if ringFits v.toNat (s.get size) then s.setReg base.off v else s.ignoreReg src base.off

/-- A write to an index register of a management ring: SIZE and the owner's index. -/
def State.mgmtIdxWrite (s : State) (src : Src) (base own other size : Fld) (v : Word) : State :=
  let n := size.of v
  let i := own.of v
  let changes := n ≠ s.get size
  if 64 < n || (n ≠ 0 && n ≤ i) || (n = 0 && i ≠ 0) || (changes && s.get own ≠ s.get other) || !ringFits (s.get base) n then
    s.ignoreReg src size.off
  else if changes then ((s.put size n).put own 0).put other 0
  else s.put own i

/-- A write to STL_MTXIDX: a slot at an empty ring's head is ready from then on. -/
def State.mtxWrite (s : State) (src : Src) (v : Word) : State :=
  let empty := s.get F.STL_MTXIDX_CONS = s.get F.STL_MTXIDX_PROD
  let s := s.mgmtIdxWrite src F.STL_MTXBASE_BASE F.STL_MTXIDX_PROD F.STL_MTXIDX_CONS F.STL_MTXIDX_SIZE v
  if empty then { s with stl := { s.stl with mtxAt := s.dt } } else s

end Sys2Proof.Machine
end

