-- ==== Sys2Proof/Machine/Bringup.lean ====
section
/-!
DEFINITION. Reset, the time base, SOLO boot, key lock, sleep and wake (15_bring_up.md).
-/
namespace Sys2Proof.Machine

/-! ### Reset -/

/-- Registers that hold what fuses give: the serial number, KLOCK, and the key hash once the write of KLOCK = 1 has programmed it (R526)
(open points: DESIGN CHOICE, log 4). -/
def isFused (locked : Bool) (off : Nat) : Bool := off = 0x8 || off = 0xC || (locked && (off = 0x8008 || (0x8020 ≤ off && off < 0x8040)))

/-- The fused registers of a state; RXWAKE is no fuse (R526) (open points: DESIGN CHOICE, log 4). -/
def State.fuses (s : State) : FMap Word :=
  (s.regs.filter fun e => isFused (s.is F.TBS_CFG_KLOCK) e.1).map fun e => if e.1 = 0x8008 then (e.1, 2#32) else e

/-- The state that RESET_N low brings: reset, the fuses and the levels of EMI_INH_N and PERMIT_IN kept, what the model records kept, TDO at high
impedance (R85, R516, R578)
(open points: DEDUCED, log 87). -/
def State.resetHeld (s : State) : State :=
  { State.reset with
    emi := { State.reset.emi with inhN := s.emi.inhN, permit := s.emi.permit }
    inReset := true, regs := s.fuses, lastRead := s.lastRead, outs := s.outs, free := s.free, tap := { s.tap with tdo := none }
    pending := s.pending }

/-- RESET_ASSERT: RESET_N goes low (R516) (open points: DESIGN CHOICE, log 3). -/
def execResetAssert (s : State) : Host.Outcome State Fault Refusal := .next s.resetHeld

/-- RESET_N rises: CFGMODE is sampled, EMI_STAT.INH follows its pin from here on, and in SOLO the boot starts (R1, R2, R85, R369, R517,
R523). -/
def State.resetRelease (s : State) (solo : Bool) : State :=
  let s := ({ s with inReset := false }.putB F.SYS_STRAP_CFGMODE solo).putB F.EMI_STAT_INH (!s.emi.inhN)
  if solo then
    let s := (s.put F.TBS_BOOT_RESULT 4).put (F.SEQ_PESTAT_POST 15) 1
    { s with stl := { s.stl with presetsWait := true } }
  else s

/-- RESET_RELEASE (R517) (open points: DESIGN CHOICE, log 4). -/
def execResetRelease (cfgmode : Bool) (s : State) : Host.Outcome State Fault Refusal :=
  .next (if s.inReset then s.resetRelease cfgmode else s)

/-! ### Time base -/

/-- The PLL locks us µs after reset release or the wake event: device time starts or continues (R33, R517, R528). A TBUNLOCK root
ends once every DLL is locked after relock (R540) (open points: DEDUCED, log 88). -/
def State.timebaseLock (s : State) (us : Nat) : State :=
  if s.is F.SYS_STAT_TBLOCK || s.is F.TBS_STAT_SLEEP then s
  else
    let s := ((s.put F.TBS_STAT_LOCKUS us).put F.TBS_STAT_WAKING 0).put F.TBS_STAT_LOCK 1
    let s := { (s.put F.SYS_FABRATE_VALID 0).setStat F.SYS_STAT_TBLOCK true with drv := { s.drv with edge := none } }
    if s.is F.RGP_DLL_ALL then s.endRoot Cause.tbunlock 0 else s

/-- TIMEBASE_LOCK (R517, R528). -/
def execTimebaseLock (us : BitVec 16) (s : State) : Host.Outcome State Fault Refusal := act s (s.timebaseLock us.toNat)

/-- A write to TBS_KHASHk (R526) (open points: DEDUCED, log 86). -/
def State.khashWrite (s : State) (src : Src) (off : Nat) (v : Word) : State :=
  if s.solo || s.is F.TBS_CFG_KLOCK then s.ignoreReg src off else s.setReg off v

/-- A write to TBS_CFG (R526): KLOCK is set for good, in HOSTED only. A write of it that R526 ignores is counted, and RXWAKE is written
beside it (open points: DEDUCED, log 86). -/
def State.tbsCfgWrite (s : State) (src : Src) (v : Word) : State :=
  let lock := F.TBS_CFG_KLOCK.isOf v
  let s := if lock && !s.solo then s.put F.TBS_CFG_KLOCK 1
    else if lock || s.is F.TBS_CFG_KLOCK then s.ignoreReg src F.TBS_CFG_KLOCK.off
    else s
  s.put F.TBS_CFG_RXWAKE (F.TBS_CFG_RXWAKE.of v)

/-- KEY_LOCK: a write of TBS_CFG with KLOCK = 1 (R526) (open points: DEDUCED, log 86). -/
def execKeyLock (src : Src) (v : Word) (s : State) : Host.Outcome State Fault Refusal := actBy src s (s.tbsCfgWrite src (v ||| 2#32))

/-! ### Boot images -/

/-- A section of an image (R521). -/
structure Section where
  type : Nat
  offset : Nat
  len : Nat
  dest : Nat
  digest : List Byte
  reserved : Nat
  deriving DecidableEq, Repr

/-- Section entry i of an image. -/
def sectionAt (img : List Byte) (i : Nat) : Section :=
  let a := 144 + 48 * i
  ⟨hdrField img a 1, hdrField img (a + 4) 4, hdrField img (a + 8) 4, hdrField img (a + 12) 4, (img.drop (a + 16)).take 32,
    hdrField img (a + 1) 3⟩

/-- The sections of an image. -/
def imgSections (img : List Byte) : List Section := (List.range (hdrField img 6 2)).map (sectionAt img)

/-- MAGIC is right. -/
def magicOk (img : List Byte) : Bool := hdrField img 0 4 = 0x42584E58

/-- VERSION is right. -/
def versionOk (img : List Byte) : Bool := hdrField img 4 2 = 1

/-- NSEC, TOTLEN and the reserved fields are as R521 gives (open points: DEDUCED, log 85). -/
def formatOk (img : List Byte) : Bool :=
  let n := hdrField img 6 2
  versionOk img && 1 ≤ n && n ≤ 32 && 2048 ≤ img.length && hdrField img 12 4 ≤ 16777216
    && hdrField img (144 + 48 * n) (48 * (32 - n)) = 0 && hdrField img 1680 368 = 0 && (imgSections img).all fun x => x.reserved = 0

/-- The key hash (R526), the first byte of a word its lowest (open points: PRESUMED, log 14). -/
def State.keyHash (s : State) : List Byte := (List.range 8).flatMap fun k => leBytes 4 (s.get (F.TBS_KHASH_HASH k))

/-- The image's key is the one that the fuses hold (R522). -/
def State.keyOk (s : State) (img : List Byte) : Bool :=
  s.is F.TBS_CFG_KLOCK && sha256 ((img.drop 16).take 64) = s.keyHash

/-- The signature over header bytes 0 to 79 and 144 to 2,047 (R522). -/
def signatureOk (img : List Byte) : Bool :=
  ecdsaVerify ((img.drop 16).take 64) (sha256 (img.take 80 ++ (img.drop 144).take 1904)) ((img.drop 80).take 64)

/-- A section is in order (R521, R522). -/
def sectionOk (total : Nat) (x : Section) : Bool :=
  (x.type = 1 || x.type = 2) && x.offset % 4 = 0 && 2048 ≤ x.offset && x.len % 4 = 0 && 4 ≤ x.len && x.dest % 4 = 0
    && x.offset + x.len ≤ total
    && if x.type = 1 then x.dest = 0xB40000
      else match rangeRegion x.dest x.len with
        | some r => !r.readOnly
        | none => false

/-- Every section is in order, and at most one is a PRESET (R522). -/
def sectionsOk (img : List Byte) : Bool :=
  (imgSections img).all (sectionOk (hdrField img 12 4)) && ((imgSections img).filter fun x => x.type = 1).length ≤ 1

/-- Some DATA section covers the Postmaster's MANAGE entry (R522). -/
def postOk (img : List Byte) : Bool :=
  (imgSections img).any fun x => x.type = 2 && x.dest ≤ 0x2E0040 && 0x2E0050 ≤ x.dest + x.len

/-- The cause by which the header tests of R522 refuse an image, coded as in TBS_BOOT; 0 where they pass
(open points: DEDUCED, log 85). -/
def State.headerCause (s : State) (img : List Byte) : Nat :=
  if !magicOk img then 1
  else if !formatOk img then 2
  else if !s.keyOk img then 3
  else if !signatureOk img then 4
  else if !sectionsOk img then 5
  else if !postOk img then 7
  else 0

/-- A section's bytes. -/
def sectionBytes (img : List Byte) (x : Section) : List Byte := (img.drop x.offset).take x.len

/-- A section's digest matches (R522). -/
def digestOk (img : List Byte) (x : Section) : Bool :=
  (sectionBytes img x).length = x.len && sha256 (sectionBytes img x) = x.digest

/-- Where the boot writes a byte: as a host write goes (R523). Nothing has run that a bank's or table's rule protects
(open points: DEDUCED, log 82). -/
def bootDest (a : Nat) : ByteDest :=
  if inCal a then .staging else if bar2Region a = some .broadcast then .broadcast else .memory

/-- Bytes placed by the boot (R523). -/
def State.place' (s : State) (a : Nat) (bs : List Byte) : State := (cutRuns bootDest a bs).foldl State.putRun s

/-- The sections in the order of writing: the PRESET first (R523). -/
def bootOrder (img : List Byte) : List Section :=
  (imgSections img).filter (fun x => x.type = 1) ++ (imgSections img).filter fun x => x.type ≠ 1

/-- Sections placed one by one, each digest checked as it is written; whether all matched, and the sections placed
(open points: DEDUCED, log 85). -/
def State.placeAll (s : State) (img : List Byte) : List Section → State × Bool × List Section
  | [] => (s, true, [])
  | x :: l =>
    let s := s.place' x.dest (sectionBytes img x)
    if digestOk img x then
      let r := s.placeAll img l
      (r.1, r.2.1, x :: r.2.2)
    else (s, false, [x])

/-- The slots whose MAGIC and VERSION are right, the candidate first (R520) (open points: DEDUCED, log 85). -/
def candidates (slot0 slot1 : List Byte) : List (Nat × List Byte) :=
  let ok := fun (img : List Byte) => magicOk img && versionOk img
  let both := if hdrField slot0 8 4 < hdrField slot1 8 4 then [(1, slot1), (0, slot0)] else [(0, slot0), (1, slot1)]
  both.filter fun x => ok x.2

/-- What a boot comes to: the state, the slot booted, the causes of the slots tried, and the sections written. -/
structure BootEnd where
  state : State
  slot : Option Nat
  causes : List (Nat × Nat)
  placed : List Section

/-- The candidates tried in order (R520, R522, R523) (open points: DEDUCED, log 85). -/
def State.tryBoot (s : State) : List (Nat × List Byte) → BootEnd
  | [] => ⟨s, none, [], []⟩
  | (k, img) :: l =>
    let c := s.headerCause img
    if c ≠ 0 then
      let r := s.tryBoot l
      { r with causes := (k, c) :: r.causes }
    else
      let p := s.placeAll img (bootOrder img)
      if p.2.1 then ⟨p.1, some k, [], p.2.2⟩
      else
        let r := p.1.tryBoot l
        { r with causes := (k, 6) :: r.causes, placed := p.2.2 ++ r.placed }

/-- A slot's cause in TBS_BOOT (open points: DEDUCED, log 85). -/
def State.putCause (s : State) (x : Nat × Nat) : State :=
  s.put (if x.1 = 0 then F.TBS_BOOT_CAUSE0 else F.TBS_BOOT_CAUSE1) x.2

/-- A boot is in progress (R517, R524). -/
def State.booting (s : State) : Bool := s.solo && s.get F.TBS_BOOT_RESULT = 4

/-- The stream lanes need not wait any longer (R523). -/
def State.presetsDone (s : State) : State := { s with stl := { s.stl with presetsWait := false } }

/-- The presets of the first candidate that passes the header tests are placed; a digest that fails turns to the next (R523). -/
def State.placePresets (s : State) : List (Nat × List Byte) → State
  | [] => s
  | (_, img) :: l =>
    if s.headerCause img ≠ 0 then s.placePresets l
    else match (imgSections img).find? fun x => x.type = 1 with
      | some x =>
        let s := s.place' x.dest (sectionBytes img x)
        if digestOk img x then s.presetsDone else s.placePresets l
      | none => s.presetsDone

/-- PRESETS_PLACED (R523). -/
def execPresetsPlaced (slot0 slot1 : List Byte) (s : State) : Host.Outcome State Fault Refusal :=
  act s (if s.booting && s.stl.presetsWait then s.placePresets (candidates slot0 slot1) else s)

/-- BOOT_COMPLETE: every section of an image is placed and checked; PE15 starts at its MANAGE entry (R524)
(open points: DESIGN CHOICE, log 98) (open points: DESIGN CHOICE, log 102). -/
def execBootComplete (slot0 slot1 : List Byte) (s : State) : Host.Outcome State Fault Refusal :=
  act s (if !s.booting then s
    else
      let r := s.tryBoot (candidates slot0 slot1)
      match r.slot with
      | some k => ((r.causes.foldl State.putCause r.state).put F.TBS_BOOT_RESULT (k + 1)).presetsDone.manage 15 0
      | none => s)

/-- BOOT_FAIL: neither slot passes; the memories written are left undefined (R525) (open points: DEDUCED, log 85). -/
def execBootFail (slot0 slot1 : List Byte) (s : State) : Host.Outcome State Fault Refusal :=
  act s (if !s.booting then s
    else
      let r := s.tryBoot (candidates slot0 slot1)
      match r.slot with
      | some _ => s
      | none =>
        let spoil := fun (s : State) (x : Section) =>
          let bs := (List.range x.len).map fun i => (Config.freeWord (s.free + i)).setWidth 8
          { s.place' x.dest bs with free := s.free + x.len }
        let bad := fun (k : Nat) (img : List Byte) =>
          if magicOk img && versionOk img then [] else [(k, if magicOk img then 2 else 1)]
        let s := (bad 0 slot0 ++ bad 1 slot1 ++ r.causes).foldl State.putCause (r.placed.foldl spoil s)
        (s.put F.TBS_BOOT_RESULT 3).presetsDone)

/-- A BOOTSTAT record is due at t: the first once the transmit port is ACTIVE, the next 1.024 s after the latest (R525). -/
def State.bootstatDue (s : State) (t : Nat) : Bool :=
  s.get F.TBS_BOOT_RESULT = 3 && s.txActive && s.stl.bootAt.all fun b => b + 1638400000 ≤ t

/-- BOOTSTAT_SEND: a BOOTSTAT record on VC3 (R525). -/
def execBootstatSend (t : Nat) (s : State) : Host.Outcome State Fault Refusal :=
  act s (let s := s.at t
    if s.bootstatDue t then
      { s with stl := { s.stl with bootAt := some t } }.handOn 3 (Item.of (leBytes 1 9 ++ leBytes 1 3
        ++ leBytes 1 (s.get F.TBS_BOOT_CAUSE0) ++ leBytes 1 (s.get F.TBS_BOOT_CAUSE1)
        ++ leBytes 8 s.serial ++ leBytes 16 0 ++ leBytes 4 s.stamp))
    else s)

/-! ### Sleep and wake -/

/-- The conditions of R527. -/
def State.maySleep (s : State) : Bool :=
  !s.running && !s.is F.EMI_STAT_ARMED && (List.range 4).all (fun a => !s.is (F.AXS_CTRL_EN a))
    && s.pool.ctxs.all fun c => c.state = .retained

/-- Frames in progress end. -/
def State.endFrames (s : State) : State :=
  (List.range 4).foldl (fun s l =>
    let x := s.txLane l
    let s := s.modTx l fun x => { x with cur := none, ins := none }
    (x.ins.toList ++ x.cur.toList).foldl State.frameDone s) s

/-- The frames that can be sent are sent; n bounds them (R527) (open points: DEDUCED, log 87). -/
def State.sendAll (s : State) : Nat → State
  | 0 => s
  | n + 1 => match (List.range 4).find? s.txUse with
    | some l =>
      let s' := s.transmit l
      if (s'.txLane l).cur.isSome then s'.endFrames.sendAll n else s'
    | none => s

/-- Records and forwarded frames held across a sleep lose their age (R530) (open points: DEDUCED, log 87). -/
def State.markSlept (s : State) : State :=
  let nap : Item → Item := fun i => { i with slept := true }
  let old : Frame → Frame := fun f => { f with age := 65535 }
  { s with stl := { s.stl with
      bufs := s.stl.bufs.map fun (l : List Item) => l.map nap
      held := s.stl.held.map fun (l : List Item) => l.map nap
      jobs := s.stl.jobs.map fun (l : List Job) => l.map fun (j : Job) => { j with items := j.items.map nap }
      fwd := s.stl.fwd.map fun (l : List Frame) => l.map old
      heldRx := s.stl.heldRx.map fun (l : List RxHeld) => l.map fun (h : RxHeld) => { h with frame := h.frame.map old } } }

/-- The clocked parts stop (R527) (open points: DEDUCED, log 87). -/
def State.stopClocks (s : State) : State :=
  let s := (List.range 4).foldl (fun s l => s.modTx l fun x => { x with stage := .pll }) s
  let s := (List.range 4).foldl (fun s l => (s.modRx l fun x => { x with cap := [], run := 0 }).put (rxField l) rxWait) s
  let s := (s.put F.STL_LANES_TXDET 0).showTx
  let s := (List.range 17).foldl (fun s g => s.setDll g false) s
  let s := ((s.permitIdle.put F.TBS_STAT_LOCK 0).put F.TBS_STAT_WAKING 0).setStat F.SYS_STAT_TBLOCK false
  { s with sns := { s.sns with adcs := s.sns.adcs.map (Adc.stopped s.dt) } }

/-- A write of TBS_CTRL.SLEEP = 1 is accepted (R527, R530) (open points: DEDUCED, log 87). -/
def State.enterSleep (s : State) : State :=
  let s := s.count (F.TBS_CNT_COUNT 0)
  let s := if s.get F.STL_STAT_TXST = 2 then s.put F.STL_STAT_TXST 1 else s
  let waiting := ([0, 1, 2, 3].map fun vc => (s.bufItems vc).length + (s.stl.fwd.getD vc []).length).sum + s.get F.STL_MTXIDX_SIZE
  (((s.endFrames.sendAll (2 * waiting + 1)).markSlept.stopClocks).put F.TBS_STAT_SLEEP 1)

/-- The unit wakes (R529): lanes restart at PLL, CAL_EPOCH advances, and the records that are stale against the die's temperature then are
found; what that reading is is a free value (R258, R261) (open points: DEDUCED, log 87; DESIGN CHOICE, log 56). -/
def State.wakeUp (s : State) : State :=
  let s := (s.put F.TBS_STAT_SLEEP 0).put F.TBS_STAT_WAKING 1
  let s := s.put F.CAL_EPOCH_EPOCH (s.get F.CAL_EPOCH_EPOCH + 1)
  let s := ((s.put F.CAL_TEMP_TEMP (s.fresh.toNat % 65536)).put F.CAL_TEMP_VALID 1).draw
  (List.range 533).foldl (fun s i =>
    let s := s.recTouch i 0 32
    if s.staleNow i then (s.foundStale i).count (F.CAL_CNT_COUNT 1) else s) s

/-- A write to TBS_CTRL (R527, R529) (open points: DEDUCED, log 87). -/
def State.tbsCtrlWrite (s : State) (src : Src) (v : Word) : State :=
  let wake := F.TBS_CTRL_WAKE.isOf v
  let sleep := F.TBS_CTRL_SLEEP.isOf v
  if s.is F.TBS_STAT_SLEEP then (if wake then s.wakeUp else s)
  else if wake || (sleep && !s.maySleep) then s.ignoreReg src 0x8000
  else if sleep then s.enterSleep else s

/-- SLEEP: a write of TBS_CTRL with SLEEP = 1 (R527). -/
def execSleep (src : Src) (v : Word) (s : State) : Host.Outcome State Fault Refusal := actBy src s (s.tbsCtrlWrite src (v ||| 1#32))

/-- An RX signal wakes a sleeping unit whose RXWAKE is 1 (R529). -/
def State.rxWakes (s : State) : State := if s.is F.TBS_STAT_SLEEP && s.is F.TBS_CFG_RXWAKE then s.wakeUp else s

/-- WAKE: by a write of TBS_CTRL.WAKE = 1, or by an RX signal (R529). -/
def execWake (by_ : WakeBy) (s : State) : Host.Outcome State Fault Refusal :=
  match by_ with
  | .write src => actBy src s (s.tbsCtrlWrite src 2#32)
  | .rxSignal => act s s.rxWakes

/-- SIGNAL_DETECT: a lane in WAIT starts to train, and a signal wakes the unit (R441, R523, R529). -/
def execSignalDetect (l : Fin 4) (s : State) : Host.Outcome State Fault Refusal :=
  act s (let s := s.rxWakes
    if s.rxStage l = rxWait && !s.is F.TBS_STAT_SLEEP && !(s.solo && s.stl.presetsWait) then s.rxTo l rxTrain else s)

end Sys2Proof.Machine
end

