-- ==== Sys2Proof/Machine/Faults.lean ====
section
/-!
DEFINITION. Fault records and roots (R536 to R540), loss of time-base lock (R542), the scrubber and upsets (R39, R535, R543,
R544, R612), and the fabric rate monitor (R33).
-/
namespace Sys2Proof.Machine

/-! ### Fault records -/

/-- The fault record of a fault, written at the present time as number seq (R537) (open points: DEDUCED, log 89). -/
def State.faultBytes (s : State) (d : FaultRec) : List Byte :=
  leBytes 1 0x0A ++ leBytes 1 d.cause ++ leBytes 1 (b01 d.root + 2 * b01 d.acq + 4 * b01 d.proc + 8 * b01 d.retired) ++ leBytes 1 0
    ++ leBytes 2 d.inst ++ leBytes 2 s.flt.seq ++ leBytes 4 d.detail ++ leBytes 2 d.deps ++ leBytes 2 d.affected
    ++ leBytes 4 d.dtDet ++ leBytes 2 (min 65535 ((s.dt - d.dtDet) / 16)) ++ leBytes 2 0 ++ leBytes 2 d.frame ++ leBytes 2 d.column
    ++ leBytes 4 s.dt

/-- The words of a log entry (R538) (open points: DEDUCED, log 89). -/
def State.putEntry (s : State) (e : Nat) (bs : List Byte) : State :=
  (List.range 8).foldl (fun s k => s.setReg (0x5A000 + 32 * e + 4 * k) (BitVec.ofNat 32 (leNat ((bs.drop (4 * k)).take 4)))) s

/-- An entry of the log written; the oldest is overwritten where the log is full (R538) (open points: DEDUCED, log 89). -/
def State.logPut (s : State) (bs : List Byte) : State :=
  let e := s.get F.FLT_LOGIDX_PROD
  let full := (e + 1) % 256 = s.get F.FLT_LOGIDX_CONS
  let s := if full then
    ((s.put F.FLT_LOGIDX_CONS (s.get F.FLT_LOGIDX_CONS + 1)).put F.FLT_LOGIDX_WRAP 1).count (F.FLT_CNT_COUNT 2) else s
  let lost : Root → Root := fun r => if r.entry = some e then { r with entry := some 256 } else r
  let s := { s with flt := { s.flt with roots := s.flt.roots.map lost } }
  (s.putEntry e bs).put F.FLT_LOGIDX_PROD (e + 1)

/-- A fault's isolation has ended, but for its record: the span in which a faulted channel cuts shots is over (R609); the pixels that it sent to
processing replay are through, and every record that they regenerate is in place, so that nothing is held behind one (R548, R558). Its other
actions end with its detection (open points: DEDUCED, log 89). -/
def State.isolated (s : State) (d : FaultRec) : Bool :=
  !(d.cause = Cause.channel && s.ret.spans.contains d.inst) && d.ctxs.all fun id =>
    !((s.bufItems 0).any fun i => i.hole && i.ctx = some id) && match s.ctx? id with
      | some c => c.state ≠ .closed && c.state ≠ .work
      | none => true

/-- The i-th detected fault's record is written where its isolation has ended; its message follows, and a copy goes to VC3 where that is
configured (R536 to R539) (open points: DEDUCED, log 89). -/
def State.recordWrite (s : State) (i : Nat) : State :=
  match s.flt.detected[i]? with
  | some d =>
    if !s.isolated d then s else
    let bs := s.faultBytes d
    let e := s.get F.FLT_LOGIDX_PROD
    let named : Root → Root := fun r => if d.root && r.cause = d.cause && r.inst = d.inst then { r with entry := some e } else r
    let s := (s.logPut bs).count (F.FLT_CNT_COUNT 0)
    let s := { s with flt := ⟨s.flt.detected.eraseIdx i, s.flt.roots.map named, s.flt.seq + 1⟩ }
    let s := s.eventFault
    if s.is F.FLT_CFG_VC3 then s.handOn 3 (Item.of bs) else s
  | none => s

/-- FAULT_RECORD_WRITE (R536). -/
def execFaultRecordWrite (i t : Nat) (s : State) : Host.Outcome State Fault Refusal := act s ((s.at t).recordWrite i)

/-- ROOT_EXPIRE: 1 ms after its detection a MEMORY root is no longer active (R540). -/
def State.rootExpire (s : State) (m : Nat) : State :=
  match s.flt.roots.find? fun r => r.cause = Cause.memory && r.inst = m with
  | some r => (s.at (r.t + 1600000)).endRoot Cause.memory m
  | none => s

/-- The meaning of ROOT_EXPIRE. -/
def execRootExpire (m : Fin 8) (s : State) : Host.Outcome State Fault Refusal := act s (s.rootExpire m.val)

/-! ### Time-base unlock (R542) -/

/-- A command that is removed from the timed queue: each slot of a fire command is skipped with reason LATE. -/
def State.removeCmd (s : State) (c : TCmd) : State :=
  let s := s.count (F.SEQ_CNT_COUNT 0)
  match c.kind.plain.fire? with
  | some (mask, row, code) => (setBits 64 mask).foldl (fun s n => s.lateOutput c row code 0 n) s
  | none => s

/-- The timed queue is flushed, in order; pulses in progress are cut short and no row change follows
(open points: DEDUCED, log 88). -/
def State.flushQueue (s : State) : State :=
  let q := s.emi.tq
  let s := q.foldl State.removeCmd (s.setQ [])
  { s with emi := { s.emi with pulses := [], rowWait := none } }

/-- Every context in OPEN or ZOOM closes at once with SKIP set, but for a loss record that still concerns it (R170, R542) (open points:
DEDUCED, log 88). -/
def State.closeLive (s : State) : State :=
  ((s.pool.ctxs.filter Ctx.live).map fun c => c.id).foldl (fun s id =>
    (s.modCtx id fun c => { c with closing := true, atOnce := true, skipSeen := true }).tryClose id) s

/-- TIMEBASE_UNLOCK (open points: DEDUCED, log 88). -/
def State.timebaseUnlock (s : State) : State :=
  if !s.is F.SYS_STAT_TBLOCK then s
  else
    let s := s.raise Cause.tbunlock 0
    let s := (s.setArm false).flushQueue.permitIdle
    let s := if s.running then s.fsqHalt else s
    let s := ((s.put F.TBS_STAT_LOCK 0).setStat F.SYS_STAT_TBLOCK false).closeLive
    (List.range 4).foldl (fun s a => if s.is (F.AXS_CTRL_EN a) then s.axisFault a 3 else s) s

/-- The meaning of TIMEBASE_UNLOCK. -/
def execTimebaseUnlock (s : State) : Host.Outcome State Fault Refusal := act s s.timebaseUnlock

/-! ### Parity-protected stores (R535, R612) -/

/-- A parity error in the item of group g's queue; a loss record stays one (R535) (open points: DESIGN CHOICE, log 90). -/
def State.parityEvent (s : State) (g i : Nat) : State :=
  let x := s.group g
  match x.queue[i]? with
  | some (.ev e) => s.setGroup g { x with queue := x.queue.set i (.ev { e with bad := true }) }
  | some (.loss _ _ _) => s.raise Cause.parity g
  | none => s

/-- A timed command that a parity error has struck (R535) (open points: DEDUCED, log 30). -/
def TCmd.struck (c : TCmd) : TCmd := match c.kind with
  | .parity _ => c
  | k => { c with kind := .parity k }

/-- A parity error in an input queue of the Decanter or of the Point Engines: a block, the staged dispatch of engine n (after the
blocks), a context of the context queue (after those) (R535) (open points: DESIGN CHOICE, log 90). -/
def State.parityBlock (s : State) (i : Nat) : State :=
  let n := s.dec.blocks.length
  if i < n then { s with dec := { s.dec with blocks := modAt s.dec.blocks i fun b => { b with bad := true } } }
  else if i < n + 16 then
    match (s.pe (i - n)).staged with
    | some d =>
      let s := s.setPe (i - n) { s.pe (i - n) with staged := none }
      let proc := if d.kind ≠ 2 then d.ctx.toList else []
      proc.foldl State.toReplay (s.raise Cause.parity 17 (proc := proc))
    | none => s
  else match s.pool.queue[i - n - 16]? with
    | some id =>
      ((s.raise Cause.parity 17 (proc := [id])).modCtx id fun c => { c with reprocess := true }).count (F.FLT_CNT_COUNT 3)
    | none => s

/-- The records of an own frame that is not sent: VC0 pixels go to processing replay, the others are lost (R535, R543)
(open points: DEDUCED, log 91). -/
def State.frameLoss (s : State) (f : Frame) : State :=
  let ids := if f.vc = 0 then ctxsOf f.items else []
  let s := s.raise Cause.parity 18 (proc := ids)
  let s := if f.mtx then { s.mtxNext with stl := { s.mtxNext.stl with mtxBusy := false } }.count (F.FLT_CNT_COUNT 10) else s
  let r := f.items.foldl (fun (a : State × List Item) i => let q := a.1.destroyItem f.vc i; (q.1, a.2 ++ q.2)) (s, [])
  let s := r.1
  if r.2.isEmpty then s
  else
    let js := s.stl.jobs.getD f.vc []
    let id := js.foldl (fun m j => max m j.id) 0 + 2 ^ 32
    (s.setJobs f.vc (⟨id, r.2, s.reg (scfgOff f.vc), .plain, s.dt⟩ :: js)).showBuf f.vc

/-- The frames of a channel in the frame queues: in progress on a lane (with the lane, and whether it is inserted), then forwarded
ones that wait. -/
def State.framesOf (s : State) (vc : Nat) : List (Frame × Option (Nat × Bool)) :=
  ((List.range 4).flatMap fun l =>
    (((s.txLane l).ins.toList.map fun f => (f, some (l, true))) ++ ((s.txLane l).cur.toList.map fun f => (f, some (l, false)))).filter
      fun x => x.1.vc = vc)
  ++ ((s.stl.fwd.getD vc []).map fun f => (f, none))

/-- A parity error in frame i of a channel: the frame is not sent (R535) (open points: DESIGN CHOICE, log 90; DEDUCED, log 91). -/
def State.parityFrame (s : State) (vc i : Nat) : State :=
  match (s.framesOf vc)[i]? with
  | some (f, some (l, true)) => (s.modTx l fun x => { x with ins := none }).frameLoss f
  | some (f, some (l, false)) => (s.modTx l fun x => { x with cur := none }).frameLoss f
  | some (f, none) =>
    let fw := dropFirst (fun x => x = f) (s.stl.fwd.getD vc [])
    ({ s with stl := { s.stl with fwd := s.stl.fwd.setIfInBounds vc fw } }).frameLoss f
  | none => s

/-- The parity bit of a byte is wrong: an odd number of its bits is struck (open points: DESIGN CHOICE, log 90). -/
def parityWrong (upset : List (Fin 36 × Byte)) : Bool :=
  (List.range 36).any fun j =>
    popcount 8 ((upset.filter fun x => x.1.val = j).foldl (fun (b : Byte) x => b ^^^ x.2) 0#8).toNat % 2 = 1

/-! ### The scrubber (R39) -/

/-- Where a partial copy lies in histogram memory until the work that reads it is done (R140, R155): waiting for a lane, in a lane's pass, in a
block, or in a dispatch. -/
inductive PartLoc where
  | waiting (i : Nat)
  | lane (l : Nat)
  | block (i : Nat)
  | work (n : Nat)
  | staged (n : Nat)
  | returned (i : Nat)
  deriving DecidableEq, Repr

/-- The partial copy at a place. -/
def State.partAt (s : State) : PartLoc → Option Partial
  | .waiting i => s.pool.parts[i]?
  | .lane l => (s.dec.lanes.getD l none).bind fun x => x.part
  | .block i => (s.dec.blocks[i]?).bind fun b => b.part
  | .work n => (s.pe n).work.bind fun d => d.part
  | .staged n => (s.pe n).staged.bind fun d => d.part
  | .returned i => (s.seq.returned[i]?).bind fun d => d.part

/-- The places that hold a copy, those that wait for a lane first. -/
def State.partLocs (s : State) : List PartLoc :=
  let engines := List.range 16
  ((List.range s.pool.parts.length).map PartLoc.waiting ++ engines.map PartLoc.lane
    ++ (List.range s.dec.blocks.length).map PartLoc.block ++ engines.map PartLoc.work ++ engines.map PartLoc.staged
    ++ (List.range s.seq.returned.length).map PartLoc.returned).filter fun x => (s.partAt x).isSome

/-- The copy at a place replaced. -/
def State.setPart (s : State) (x : PartLoc) (p : Partial) : State := match x with
  | .waiting i => { s with pool := { s.pool with parts := modAt s.pool.parts i fun _ => p } }
  | .lane l => { s with dec := { s.dec with
      lanes := s.dec.lanes.setIfInBounds l ((s.dec.lanes.getD l none).map fun (y : Pass) => { y with part := some p }) } }
  | .block i => { s with dec := { s.dec with blocks := modAt s.dec.blocks i fun b => { b with part := some p } } }
  | .work n => s.setPe n { s.pe n with work := (s.pe n).work.map fun d => { d with part := some p } }
  | .staged n => s.setPe n { s.pe n with staged := (s.pe n).staged.map fun d => { d with part := some p } }
  | .returned i => { s with seq := { s.seq with returned := modAt s.seq.returned i fun d => { d with part := some p } } }

/-- The early pass of a copy that cannot be read is dropped, and no early record is released any more (R543): a dispatch that runs loses its
context (open points: DEDUCED, log 91). -/
def State.dropPart (s : State) (x : PartLoc) : State := match x with
  | .waiting i => { s with pool := { s.pool with parts := s.pool.parts.eraseIdx i } }
  | .lane l => match s.dec.lanes.getD l none with
    | some y => (s.setLane l none).modCtx y.ctx fun c => { c with earlyRun := false }
    | none => s
  | .block i => { s with dec := { s.dec with blocks := s.dec.blocks.eraseIdx i } }
  | .work n => s.setPe n { s.pe n with work := (s.pe n).work.map fun d => { d with ctx := none } }
  | .staged n => s.setPe n { s.pe n with staged := none }
  | .returned i => { s with seq := { s.seq with returned := s.seq.returned.eraseIdx i } }

/-- Word w of the i-th partial copy is read. -/
def State.scrubPart (s : State) (i w : Nat) : State :=
  match s.partLocs[i]? with
  | some x => match s.partAt x with
    | some p =>
      let r := s.readPartWord p w
      if r.2.2 then r.1.setPart x r.2.1 else r.1.dropPart x
    | none => s
  | none => s

/-- The read of a scrubbed word, corrected or with its outcome. A parity-protected store is not scrubbed
(open points: DESIGN CHOICE, log 90; DEDUCED, log 91). -/
def State.scrub (s : State) : ScrubLoc → State
  | .bar2 a => if (memIndex a.toNat).isSome then s.readAny (a.toNat / 32) else s
  | .buf vc i => if i < (s.bufItems vc.toNat).length then s.readBufItem vc.toNat i else s.readUnused vc.toNat i
  | .part i w => s.scrubPart i w
  | _ => s

/-- Syndromes that errors add. -/
def syndromes (upset : List (Fin 36 × Byte)) : Word := upset.foldl (fun w x => w ^^^ errorSyndrome x.1.val x.2) 0#32

/-- A register is always there; the queue of held records holds an item while its work has emitted one (R353, R612)
(open points: DEDUCED, log 103). -/
def State.holdsItem (s : State) (e : Eng) (r : Nat) : Bool := r ≠ heldQueue || match e with
  | .fsq => false
  | .pe n => match (s.pe n.val).work with
    | some d => !d.points.isEmpty
    | none => false

/-- Upsets strike a word, or a parity-protected item; they stay until a read meets them (open points: DESIGN CHOICE, log 90)
(open points: DEDUCED, log 103). -/
def State.strike (s : State) (loc : ScrubLoc) (upset : List (Fin 36 × Byte)) : State := match loc with
  | .bar2 a => if (memIndex a.toNat).isSome then upset.foldl (fun s x => s.upset (a.toNat / 32) x.1.val x.2) s else s
  | .buf vc i =>
    if i < (s.bufItems vc.toNat).length then s.modBufItem vc.toNat i fun it =>
      { it with data := flipBytes (upset.map fun x => (x.1.val, x.2)) it.data, errs := it.errs ^^^ syndromes upset }
    else s.setUnused vc.toNat i (s.unusedErrs vc.toNat i ^^^ syndromes upset)
  | .part i w =>
    match s.partLocs[i]? with
    | some x => match s.partAt x with
      | some p => if w < 98 then
          s.setPart x (p.flip w (upset.map fun y => (y.1.val, y.2)) (FMap.get (fun _ => 0#32) p.errs w ^^^ syndromes upset)) else s
      | none => s
    | none => s
  | .event g i => if parityWrong upset then s.parityEvent g.val i else s
  | .timed i => if parityWrong upset then s.setQ (modAt s.emi.tq i TCmd.struck) else s
  | .block i => if parityWrong upset then s.parityBlock i else s
  | .frame vc i => if parityWrong upset then s.parityFrame vc.toNat i else s
  | .reg e r => if parityWrong upset && s.holdsItem e r then
      s.setEng e { s.eng e with bad := r :: (s.eng e).bad.filter (· ≠ r) } else s

/-- SCRUB_READ: the scrubber reads a word and corrects it where needed; upsets that strike it then wait for the next read; a
complete pass is counted (R37, R39, R40, R544) (open points: DESIGN CHOICE, log 90). -/
def execScrubRead (loc : ScrubLoc) (upset : List (Fin 36 × Byte)) (passEnd : Bool) (s : State) : Host.Outcome State Fault Refusal :=
  act s (let s := (s.scrub loc).strike loc upset
    if passEnd then s.count (F.FLT_CNT_COUNT 8) else s)

/-! ### The fabric rate monitor (R33) -/

/-- MONITOR_WINDOW_END: SYS_FABRATE and SYS_FABMIN take the handshakes of the window (open points: DESIGN CHOICE, log 23). -/
def execMonitorWindowEnd (count : BitVec 16) (s : State) : Host.Outcome State Fault Refusal :=
  act s (if s.is F.SYS_STAT_TBLOCK then
      let s := (s.put F.SYS_FABRATE_RATE count.toNat).put F.SYS_FABRATE_VALID 1
      s.put F.SYS_FABMIN_MIN (min (s.get F.SYS_FABMIN_MIN) count.toNat)
    else s)

end Sys2Proof.Machine
end

