-- ==== Sys2Proof/Machine/Company.lean ====
section
/-!
DEFINITION. Units in company (R562 to R575): the frame marker, the markers of the suspect-event ring, the notice unit, and the
block's register rules.
-/
namespace Sys2Proof.Machine

/-! ### The frame marker (R565, R566) -/

/-- A stable rising edge on SYNC_IN whose leading transition came at t: accepted, or refused for spacing (R565)
(open points: DEDUCED, log 92). -/
def State.syncEdge (s : State) (t : Nat) : State :=
  if !s.is F.SYS_STAT_TBLOCK then s
  else
    let soon : Bool := match s.fle.syncs.head? with
      | some l => t < l + 1600000 * s.get F.FLE_SYNC_MINSP
      | none => false
    let s := (s.at t).feed 1 0 (coarseStamp t)
    if soon then s.count (F.FLE_CNT_COUNT 1)
    else { s with fle := { s.fle with syncs := t :: s.fle.syncs } }.count (F.FLE_CNT_COUNT 0)

/-- SYNC_EDGE (R565). -/
def execSyncEdge (t : Nat) (s : State) : Host.Outcome State Fault Refusal := act s (s.syncEdge t)

/-! ### Correlation windows (R568, R569) -/

/-- The marker entry of window w (R569). -/
def markerEntry (w drops : Nat) : List Byte := leBytes 8 (16000000 * w) ++ leBytes 4 w ++ leBytes 2 (min drops 65535) ++ leBytes 2 16384

/-- Window w starts, once; its marker is written where an entry of the ring is free, whether events are captured or not (R568, R569)
(open points: DEDUCED, log 22; DEDUCED, log 92). -/
def State.windowStart (s : State) (w : Nat) : State :=
  if !s.is F.SYS_STAT_TBLOCK || w < s.fle.begun then s
  else
    let s := s.at (16000000 * w)
    let s := { s with fle := { s.fle with window := w, begun := w + 1, captured := [] } }
    if !s.is F.FLE_SSIZE_SIZE then s
    else if s.suspectFree = 0 then s.count (F.FLE_CNT_COUNT 3)
    else
      let s := s.suspectPut (markerEntry w s.fle.drops)
      { s with fle := { s.fle with drops := 0 } }

/-- CORRELATION_WINDOW_START (R569). -/
def execCorrelationWindowStart (w : Nat) (s : State) : Host.Outcome State Fault Refusal := act s (s.windowStart w)

/-! ### Notices (R570 to R575) -/

/-- Coarse ticks of a report window, and between slot times (R571). -/
abbrev reportTicks : Nat := 1638400000
abbrev slotTicks : Nat := 25600000

/-- The slot time of report window n (R571). -/
def State.slotTime (s : State) (n : Nat) : Nat := reportTicks * n + s.get F.FLE_UID_UID % 64 * slotTicks

/-- The first report window whose slot time is not before t (R572). -/
def State.windowOf (s : State) (t : Nat) : Nat := if t ≤ s.slotTime (t / reportTicks) then t / reportTicks else t / reportTicks + 1

/-- A field of a record image: n bytes from byte o. -/
def imageField (img : List Byte) (o n : Nat) : Nat := leNat ((img.drop o).take n)

/-- A candidate that is ignored (R570) (open points: DEDUCED, log 93). -/
def State.candidateBad (s : State) (img : List Byte) : Bool :=
  let kind := imageField img 1 1
  (kind ≠ 1 && kind ≠ 2) || (kind = 1 && imageField img 2 2 = s.get F.FLE_UID_UID)
    || 2048 ≤ imageField img 2 2 || 512 ≤ imageField img 20 2 || imageField img 22 2 ≠ 0

/-- One column comes before another, frames compared modulo 65,536 (open points: DEDUCED, log 93). -/
def colBefore (a b : Nat × Nat) : Bool := if a.1 = b.1 then a.2 < b.2 else (b.1 + 65536 - a.1) % 65536 < 32768

/-- A candidate as a notice of its own: COLLAST below COLFIRST lies in the frame after (R572) (open points: DEDUCED, log 93). -/
def noticeOf (img : List Byte) (window first : Nat) : Notice :=
  let kind := imageField img 1 1
  let frame := imageField img 12 2
  let a := imageField img 8 2
  let b := imageField img 10 2
  ⟨kind, if kind = 1 then imageField img 2 2 else 0, window, imageField img 16 2, imageField img 18 2, imageField img 20 2, frame, first,
    (frame, a), (if b < a then (frame + 1) % 65536 else frame, b), 1⟩

/-- A candidate merged into the pending notice of its key (R572) (open points: DEDUCED, log 93). -/
def Notice.merge (x y : Notice) : Notice :=
  let x := if x.score < y.score then { x with peak := y.peak, score := y.score, chan := y.chan } else x
  { x with
    colFirst := if colBefore y.colFirst x.colFirst then y.colFirst else x.colFirst
    colLast := if colBefore x.colLast y.colLast then y.colLast else x.colLast
    detect := x.detect + 1 }

/-- A notice has a key in a report window. -/
def Notice.isFor (x y : Notice) : Bool := x.kind = y.kind && x.auid = y.auid && x.window = y.window

/-- A candidate is handed to the notice unit (R570, R572, R573) (open points: DEDUCED, log 93). -/
def State.candidate (s : State) (img : List Byte) : State :=
  if s.candidateBad img then s.count (F.FLE_CNT_COUNT 7)
  else
    let s := s.count (F.FLE_CNT_COUNT 5)
    let y := noticeOf img (s.windowOf s.dt) (s.dt % 2 ^ 32)
    if s.fle.notices.any fun x => x.isFor y then
      { s with fle := { s.fle with notices := modFirst (fun x => x.isFor y) (fun x => x.merge y) s.fle.notices } }.count
        (F.FLE_CNT_COUNT 6)
    else if y.kind = 1 && 64 ≤ (s.fle.notices.filter fun x => x.kind = 1 && x.window = y.window).length then
      s.count (F.FLE_CNT_COUNT 10)
    else { s with fle := { s.fle with notices := s.fle.notices ++ [y] } }

/-- The bytes of a notice at its hand-over (R575). -/
def State.noticeBytes (s : State) (x : Notice) : List Byte :=
  leBytes 1 0x0B ++ leBytes 1 x.kind ++ leBytes 2 x.auid ++ leBytes 2 (s.get F.FLE_UID_UID) ++ leBytes 2 x.window ++ leBytes 2 x.colFirst.2
    ++ leBytes 2 x.colLast.2 ++ leBytes 2 x.frame ++ leBytes 2 (min 65535 x.detect) ++ leBytes 2 x.peak ++ leBytes 2 x.score
    ++ leBytes 2 x.chan ++ leBytes 2 0 ++ leBytes 4 x.first ++ leBytes 4 s.dt

/-- A notice in its place: by window, then ALIEN before UNIDENTIFIED, ascending AUID (R574). -/
def insertNotice (x : Notice) : List Notice → List Notice
  | [] => [x]
  | y :: l =>
    let key : Notice → Nat := fun z => (z.window * 4 + z.kind) * 2048 + z.auid
    if key y ≤ key x then y :: insertNotice x l else x :: y :: l

/-- One notice handed to VC3 and counted (R574) (open points: DEDUCED, log 93). -/
def State.handNotice (s : State) (x : Notice) : State :=
  let s := (s.handOn 3 (Item.of (s.noticeBytes x))).count (F.FLE_CNT_COUNT (if x.kind = 1 then 8 else 9))
  ((s.put F.FLE_NLAST_WINDOW x.window).put F.FLE_NLAST_KIND x.kind).put F.FLE_NLAST_AUID x.auid

/-- The slot time of report window n: its pending notices are handed on (R574) (open points: DEDUCED, log 93). -/
def State.reportSlot (s : State) (n : Nat) : State :=
  if !s.is F.SYS_STAT_TBLOCK then s
  else
    let s := s.at (s.slotTime n)
    let due := (s.fle.notices.filter fun x => x.window ≤ n).foldl (fun l x => insertNotice x l) []
    let s := { s with fle := { s.fle with notices := s.fle.notices.filter fun (x : Notice) => n < x.window } }
    if due.isEmpty then s else (due.foldl State.handNotice s).event 18

/-- REPORT_SLOT (R574). -/
def execReportSlot (n : Nat) (s : State) : Host.Outcome State Fault Refusal := act s (s.reportSlot n)

/-! ### Registers -/

/-- A write to FLE_UID or FLE_SEED (R562). -/
def State.planWrite (s : State) (src : Src) (off : Nat) (v : Word) : State :=
  if s.is F.SEQ_STAT_RUN || s.is F.EMI_STAT_ARMED then s.ignoreReg src off else s.setReg off v

/-- The suspect-event ring lies in shared memory, aligned to 16 bytes (R569). -/
def susFits (base size : Nat) : Bool := base % 16 = 0 && 0x400000 ≤ base && base + 16 * size ≤ 0x800000

/-- A write to FLE_SBASE or FLE_SSIZE (R569). -/
def State.susRingWrite (s : State) (src : Src) (off base size : Nat) : State :=
  if s.is F.FLE_SUS_EN || !susFits base size || (1 ≤ size && size ≤ 3) then s.ignoreReg src off
  else ((s.put F.FLE_SBASE_BASE base).put F.FLE_SSIZE_SIZE size).setReg F.FLE_SIDX_SPROD.off 0#32

/-- A write to FLE_SIDX (open points: DEDUCED, log 92). -/
def State.susIdxWrite (s : State) (src : Src) (v : Word) : State :=
  let c := F.FLE_SIDX_SCONS.of v
  if s.get F.FLE_SSIZE_SIZE ≤ c then s.ignoreReg src F.FLE_SIDX_SCONS.off else s.put F.FLE_SIDX_SCONS c

end Sys2Proof.Machine
end

