-- ==== Sys2Proof/Machine/Flags.lean ====
section
/-!
DEFINITION. Predicates, conditions, saturation and the status bits of the engines' instructions (R347, R373, R378, R384, R385).
-/
namespace Sys2Proof.Machine

/-- A predicate register read; Q0 reads 1 (R373). -/
def Engine.qBit (g : Engine) (i : Nat) : Bool := i % 8 = 0 || g.q.getLsbD (i % 8)

/-- The predicate of an instruction (R373). -/
def Engine.holds (g : Engine) (p : Pred) : Bool := g.qBit p.q.toNat != p.neg

/-- A condition over two words (R378). -/
def condHolds (c : Cond) (a b : Word) : Bool := match c with
  | .eq => a = b
  | .ne => a ≠ b
  | .lt => a.slt b
  | .ge => !a.slt b
  | .ltu => a.ult b
  | .geu => !a.ult b

/-- The function of PLOG: AND, OR, XOR, AND NOT (R379). -/
def plogOf (fn : BitVec 2) (a b : Bool) : Bool := match fn.toNat with
  | 0 => a && b
  | 1 => a || b
  | 2 => a != b
  | _ => a && !b

/-- A number limited to 32 bits (R397). -/
def sat32 (x : Int) : Word := BitVec.ofInt 32 (satInt 32 x)

/-- A number fits 72 bits. -/
def fits72 (x : Int) : Bool := -(2 ^ 71 : Nat) ≤ x && x < (2 ^ 71 : Nat)

/-- The status after an accumulator operation produced a number: one outside 72 bits sets AOV and DSAT (R347). -/
def Engine.accFlags (g : Engine) (x : Int) : Engine := if fits72 x then g else { g with aov := true, dsat := true }

/-- The status after a MOVA result: one outside 32 bits sets MSAT only (R347). -/
def Engine.movaFlags (g : Engine) (x : Int) : Engine := if satInt 32 x = x then g else { g with msat := true }

/-- AOVT of PE_MODE. -/
def Engine.aovt (g : Engine) : Bool := g.mode.getLsbD 7

/-- PE_STAT. -/
def Engine.stat (g : Engine) : Word :=
  BitVec.ofNat 32 (65536 * b01 (g.loops.any fun (l : LoopLv) => l.rot) + 8192 * g.loops.length + 256 * g.rrb + 16 * g.tcause
    + 8 * b01 g.intrap + 4 * b01 g.dsat + 2 * b01 g.msat + b01 g.aov)

/-- FSTAT (R385). -/
def Engine.fstat (g : Engine) : Word := BitVec.ofNat 32 (16 * g.tcause + 8 * b01 g.intrap)

/-- A write of STAT: its 1s clear MSAT and AOV (R385). -/
def Engine.clearStat (g : Engine) (v : Word) : Engine :=
  { g with msat := g.msat && !v.getLsbD 1, aov := g.aov && !v.getLsbD 0 }

end Sys2Proof.Machine
end

