-- ==== Sys2Proof/Machine/Operands.lean ====
section
/-!
DEFINITION. The operands of the engines' instructions and how an instruction issues: registers by logical number (R344), parity
(R612), immediates (R379), fetch (R375, R376), predicates (R373), counts (R356) and traps (R360, R386).
-/
namespace Sys2Proof.Machine

/-! ### Registers -/

/-- The physical number of a general register (R344). -/
def Engine.phys (g : Engine) (r : Nat) : Nat := if r < 32 then r else 32 + (r - 32 + g.rrb) % 32

/-- A general register read. -/
def Engine.rd (g : Engine) (r : Nat) : Word := g.d.getD (g.phys r) 0#32

/-- A general register written; an error in it is gone (R612). -/
def Engine.wr (g : Engine) (r : Nat) (v : Word) : Engine :=
  { g with d := g.d.setIfInBounds (g.phys r) v, bad := g.bad.filter fun x => x ≠ g.phys r }

/-- An accumulator read, as a number. -/
def Engine.rdA (g : Engine) (n : Nat) : Int := (g.a.getD n 0#72).toInt

/-- An accumulator takes a number limited to 72 bits, with its status (R347). -/
def Engine.wrA (g : Engine) (n : Nat) (x : Int) : Engine :=
  { g.accFlags x with a := g.a.setIfInBounds n (BitVec.ofInt 72 (satInt 72 x)), bad := g.bad.filter fun x => x ≠ 64 + n }

/-- An address register read. -/
def Engine.rdP (g : Engine) (n : Nat) : Word := g.p.getD n 0#32

/-- An address register written. -/
def Engine.wrP (g : Engine) (n : Nat) (v : Word) : Engine :=
  { g with p := g.p.setIfInBounds n v, bad := g.bad.filter fun x => x ≠ 80 + n }

/-- The numbers under which parity keeps registers (R612): general ones, accumulators, address registers. -/
def Engine.genNos (g : Engine) (rs : List Nat) : List Nat := rs.map g.phys

/-- Consecutive general registers. -/
def span (r n : Nat) : List Nat := (List.range n).map fun i => r + i

/-! ### Immediates (R379, R388, R397, R405) -/

/-- The words of an instruction with an optional extension. -/
def extLen (x : Option Word) : Nat := if x.isSome then 2 else 1

/-- A sign-extended immediate, or the extension that replaces it (open points: DEDUCED, log 68). -/
def immVal {w : Nat} : Imm w → Word
  | .short v => v.signExtend 32
  | .ext v => v

/-- The words of an instruction with an immediate. -/
def immLen {w : Nat} (i : Imm w) : Nat := extLen i.extWord

/-- A loop count, and the register that it is read from. -/
def Engine.countVal (g : Engine) : LoopCount → Word
  | .reg rc => g.rd rc.toNat
  | .imm v => v

/-- The registers that a loop count reads. -/
def countReads : LoopCount → List Nat
  | .reg rc => [rc.toNat]
  | .imm _ => []

/-- The second operand of an ALU instruction (open points: DEDUCED, log 68). -/
def Engine.aluVal (g : Engine) : AluSrc → Word
  | .reg rb => g.rd rb.toNat
  | .imm6 v => v.signExtend 32
  | .ext v => v

/-- The registers that it reads. -/
def aluReads : AluSrc → List Nat
  | .reg rb => [rb.toNat]
  | _ => []

/-- The words of an ALU instruction. -/
def aluLen : AluSrc → Nat
  | .ext _ => 2
  | _ => 1

/-- The amount of a shift: R[RB][5:0] or IMM6 (open points: DEDUCED, log 68). -/
def Engine.shiftVal (g : Engine) : ShSrc → Nat
  | .reg rb => (g.rd rb.toNat).toNat % 64
  | .imm6 v => v.toNat

/-- The registers that it reads. -/
def shiftReads : ShSrc → List Nat
  | .reg rb => [rb.toNat]
  | .imm6 _ => []

/-- The second operand of CMP. -/
def Engine.cmpVal (g : Engine) : CmpSrc → Word
  | .reg rb => g.rd rb.toNat
  | .ext v => v

/-- The registers that it reads. -/
def cmpReads : CmpSrc → List Nat
  | .reg rb => [rb.toNat]
  | .ext _ => []

/-- The words of a CMP. -/
def cmpLen : CmpSrc → Nat
  | .reg _ => 1
  | .ext _ => 2

/-! ### Issue -/

/-- The engine can issue: the FSQ runs and neither stalls nor waits; a Point Engine has work whose budget is not spent (R31, R212,
R339, R353) (open points: DESIGN CHOICE, log 96). -/
def State.mayIssue (s : State) : Eng → Bool
  | .fsq => s.running && s.seq.fsq.stall.isNone && s.seq.fsq.wait.isNone
  | .pe n => (s.pe n.val).work.isSome && !s.spent n.val

/-- A trap of either kind of engine (open points: DEDUCED, log 67). -/
def State.trap (s : State) (e : Eng) (cause : Nat) (own : Bool) (mem : Option Nat) (tpc : Nat) : State := match e with
  | .fsq => s.fsqTrap cause tpc
  | .pe n => s.peTrap n.val cause own mem tpc

/-- A trap of the instruction at PC, of len words: execution would have continued at the next index, with any back-edge applied
(R386) (open points: DEDUCED, log 67). -/
def State.trapAt (s : State) (e : Eng) (len cause : Nat) (own : Bool := false) (mem : Option Nat := none) : State :=
  let g := (s.eng e).next len
  (s.setEng e { g with pc := (s.eng e).pc }).trap e cause own mem g.pc

/-- An issued instruction counts against the budget of a Point Engine's work (R356). -/
def State.counted (s : State) : Eng → State
  | .fsq => s
  | .pe n => s.setPe n.val { s.pe n.val with eng := { (s.pe n.val).eng with count := (s.pe n.val).eng.count + 1 } }

/-- The instruction at PC is done with these registers; execution goes on after it (R376, R382). -/
def State.goOn (s : State) (e : Eng) (g : Engine) (len : Nat) : State := s.setEng e (g.next len)

/-- The memory of an engine's bank, by the numbers of R543. -/
def bankMem : Eng → Nat
  | .fsq => 1
  | .pe _ => 2

/-- An instruction of len words issues on an engine. Its words are fetched from the bank in use (R40, R376, R543); a fault of R605
takes the ILLEGAL trap whatever the predicate; with a false predicate nothing else happens (R373); a register that it reads with a
parity error takes the PARITY trap (R612); else it has its effect
(open points: DESIGN CHOICE, log 1; DEDUCED, log 67; DESIGN CHOICE, log 96). -/
def State.issue (s : State) (e : Eng) (p : Pred) (len : Nat) (ok : Bool) (reads : Engine → List Nat)
    (effect : State → Engine → State) : State :=
  if !s.mayIssue e then s
  else if bankWords e < (s.eng e).pc + len then s.trapAt e len 4
  else
    let a := s.wordAt e (s.eng e).pc
    let t := s.touchRange a (4 * len)
    if !s.rangeOk a (4 * len) then t.trapAt e len 5 true (some (bankMem e))
    else
      let t := t.counted e
      let g := t.eng e
      if !ok then t.trapAt e len 3
      else if !g.holds p then t.goOn e g len
      else if (reads g).any fun r => g.bad.contains r then t.trapAt e len 6
      else effect t g

/-- An instruction that reads general registers and changes nothing but registers of its engine. -/
def State.regOp (s : State) (e : Eng) (p : Pred) (len : Nat) (ok : Bool) (rs : List Nat) (f : Engine → Engine) : State :=
  s.issue e p len ok (fun g => g.genNos rs) fun s g => s.goOn e (f g) len

end Sys2Proof.Machine
end

