-- ==== Sys2Proof/Machine/Dsp.lean ====
section
/-!
DEFINITION. The DSP instructions on general registers: ALU, shifts, NORM, EXPB, CMP, SEL, multiplies and divisions (R397 to R400).
-/
namespace Sys2Proof.Machine

/-- An ALU instruction (R397). -/
def State.alu (s : State) (e : Eng) (p : Pred) (rd ra : BitVec 6) (b : AluSrc) (ok : Bool) (f : Word → Word → Word) : State :=
  s.regOp e p (aluLen b) ok (ra.toNat :: aluReads b) fun g => g.wr rd.toNat (f (g.rd ra.toNat) (g.aluVal b))

/-- ADD (R397). -/
def execAdd (e : Eng) (p : Pred) (rd ra : BitVec 6) (b : AluSrc) (s : State) : Host.Outcome State Fault Refusal :=
  act s (s.alu e p rd ra b (legal (.add e p rd ra b)) fun x y => x + y)

/-- SUB (R397). -/
def execSub (e : Eng) (p : Pred) (rd ra : BitVec 6) (b : AluSrc) (s : State) : Host.Outcome State Fault Refusal :=
  act s (s.alu e p rd ra b (legal (.sub e p rd ra b)) fun x y => x - y)

/-- ADDS (R397). -/
def execAdds (e : Eng) (p : Pred) (rd ra : BitVec 6) (b : AluSrc) (s : State) : Host.Outcome State Fault Refusal :=
  act s (s.alu e p rd ra b (legal (.adds e p rd ra b)) fun x y => sat32 (x.toInt + y.toInt))

/-- SUBS (R397). -/
def execSubs (e : Eng) (p : Pred) (rd ra : BitVec 6) (b : AluSrc) (s : State) : Host.Outcome State Fault Refusal :=
  act s (s.alu e p rd ra b (legal (.subs e p rd ra b)) fun x y => sat32 (x.toInt - y.toInt))

/-- AND (R397). -/
def execAnd (e : Eng) (p : Pred) (rd ra : BitVec 6) (b : AluSrc) (s : State) : Host.Outcome State Fault Refusal :=
  act s (s.alu e p rd ra b (legal (.iAnd e p rd ra b)) fun x y => x &&& y)

/-- OR (R397). -/
def execOr (e : Eng) (p : Pred) (rd ra : BitVec 6) (b : AluSrc) (s : State) : Host.Outcome State Fault Refusal :=
  act s (s.alu e p rd ra b (legal (.iOr e p rd ra b)) fun x y => x ||| y)

/-- XOR (R397). -/
def execXor (e : Eng) (p : Pred) (rd ra : BitVec 6) (b : AluSrc) (s : State) : Host.Outcome State Fault Refusal :=
  act s (s.alu e p rd ra b (legal (.iXor e p rd ra b)) fun x y => x ^^^ y)

/-- A shift (R397, R398). -/
def State.shift (s : State) (e : Eng) (p : Pred) (rd ra : BitVec 6) (b : ShSrc) (ok : Bool) (f : Word → Nat → Word) : State :=
  s.regOp e p 1 ok (ra.toNat :: shiftReads b) fun g => g.wr rd.toNat (f (g.rd ra.toNat) (g.shiftVal b))

/-- SHL (R398). -/
def execShl (e : Eng) (p : Pred) (rd ra : BitVec 6) (b : ShSrc) (s : State) : Host.Outcome State Fault Refusal :=
  act s (s.shift e p rd ra b (legal (.shl e p rd ra b)) fun x n => x <<< n)

/-- SHR (R398). -/
def execShr (e : Eng) (p : Pred) (rd ra : BitVec 6) (b : ShSrc) (s : State) : Host.Outcome State Fault Refusal :=
  act s (s.shift e p rd ra b (legal (.shr e p rd ra b)) fun x n => x >>> n)

/-- SHRA (R398). -/
def execShra (e : Eng) (p : Pred) (rd ra : BitVec 6) (b : ShSrc) (s : State) : Host.Outcome State Fault Refusal :=
  act s (s.shift e p rd ra b (legal (.shra e p rd ra b)) fun x n => x.sshiftRight n)

/-- SHLS: the exact value R[RA] × 2^amount, limited to 32 bits (R398). -/
def execShls (e : Eng) (p : Pred) (rd ra : BitVec 6) (b : ShSrc) (s : State) : Host.Outcome State Fault Refusal :=
  act s (s.shift e p rd ra b (legal (.shls e p rd ra b)) fun x n => sat32 (x.toInt * 2 ^ n))

/-- The bits below the sign bit that equal it, from bit i − 1 down (R400). -/
def signRun {w : Nat} (v : BitVec w) : Nat → Nat
  | 0 => 0
  | i + 1 => if v.getLsbD i = v.msb then signRun v i + 1 else 0

/-- NORM's count (R400). -/
def normOf {w : Nat} (v : BitVec w) : Nat := signRun v (w - 1)

/-- The parity numbers of NORM's source. -/
def Engine.normReads (g : Engine) : NormSrc → List Nat
  | .reg ra => g.genNos [ra.toNat]
  | .acc an => [64 + an.toNat]

/-- NORM of its source. -/
def Engine.normVal (g : Engine) : NormSrc → Nat
  | .reg ra => normOf (g.rd ra.toNat)
  | .acc an => normOf (g.a.getD an.toNat 0#72)

/-- NORM (R397, R400). -/
def execNorm (e : Eng) (p : Pred) (rd : BitVec 6) (src : NormSrc) (s : State) : Host.Outcome State Fault Refusal :=
  act s (s.issue e p 1 (legal (.norm e p rd src)) (fun g => g.normReads src) fun s g =>
    s.goOn e (g.wr rd.toNat (BitVec.ofNat 32 (g.normVal src))) 1)

/-- The least count over a block of registers (R400). -/
def Engine.blockNorm (g : Engine) (ra n : Nat) : Nat := ((span ra n).map fun r => normOf (g.rd r)).foldl min 31

/-- EXPB: with N = 0 it has no effect and is counted (R400). -/
def execExpb (e : Eng) (p : Pred) (rd ra n : BitVec 6) (s : State) : Host.Outcome State Fault Refusal :=
  act s (s.issue e p 1 (legal (.expb e p rd ra n)) (fun g => g.genNos (span ra.toNat n.toNat)) fun s g =>
    if n.toNat = 0 then (s.count (F.SEQ_CNT_COUNT 7)).goOn e g 1
    else s.goOn e (g.wr rd.toNat (BitVec.ofNat 32 (g.blockNorm ra.toNat n.toNat))) 1)

/-- CMP (R378, R397). -/
def execCmp (e : Eng) (p : Pred) (qd : BitVec 3) (cond : Cond) (ra : BitVec 6) (b : CmpSrc) (s : State) :
    Host.Outcome State Fault Refusal :=
  act s (s.regOp e p (cmpLen b) (legal (.cmp e p qd cond ra b)) (ra.toNat :: cmpReads b) fun g =>
    g.setQ qd.toNat (condHolds cond (g.rd ra.toNat) (g.cmpVal b)))

/-- SEL (R397). -/
def execSel (e : Eng) (p : Pred) (rd ra rb : BitVec 6) (qp : BitVec 3) (s : State) : Host.Outcome State Fault Refusal :=
  act s (s.regOp e p 1 (legal (.sel e p rd ra rb qp)) [ra.toNat, rb.toNat] fun g =>
    g.wr rd.toNat (if g.qBit qp.toNat then g.rd ra.toNat else g.rd rb.toNat))

/-- An instruction on two registers (R397, R399). -/
def State.twoReg (s : State) (e : Eng) (p : Pred) (rd ra rb : BitVec 6) (ok : Bool) (f : Word → Word → Word) : State :=
  s.regOp e p 1 ok [ra.toNat, rb.toNat] fun g => g.wr rd.toNat (f (g.rd ra.toNat) (g.rd rb.toNat))

/-- MUL (R397). -/
def execMul (e : Eng) (p : Pred) (rd ra rb : BitVec 6) (s : State) : Host.Outcome State Fault Refusal :=
  act s (s.twoReg e p rd ra rb (legal (.mul e p rd ra rb)) fun x y => x * y)

/-- MULS (R397). -/
def execMuls (e : Eng) (p : Pred) (rd ra rb : BitVec 6) (s : State) : Host.Outcome State Fault Refusal :=
  act s (s.twoReg e p rd ra rb (legal (.muls e p rd ra rb)) fun x y => sat32 (x.toInt * y.toInt))

/-- MULHS (R397). -/
def execMulhs (e : Eng) (p : Pred) (rd ra rb : BitVec 6) (s : State) : Host.Outcome State Fault Refusal :=
  act s (s.twoReg e p rd ra rb (legal (.mulhs e p rd ra rb)) fun x y => BitVec.ofInt 32 ((x.toInt * y.toInt).fdiv (2 ^ 32)))

/-- Signed division, with its corners (R399). -/
def divOf (x y : Word) : Word :=
  if y = 0#32 then (if x.msb then 0x80000000#32 else 0x7FFFFFFF#32)
  else if x = 0x80000000#32 && y = 0xFFFFFFFF#32 then 0x7FFFFFFF#32
  else BitVec.ofInt 32 (x.toInt.tdiv y.toInt)

/-- DIV (R399). -/
def execDiv (e : Eng) (p : Pred) (rd ra rb : BitVec 6) (s : State) : Host.Outcome State Fault Refusal :=
  act s (s.twoReg e p rd ra rb (legal (.div e p rd ra rb)) divOf)

/-- Unsigned division (R399). -/
def divuOf (x y : Word) : Word := if y = 0#32 then 0xFFFFFFFF#32 else x / y

/-- DIVU (R399). -/
def execDivu (e : Eng) (p : Pred) (rd ra rb : BitVec 6) (s : State) : Host.Outcome State Fault Refusal :=
  act s (s.twoReg e p rd ra rb (legal (.divu e p rd ra rb)) divuOf)

end Sys2Proof.Machine
end

