-- ==== Sys2Proof/Machine/Hostif.lean ====
section
/-!
DEFINITION. The host interface (14_host_interface.md): command queues, their rings and completions, MSI-X, power states, link
and hot reset.
-/
namespace Sys2Proof.Machine

/-! ### Queues -/

/-- The command in progress on queue q, or whose completion waits. -/
def State.cmd (s : State) (q : Nat) : Option QueueCmd := s.hifx.cmds.getD q none

/-- SIZE of queue q. -/
def State.qsize (s : State) (q : Nat) : Nat := s.get (F.HIF_QCFG_SIZE q)

/-- The CQ of queue q has a free entry (R491, R498). -/
def State.cqFree (s : State) (q : Nat) : Bool :=
  (s.get (F.HIF_CQSTAT_TAIL q) + 1) % max 1 (s.qsize q) ≠ s.get (F.HIF_CQSTAT_HEAD q)

/-- A command of queue q waits for its completion to be written. -/
def State.cmdDone (s : State) (q : Nat) : Bool := match s.cmd q with
  | some c => c.done.isSome
  | none => false

/-- HIF_SQSTATq.BUSY and HIF_CQSTATq.FULL follow the queue (R494, R498). -/
def State.showQueue (s : State) (q : Nat) : State :=
  (s.putB (F.HIF_SQSTAT_BUSY q) ((s.cmd q).isSome || s.hifx.stopping.getD q false)).putB (F.HIF_CQSTAT_FULL q)
    (s.cmdDone q && !s.cqFree q)

/-- The command of queue q replaced. -/
def State.setCmd (s : State) (q : Nat) (c : Option QueueCmd) : State :=
  { s with hifx := { s.hifx with cmds := s.hifx.cmds.setIfInBounds q c } }.showQueue q

/-- A write to BAR4 ignored. -/
def State.ignoreBar4 (s : State) (src : Src) (off : Nat) : State := s.ignore .bar4 (src = .postmaster) off

/-- A doorbell write that R495 or R496 ignores: also counted in HIF_CNT3. -/
def State.ignoreBell (s : State) (src : Src) (off : Nat) : State := (s.ignoreBar4 src off).count (F.HIF_CNT_COUNT 3)

/-- (a - b) mod n. -/
def ringDist (a b n : Nat) : Nat := (a + n - b) % max 1 n

/-- The new tail T of queue q (R495). In SOLO, writes to BAR4 are ignored (R490). -/
def State.sqBell (s : State) (src : Src) (q t : Nat) : State :=
  let n := s.qsize q
  let head := s.get (F.HIF_SQSTAT_HEAD q)
  if s.solo then s.ignoreBar4 src (0x1000 * q)
  else if !s.is (F.HIF_QCFG_EN q) || n ≤ t || ringDist t head n < ringDist (s.get (F.HIF_SQSTAT_TAIL q)) head n then
    s.ignoreBell src (0x1000 * q)
  else s.put (F.HIF_SQSTAT_TAIL q) t

/-- SQ_DOORBELL (R495). -/
def execSqDoorbell (src : Src) (q : Fin 8) (v : Word) (s : State) : Host.Outcome State Fault Refusal :=
  actBy src s (s.sqBell src q v.toNat)

/-- The new head H of queue q's CQ (R496). -/
def State.cqBell (s : State) (src : Src) (q h : Nat) : State :=
  let n := s.qsize q
  let old := s.get (F.HIF_CQSTAT_HEAD q)
  if s.solo then s.ignoreBar4 src (0x1000 * q + 4)
  else if !s.is (F.HIF_QCFG_EN q) || n ≤ h || ringDist (s.get (F.HIF_CQSTAT_TAIL q)) old n < ringDist h old n then
    s.ignoreBell src (0x1000 * q + 4)
  else (s.put (F.HIF_CQSTAT_HEAD q) h).showQueue q

/-- CQ_DOORBELL (R496). -/
def execCqDoorbell (src : Src) (q : Fin 8) (v : Word) (s : State) : Host.Outcome State Fault Refusal :=
  actBy src s (s.cqBell src q v.toNat)

/-- The offset of HIF_QCFGq. -/
def qcfgOff (q : Nat) : Nat := 0x4110 + 32 * q

/-- A queue is enabled with both rings empty (R493). -/
def State.startQueue (s : State) (q : Nat) (v : Word) : State :=
  let s := ((s.setReg (qcfgOff q) (v &&& 0x9FFFFFFF#32)).setReg (qcfgOff q + 4) 0#32).setReg (qcfgOff q + 8) 0#32
  { s.put (F.HIF_CQSTAT_PHASE q) 1 with hifx := { s.hifx with
      cmds := s.hifx.cmds.setIfInBounds q none, stopping := s.hifx.stopping.setIfInBounds q false
      unsig := s.hifx.unsig.setIfInBounds q 0 } }

/-- A queue that is to stop, and has no command any more, has stopped (R494) (open points: DEDUCED, log 83). -/
def State.stopQueue (s : State) (q : Nat) : State :=
  if s.hifx.stopping.getD q false && (s.cmd q).isNone then
    ({ s with hifx := { s.hifx with stopping := s.hifx.stopping.setIfInBounds q false } }.put (F.HIF_QCFG_EN q) 0).showQueue q
  else s

/-- A write of HIF_QCFGq (R492 to R494). In SOLO, writes to HIF registers are ignored (R490). -/
def State.qcfgWrite (s : State) (src : Src) (q : Nat) (v : Word) : State :=
  let off := qcfgOff q
  let en := (F.HIF_QCFG_EN q).isOf v
  let size := (F.HIF_QCFG_SIZE q).of v
  let on := s.is (F.HIF_QCFG_EN q)
  let changes := (v ^^^ s.reg off) &&& 0x1FFFFFFF#32 ≠ 0#32
  if s.solo || (en && (size < 2 || 4096 < size)) || (on && changes) then s.ignoreReg src off
  else if en then (if on then s else s.startQueue q v)
  else if on then { s with hifx := { s.hifx with stopping := s.hifx.stopping.setIfInBounds q true } }.stopQueue q |>.showQueue q
  else s.setReg off (v &&& 0x1FFFFFFF#32)

/-- QUEUE_ENABLE: a write of HIF_QCFGq with EN = 1 (R492, R493). -/
def execQueueEnable (src : Src) (q : Fin 8) (v : Word) (s : State) : Host.Outcome State Fault Refusal :=
  actBy src s (s.qcfgWrite src q (v ||| 0x80000000#32))

/-- QUEUE_DISABLE: a write of HIF_QCFGq with EN = 0 (R494). -/
def execQueueDisable (src : Src) (q : Fin 8) (v : Word) (s : State) : Host.Outcome State Fault Refusal :=
  actBy src s (s.qcfgWrite src q (v &&& 0x7FFFFFFF#32))

/-- A write of a base register: its low part is bits [31:12] (R491). While EN is 1, a change is ignored (R492). -/
def State.qbaseWrite (s : State) (src : Src) (q off : Nat) (v : Word) : State :=
  if s.solo || (s.is (F.HIF_QCFG_EN q) && v ≠ s.reg off) then s.ignoreReg src off else s.setReg off v

/-! ### Commands -/

/-- n bytes of an entry from byte i, as a number. -/
def entryField (e : List Byte) (i n : Nat) : Nat := leNat ((e.drop i).take n)

/-- Whether a command passes the check of R500. -/
def State.cmdOk (s : State) (e : List Byte) : Bool :=
  let op := entryField e 0 1
  let haddr := entryField e 8 8
  let doff := entryField e 16 4
  let len := entryField e 20 4
  let writes := op = 2 || op = 4
  let region := match rangeRegion doff len with
    | some r => !(writes && r.readOnly) && !(writes && s.anyRefused doff len)
    | none => false
  1 ≤ op && op ≤ 4 && entryField e 1 3 = 0 && entryField e 28 36 = 0
    && (op = 1 || (len ≠ 0 && len % 4 = 0 && len ≤ 16777216 && doff % 4 = 0 && (op = 4 || haddr % 4 = 0) && region))

/-- The commands in progress, of all queues (R497). -/
def State.cmdsRunning (s : State) : Nat :=
  (s.hifx.cmds.toList.filter fun c => match c with
    | some c => c.done.isNone
    | none => false).length

/-- The endpoint may use DMA (R488, R489) (open points: DEDUCED, log 83). -/
def State.mayDma (s : State) : Bool := !s.solo && s.hifx.bme && !s.hifx.d3

/-- A queue has a command that it may start: it is enabled and does not stop, has none in progress, and one is submitted (R494, R495,
R497, R498). -/
def State.queueReady (s : State) (q : Nat) : Bool :=
  s.is (F.HIF_QCFG_EN q) && !s.hifx.stopping.getD q false && (s.cmd q).isNone
    && s.get (F.HIF_SQSTAT_HEAD q) ≠ s.get (F.HIF_SQSTAT_TAIL q)

/-- The queues that have work: a command in progress, or one that waits. -/
def State.queuesBusy (s : State) : Nat := ((List.range 8).filter fun q => s.queueReady q || (s.cmd q).isSome).length

/-- The turn is queue q's: while more than four queues have commands, a free engine takes the first ready queue from the turn on, in
ascending order and round (R497) (open points: DEDUCED, log 83). -/
def State.queueTurn (s : State) (q : Nat) : Bool :=
  s.queuesBusy ≤ 4 || (((List.range 8).map fun i => (s.hifx.turn + i) % 8).find? s.queueReady) = some q

/-- A queue takes its next command, checks it and starts it, or ignores it (R497, R500) (open points: DEDUCED, log 83). -/
def State.takeCommand (s : State) (q : Nat) (e : List Byte) : State :=
  let head := s.get (F.HIF_SQSTAT_HEAD q)
  if !s.queueReady q || !s.mayDma || 4 ≤ s.cmdsRunning || !s.queueTurn q then s
  else
    let op := entryField e 0 1
    let s := { s with hifx := { s.hifx with turn := (q + 1) % 8 } }
    let s' := s.put (F.HIF_SQSTAT_HEAD q) ((head + 1) % max 1 (s.qsize q))
    if s.cmdOk e then
      s'.setCmd q (some ⟨op, entryField e 4 4, entryField e 8 8, entryField e 16 4, entryField e 20 4, entryField e 24 4, 0, none⟩)
    else s'.ignore .command false (256 * q + op)

/-- COMMAND_START (R500). -/
def execCommandStart (q : Fin 8) (entry : Vector Byte 64) (s : State) : Host.Outcome State Fault Refusal :=
  act s (s.takeCommand q entry.toList)

/-- The command of queue q, when it runs with an opcode; in D3hot queue processing waits (R488). -/
def State.running? (s : State) (q op : Nat) : Option QueueCmd := match s.cmd q with
  | some c => if c.opcode = op && c.done.isNone && !s.hifx.d3 then some c else none
  | none => none

/-- A command ends with STATUS (R504). -/
def State.endCmd (s : State) (q : Nat) (c : QueueCmd) (status : Nat) : State := s.setCmd q (some { c with done := some status })

/-- COMMAND_NOP: it completes at once (R499). -/
def execCommandNop (q : Fin 8) (s : State) : Host.Outcome State Fault Refusal :=
  act s (match s.running? q 1 with
    | some c => s.endCmd q c 1
    | none => s)

/-- Words of a range whose write is refused: they are protected, or lie in an uncorrectable word that the write covers in part
(R38, R501) (open points: DEDUCED, log 83). -/
def State.refusedWords (s : State) (a : Nat) (bs : List Byte) : Nat :=
  let bad := s.badParts a bs
  ((List.range (bs.length / 4)).filter fun i =>
    s.refused (a + 4 * i) || (s.destsOf (a + 4 * i)).any fun b => bad.contains (b / 32)).length

/-- A WRITE or FILL puts its data, word by word; words that have become protected are left out and counted (R501)
(open points: DEDUCED, log 83). -/
def State.transfer (s : State) (q : Nat) (c : QueueCmd) (data : List Byte) : State × QueueCmd :=
  let n := s.refusedWords c.doff data
  let s' := (s.putBar2 c.doff data).countN (F.HIF_CNT_COUNT 2) n
  (if n = 0 then s' else s'.ignore .command false (256 * q + c.opcode), { c with result := c.result + n })

/-- COMMAND_WRITE: host memory is copied to BAR2 (R499, R501). Without Bus Master Enable, it waits (R489)
(open points: DESIGN CHOICE, log 98). -/
def execCommandWrite (q : Fin 8) (data : List Byte) (s : State) : Host.Outcome State Fault Refusal :=
  act s (match s.running? q 2 with
    | some c =>
      if s.mayDma && data.length = c.len then
        let r := s.transfer q c data
        r.1.endCmd q r.2 1
      else s
    | none => s)

/-- COMMAND_FILL: the pattern is written over a range (R499, R501). -/
def execCommandFill (q : Fin 8) (s : State) : Host.Outcome State Fault Refusal :=
  act s (match s.running? q 4 with
    | some c =>
      let r := s.transfer q c ((List.range (c.len / 4)).flatMap fun _ => leBytes 4 c.pattern)
      r.1.endCmd q r.2 1
    | none => s)

/-- COMMAND_READ: a BAR2 range is copied to host memory; protected words read as uncorrectable are counted (R499, R502)
(open points: DEDUCED, log 83). -/
def execCommandRead (q : Fin 8) (s : State) : Host.Outcome State Fault Refusal :=
  act s (match s.running? q 3 with
    | some c =>
      if s.mayDma then
        let bad := ((wordsOf (readAt c.doff) c.len).filter fun w => !s.wordOk w).length
        let seen := s.seenBytes c.doff c.len
        let s := ((s.readBar2 c.doff c.len).drawRead c.doff c.len).out (.hostWrite c.haddr seen false false)
        s.endCmd q { c with result := bad } 1
      else s
    | none => s)

/-- How the endpoint reports a failed DMA read (R503): a completion with Unsupported Request or Completer Abort sets Received Master or
Target Abort, poisoned data sets Detected Parity Error and is an AER error, and so is a completion timeout (PRESUMED, log 104). -/
def State.reportDma (s : State) : DmaErr → State
  | .unsupported => s.setCfg 1 (s.cfg 1 ||| 0x20000000#32)
  | .aborted => s.setCfg 1 (s.cfg 1 ||| 0x10000000#32)
  | .poisoned => (s.setCfg 1 (s.cfg 1 ||| 0x80000000#32)).aerError 12 0#32
  | .timeout => s.aerError 14 0#32

/-- DMA_ERROR: a DMA read of host memory fails after some data; the command stops with HOSTERR, and the error is reported (R503)
(open points: DEDUCED, log 83). -/
def execDmaError (q : Fin 8) (x : DmaFail) (s : State) : Host.Outcome State Fault Refusal :=
  act s (match s.running? q 2 with
    | some c =>
      if s.mayDma && x.data.length < c.len && x.data.length % 4 = 0 then
        let r := s.transfer q c x.data
        ((r.1.count (F.HIF_CNT_COUNT 1)).endCmd q r.2 2).reportDma x.err
      else s
    | none => s)

/-! ### Completions and messages -/

/-- The host address of a CQ (R491). -/
def State.cqBase (s : State) (q : Nat) : Nat := s.get (F.HIF_CQBASELO q) + 2 ^ 32 * s.get (F.HIF_CQBASEHI q)

/-- Unsignalled completions of a queue replaced. -/
def State.setUnsig (s : State) (q n : Nat) : State := { s with hifx := { s.hifx with unsig := s.hifx.unsig.setIfInBounds q n } }

/-- The completion entry of a command (R504). -/
def State.completion (s : State) (q : Nat) (c : QueueCmd) (status : Nat) : List Byte :=
  leBytes 4 c.tag ++ leBytes 2 (s.get (F.HIF_SQSTAT_HEAD q)) ++ leBytes 1 q ++ leBytes 1 status ++ leBytes 4 c.result
    ++ leBytes 3 0 ++ leBytes 1 (s.get (F.HIF_CQSTAT_PHASE q))

/-- A completion written when the CQ has a free entry (R498, R505, R511). -/
def State.complete (s : State) (q : Nat) : State :=
  match s.cmd q with
  | some c => match c.done with
    | some status =>
      if !s.cqFree q || !s.mayDma then s
      else
        let tail := s.get (F.HIF_CQSTAT_TAIL q)
        let s := (s.out (.hostWrite (s.cqBase q + 16 * tail) (s.completion q c status) false false)).count (F.HIF_CNT_COUNT 0)
        let next := (tail + 1) % max 1 (s.qsize q)
        let s := s.put (F.HIF_CQSTAT_TAIL q) next
        let s := if next = 0 then s.put (F.HIF_CQSTAT_PHASE q) (1 - s.get (F.HIF_CQSTAT_PHASE q)) else s
        let n := s.hifx.unsig.getD q 0 + 1
        let agg := s.get (F.HIF_QCFG_CQAGG q)
        let s := (s.setUnsig q n).setCmd q none
        let s := if 1 ≤ agg && agg ≤ n then (s.setUnsig q 0).msg q else s
        s.stopQueue q
    | none => s
  | none => s

/-- COMPLETION_WRITE (R498). -/
def execCompletionWrite (q : Fin 8) (s : State) : Host.Outcome State Fault Refusal := act s (s.complete q)

/-- CQ_MESSAGE_TIMER: CQTIME µs after the oldest unsignalled completion (R511). -/
def execCqMessageTimer (q : Fin 8) (s : State) : Host.Outcome State Fault Refusal :=
  act s (if s.is (F.HIF_QCFG_CQTIME q) && s.hifx.unsig.getD q 0 ≠ 0 then (s.setUnsig q 0).msg q else s)

/-- A write to HIF_EVEN: each bit set while its cause is pending sends one message (R509). -/
def State.evenWrite (s : State) (src : Src) (v : Word) : State :=
  if s.solo then s.ignoreReg src 0x4014
  else
    let v := v &&& 0x3FFF00#32
    let rise := v &&& ~~~(s.reg 0x4014) &&& s.reg 0x4010 &&& 0x3FFE00#32
    (setBits 22 rise.toNat).foldl State.msg (s.setReg 0x4014 v)

/-- EVENT_ENABLE_WRITE (R509). -/
def execEventEnableWrite (src : Src) (v : Word) (s : State) : Host.Outcome State Fault Refusal := actBy src s (s.evenWrite src v)

/-- A write to HIF_EVSTAT clears causes (W1C). -/
def State.evstatWrite (s : State) (src : Src) (v : Word) : State :=
  if s.solo then s.ignoreReg src 0x4010 else s.setReg 0x4010 (s.reg 0x4010 &&& ~~~v)

/-- The mask bit of vector v written; a message held for it is sent once it is clear (R486, R510) (open points: PRESUMED, log 11). -/
def State.setMask (s : State) (v : Nat) (on : Bool) : State :=
  if on then { s with hifx := { s.hifx with mask := s.hifx.mask ||| 2 ^ v } }
  else if bit s.hifx.mask v then { s with hifx := { s.hifx with mask := s.hifx.mask - 2 ^ v } }.flushMsgs
  else s

/-- A write to a word of the MSI-X table: address, with its low two bits 0, data, or the vector's mask bit (R486)
(open points: PRESUMED, log 11). -/
def State.msixWrite (s : State) (off : Nat) (v : Word) : State :=
  if off % 16 = 12 then s.setMask (off / 16) (v.getLsbD 0)
  else
    let w := if off % 16 = 0 then v &&& 0xFFFFFFFC#32 else v
    { s with hifx := { s.hifx with table := FMap.set (fun _ => 0#32) s.hifx.table (off / 4) w } }

/-- MSIX_UNMASK: a write that clears a vector's mask bit; the message held for it is sent (R486, R510). -/
def execMsixUnmask (vec : Fin 32) (s : State) : Host.Outcome State Fault Refusal :=
  actBy .host s (if s.solo then s.ignoreBar4 .host (0x8000 + 16 * vec + 12) else s.setMask vec.val false)

/-! ### BAR4 and configuration space (R477 to R481, R486) -/

/-- A write of `size` bytes to BAR4 (R486): doorbells, and the words of the MSI-X table; one to the PBA, which is read only, has no
effect. Beyond its 64 KiB no BAR matches (R480, R481) (open points: PRESUMED, log 11). -/
def State.bar4Write (s : State) (src : Src) (off size : Nat) (v : Word) : State :=
  if 0x10000 ≤ off then s.unsupported
  else if s.solo || size ≠ 4 || off % 4 ≠ 0 then s.ignoreBar4 src off
  else if off < 0x8000 && off % 0x1000 = 0 then s.sqBell src (off / 0x1000) v.toNat
  else if off < 0x8000 && off % 0x1000 = 4 then s.cqBell src (off / 0x1000) v.toNat
  else if 0x8000 ≤ off && off < 0x8200 then s.msixWrite (off - 0x8000) v
  else if off = 0xC000 || off = 0xC004 then s
  else s.ignoreBar4 src off

/-- A word of BAR4 as it reads (R486): a doorbell 0, a word of the MSI-X table, the PBA; none where the access is ignored
(open points: PRESUMED, log 11). -/
def State.bar4Word (s : State) (off : Nat) : Option Nat :=
  if off < 0x8000 && (off % 0x1000 = 0 || off % 0x1000 = 4) then some 0
  else if 0x8000 ≤ off && off < 0x8200 then
    some (if off % 16 = 12 then b01 (bit s.hifx.mask ((off - 0x8000) / 16)) else s.msixWord ((off - 0x8000) / 4))
  else if off = 0xC000 then some (s.hifx.pba % 2 ^ 32)
  else if off = 0xC004 then some 0
  else none

/-- A read of `size` bytes in BAR4; an ignored one returns 0 (R11, R486). -/
def State.bar4Read (s : State) (src : Src) (off size : Nat) : State :=
  if 0x10000 ≤ off then s.refusedRead
  else match (if s.solo || size ≠ 4 || off % 4 ≠ 0 then none else s.bar4Word off) with
    | some v => { s with lastRead := leBytes 4 v }
    | none => { s.ignoreBar4 src off with lastRead := leBytes size 0 }

/-- A word of configuration space as it reads: Bus Master Enable, the power state, the negotiated link and the serial number stand elsewhere
in the state (R477, R479, R488, R489) (open points: PRESUMED, log 104). -/
def State.cfgRead (s : State) (i : Nat) : Word :=
  s.cfg i ||| BitVec.ofNat 32 (
    if i = 1 then 4 * b01 s.hifx.bme
    else if i = 2 then s.get F.SYS_REV_MINOR
    else if i = 17 then 3 * b01 s.hifx.d3
    else if i = 28 then (s.get F.HIF_STAT_SPEED + 16 * s.get F.HIF_STAT_WIDTH) * 2 ^ 16
    else if i = 83 then s.get F.SYS_SERIALLO_SERIAL
    else if i = 84 then s.get F.SYS_SERIALHI_SERIAL
    else 0)

/-- The part enters D3hot or returns to D0, and the link L1 with it (R477, R488) (open points: PRESUMED, log 104). -/
def State.setPower (s : State) (d3 : Bool) : State :=
  { s.putB F.HIF_STAT_L1 (d3 && s.is F.HIF_STAT_UP) with hifx := { s.hifx with d3 := d3 } }.flushMsgs

/-- Bus Master Enable changes (R489). -/
def State.setBme (s : State) (on : Bool) : State := { s with hifx := { s.hifx with bme := on } }.flushMsgs

/-- A word of configuration space written (R479): its RW and W1C bits, Bus Master Enable, MSI-X and the power state; D1 and D2 are not there
(open points: PRESUMED, log 104). -/
def State.cfgPut (s : State) (i : Nat) (v : Word) : State :=
  let r := cfgRow (4 * i)
  let rw := BitVec.ofNat 32 r.rw
  let s := s.setCfg i (((s.cfg i &&& ~~~rw) ||| (v &&& rw)) &&& ~~~(v &&& BitVec.ofNat 32 r.w1c))
  if i = 1 then s.setBme (v.getLsbD 2)
  else if i = 17 then (match v.toNat % 4 with
    | 0 => s.setPower false
    | 3 => s.setPower true
    | _ => s)
  else if i = 20 then s.flushMsgs
  else s

/-- A configuration write of 1, 2 or 4 aligned bytes; the other bytes of the word keep their values, and are no ones of a W1C field
(R479). In SOLO the endpoint does not train (R3), and the Postmaster has no such access (R354) (open points: PRESUMED, log 104). -/
def State.cfgWrite (s : State) (src : Src) (off size : Nat) (v : Word) : State :=
  if s.solo || src ≠ .host || 4096 ≤ off || !([1, 2, 4].contains size) || off % size ≠ 0 then s
  else
    let i := off / 4
    let m : Word := BitVec.ofNat 32 (2 ^ (8 * size) - 1) <<< (8 * (off % 4))
    s.cfgPut i (((s.cfgRead i &&& ~~~BitVec.ofNat 32 (cfgRow (4 * i)).w1c) &&& ~~~m) ||| ((v <<< (8 * (off % 4))) &&& m))

/-- A configuration read of 1, 2 or 4 aligned bytes (R479) (open points: PRESUMED, log 104). -/
def State.cfgReadCmd (s : State) (src : Option Src) (off size : Nat) : State :=
  if s.solo || src ≠ some .host || 4096 ≤ off || !([1, 2, 4].contains size) || off % size ≠ 0 then s
  else { s with lastRead := leBytes size ((s.cfgRead (off / 4)).toNat / 2 ^ (8 * (off % 4))) }

/-! ### Link, reset, power -/

/-- PCIE_LINK_UP: SYS_STAT.PCIEUP and HIF_STAT change (R508). In SOLO, the endpoint does not train (R3)
(open points: DEDUCED, log 84). -/
def execPcieLinkUp (speed width : BitVec 4) (s : State) : Host.Outcome State Fault Refusal :=
  act s (if s.solo || speed = 0#4 || 3#4 < speed || !([1, 2, 4, 8].contains width.toNat) then s
    else (((s.put F.HIF_STAT_SPEED speed.toNat).put F.HIF_STAT_WIDTH width.toNat).put F.HIF_STAT_UP 1).setStat F.SYS_STAT_PCIEUP true)

/-- The HIF registers at their reset values (R487) (open points: DEDUCED, log 84). -/
def State.resetHif (s : State) : State := { s with regs := s.regs.filter fun e => !(0x4000 ≤ e.1 && e.1 < 0x8000) }

/-- HOT_RESET: configuration space and HIF are reset, commands abandoned, messages discarded, and nothing else: the MSI-X table in BAR4
stays (R487) (open points: DEDUCED, log 84). -/
def execHotReset (s : State) : Host.Outcome State Fault Refusal :=
  act s (if s.solo then s
    else { (s.putB F.SYS_STAT_PCIEUP false).resetHif with
      hifx := { State.reset.hifx with table := s.hifx.table, mask := s.hifx.mask } })

/-- POWER_STATE_CHANGE: D3hot, or back to D0 (R488). -/
def execPowerStateChange (d3 : Bool) (s : State) : Host.Outcome State Fault Refusal :=
  act s (if s.solo then s else s.setPower d3)

/-- BME_CHANGE: Bus Master Enable changes (R489). -/
def execBmeChange (on : Bool) (s : State) : Host.Outcome State Fault Refusal :=
  act s (if s.solo then s else s.setBme on)

end Sys2Proof.Machine
end

