-- ==== Sys2Proof/Machine/SysRegs.lean ====
section
/-!
DEFINITION. Reads and writes of the BAR0 registers (R9 to R13, R606, R608): the access types of the register map, and for each
register that a rule singles out, that rule.
-/
namespace Sys2Proof.Machine

/-! ### Writes -/

/-- A register with its RW bits taken from a write and its W1C bits cleared by ones (R9, R10). -/
def RegDesc.written (d : RegDesc) (old v : Word) : Word :=
  let rw := BitVec.ofNat 32 d.rw
  ((old &&& ~~~rw) ||| (v &&& rw)) &&& ~~~(v &&& BitVec.ofNat 32 d.w1c)

/-- A write by the access types alone. -/
def State.plainWrite (s : State) (d : RegDesc) (off : Nat) (v : Word) : State := s.setReg off (d.written (s.reg off) v)

/-- A plain write, ignored as a whole where a field is out of its range (R606). -/
def State.checkedWrite (s : State) (src : Src) (d : RegDesc) (off : Nat) (v : Word) (bad : Bool) : State :=
  if bad then s.ignoreReg src off else s.plainWrite d off v

/-- A write to SEQ_PESTATn: a 1 clears AOV or MSAT, in PE_STAT too. -/
def State.pestatWrite (s : State) (n : Nat) (v : Word) : State :=
  if h : n < 16 then
    let g := (s.pe n).eng
    let g := { g with aov := g.aov && !(F.SEQ_PESTAT_AOV n).isOf v, msat := g.msat && !(F.SEQ_PESTAT_MSAT n).isOf v }
    s.setEng (.pe ⟨n, h⟩) g
  else s

/-- A value that a field may not take, by the field's description. -/
def badValue (id : RegId) (v : Word) : Bool := match id with
  | .emiChcfg => 64 < F.EMI_CHCFG_LEN.of v
  | .emiFout => let w := (F.EMI_FOUT_WIDTH 0).of v; w < 2 || 64 < w
  | .rgpStcfg => (F.RGP_STCFG_PWIN 0).of v = 0
  | .ctxCfg => F.CTX_CFG_BINW.of v = 3
  | .ctxHwm =>
    let h := F.CTX_HWM_HIGH.of v
    h < 1024 || 31744 < h || h ≤ F.CTX_HWM_LOW.of v
  | .decEarly => let n := F.DEC_EARLY_SHOTS.of v; n < 1 || 8 < n
  | .pntCfg => 23 < F.PNT_CFG_ISH.of v
  | .pntZhold => (F.PNT_ZHOLD_HOLD 0).of v = 0
  | .calCfg =>
    let w := F.CAL_CFG_WMAX.of v
    let t := F.CAL_CFG_TSTEP.of v
    w < 20 || 64 < w || t < 8 || 128 < t
  | .calThr => F.CAL_THR_SSTEP.of v = 0 || F.CAL_THR_SLEW.of v = 0 || F.CAL_THR_KSIG.of v < 16
  | .calWalk => F.CAL_WALK_NUPD.of v = 0
  | .calEdly => let a := F.CAL_EDLY_ALPHA.of v; a < 2 || 12 < a
  | .axsFe => (F.AXS_FE_FETIME 0).of v = 0
  | .axsRes => 31 < (F.AXS_RES_KTR 0).of v
  | .snsCfg => let n := F.SNS_CFG_STEP.of v; n < 10 || 1000 < n
  | .seqWtmo => v = 0#32
  | .seqBgbud => 1024 < F.SEQ_BGBUD_BG.of v
  | .fltRwait => let n := F.FLT_RWAIT_RMAX.of v; n < 1 || 1000 < n
  | .fleSync => F.FLE_SYNC_MINSP.of v = 0
  | .fleSus => F.FLE_SUS_MAXW.of v = 0
  | _ => false

/-- A write to EMI_FOUTn: what the output's EN was is kept for fires before the write (R46, R48). -/
def State.foutWrite (s : State) (src : Src) (d : RegDesc) (i off : Nat) (v : Word) : State :=
  if badValue .emiFout v then s.ignoreReg src off
  else (s.putKept (F.EMI_FOUT_EN i) ((F.EMI_FOUT_EN i).of v)).plainWrite d off v

/-- A write to EMI_CHCFG: what LGUARD was is kept for fires before the write (R66). -/
def State.chcfgWrite (s : State) (src : Src) (d : RegDesc) (off : Nat) (v : Word) : State :=
  if badValue .emiChcfg v then s.ignoreReg src off
  else (s.putKept F.EMI_CHCFG_LGUARD (F.EMI_CHCFG_LGUARD.of v)).plainWrite d off v

/-- A write to CAL_WALK: with EN = 0 no probe runs, one in progress included, and its events enter no sum (R248). -/
def State.walkWrite (s : State) (src : Src) (d : RegDesc) (off : Nat) (v : Word) : State :=
  if badValue .calWalk v then s.ignoreReg src off
  else
    let s := s.plainWrite d off v
    if F.CAL_WALK_EN.isOf v then s
    else { s with pool := { s.pool with probes := Vector.replicate 16 none } }

/-- A write to an assigned register, i and j its indices; at the present device time where its rule needs one. -/
def State.writeDesc (s : State) (src : Src) (d : RegDesc) (i : Nat) (off : Nat) (v : Word) : State := match d.id with
  | .emiCtrl => s.emiCtrlWrite src (F.EMI_CTRL_REARM.isOf v) (F.EMI_CTRL_ARM.isOf v)
  | .emiCfg => s.emiCfgWrite src v
  | .emiChcfg => s.chcfgWrite src d off v
  | .emiChctrl => s.chctrlWrite src v s.dt
  | .emiDrcfg => s.drcfgWrite src v
  | .emiAxmap => s.axmapWrite src i v
  | .emiFout => s.foutWrite src d i off v
  | .calWalk => s.walkWrite src d off v
  | .retCfg => s.retCfgWrite src i v
  | .retThr => s.thrWrite src i v
  | .rgpSpc => s.spcWrite src i v
  | .ctxCoin => s.coinWrite src i v
  | .decSel => s.decSelWrite src v
  | .decCheck => s.decCheckWrite src v
  | .pntZsel => s.zselWrite v
  | .calCtrl => if F.CAL_CTRL_LOAD.isOf v then s.calLoad src else s
  | .calReq => s.reqWrite src v s.dt
  | .calZwr => s.zwrWrite v
  | .axsCtrl => s.axisCtrl src i v
  | .axsTime => s.timeWrite src i v
  | .axsSens => s.sensWrite src i v
  | .axsTmin => s.travelWrite src i true v
  | .axsTmax => s.travelWrite src i false v
  | .axsVmax => s.axisHeld src i off (BitVec.ofNat 32 d.rw) v false
  | .axsAmax => s.axisHeld src i off (BitVec.ofNat 32 d.rw) v false
  | .axsSet => s.setWrite i v
  | .axsFtw => s.ftwWrite src i v
  | .axsRec => s.recWrite src i v
  | .axsSched => s.schedWrite src i v
  | .axsTrc => s.trcWrite src i v
  | .snsHkmask => s.hkWrite src i v
  | .snsConv => s.convWrite v
  | .snsChk => s.chkWrite v s.dt
  | .snsFmcfg => s.fmWrite src i v s.dt
  | .snsFmgate => s.meterHeld src i off (BitVec.ofNat 32 d.rw) v
  | .snsFmhys => s.meterHeld src i off (BitVec.ofNat 32 d.rw) v
  | .snsFmpost => s.stampPost i v s.dt
  | .seqCtrl => s.seqCtrl src v s.dt
  | .seqBank => s.bankWrite src v
  | .seqPestat => s.pestatWrite i v
  | .prsScfg => s.scfgWrite src (if i = 0 then 0 else 3) v
  | .prsHbase => s.ringWrite src off v.toNat (s.get F.PRS_HSIZE_SIZE)
  | .prsHsize => s.ringWrite src off (s.get F.PRS_HBASE_BASE) (F.PRS_HSIZE_SIZE.of v)
  | .prsHprod => s.hprodWrite src v
  | .stlCtrl => s.stlCtrl v
  | .stlCfg => s.stlCfgWrite src v
  | .stlHor => s.horWrite src v
  | .stlEi => s.eiWrite src v
  | .stlWrr => s.wrrWrite src v
  | .stlMrxbase => s.mgmtBaseWrite src F.STL_MRXBASE_BASE F.STL_MRXIDX_SIZE v
  | .stlMtxbase => s.mgmtBaseWrite src F.STL_MTXBASE_BASE F.STL_MTXIDX_SIZE v
  | .stlMrxidx => s.mgmtIdxWrite src F.STL_MRXBASE_BASE F.STL_MRXIDX_CONS F.STL_MRXIDX_PROD F.STL_MRXIDX_SIZE v
  | .stlMtxidx => s.mtxWrite src v
  | .hifEvstat => s.evstatWrite src v
  | .hifEven => s.evenWrite src v
  | .hifSqbaselo => s.qbaseWrite src i off (v &&& BitVec.ofNat 32 d.rw)
  | .hifSqbasehi => s.qbaseWrite src i off v
  | .hifCqbaselo => s.qbaseWrite src i off (v &&& BitVec.ofNat 32 d.rw)
  | .hifCqbasehi => s.qbaseWrite src i off v
  | .hifQcfg => s.qcfgWrite src i v
  | .tbsCtrl => s.tbsCtrlWrite src v
  | .tbsCfg => s.tbsCfgWrite src v
  | .tbsKhash => s.khashWrite src off v
  | .fleUid => s.planWrite src off (v &&& BitVec.ofNat 32 d.rw)
  | .fleSeed => s.planWrite src off v
  | .fleSbase => s.susRingWrite src off v.toNat (s.get F.FLE_SSIZE_SIZE)
  | .fleSsize => s.susRingWrite src off (s.get F.FLE_SBASE_BASE) (F.FLE_SSIZE_SIZE.of v)
  | .fleSidx => s.susIdxWrite src v
  | id => s.checkedWrite src d off v (badValue id v)

/-- A write of an aligned word to a BAR0 offset (R9 to R12, R490). The fault log is read only (R538)
(open points: DESIGN CHOICE, log 26). -/
def State.writeReg (s : State) (src : Src) (off : Nat) (v : Word) : State :=
  if off % 4 ≠ 0 then s.ignoreReg src off
  else if isLog off then s
  else match findReg off with
    | some (d, i, _) => if s.solo && 0x4000 ≤ off && off < 0x8000 then s.ignoreReg src off else s.writeDesc src d i off v
    | none => s.ignoreReg src off

/-- REGISTER_WRITE: of `size` bytes; any size but 4 is ignored in BAR0 and BAR4 (R9, R11, R12, R486). In D3hot the endpoint answers
configuration requests only (R488). -/
def execRegisterWrite (src : Src) (a : RegAddr) (size : Nat) (v : Word) (s : State) : Host.Outcome State Fault Refusal :=
  match a with
  | .bar0 off => actBy src s (if size = 4 then s.writeReg src off.toNat v else s.ignoreReg src off.toNat)
  | .bar4 off => actBy src s (s.bar4Write src off.toNat size v)
  | .config off => act s (s.cfgWrite src off.toNat size v)

/-! ### Reads -/

/-- The source of a reader whose reads are host accesses (R355, R608) (open points: DEDUCED, log 27). -/
def readerSrc : Reader → Option Src
  | .host => some .host
  | .postmaster => some .postmaster
  | .fsq => none
  | .pe _ => none

/-- What a read that is accepted changes: read-clear fields go back to their reset value, and a low word latches its high
register (R9) (open points: DEDUCED, log 27). -/
def State.readEffect (s : State) (d : RegDesc) (off : Nat) : State :=
  let rc := BitVec.ofNat 32 d.rc
  let s := if rc = 0#32 || s.hifHidden off then s
    else s.setReg off ((s.reg off &&& ~~~rc) ||| (BitVec.ofNat 32 d.reset &&& rc))
  match d.id with
  | .sysDtlo => s.setReg F.SYS_DTHI_DT.off (BitVec.ofNat 32 (s.dt / 2 ^ 32))
  | .seqTclo => s.setReg F.SEQ_TCHI_TC.off (BitVec.ofNat 32 (s.seq.fsq.tc / 2 ^ 32))
  | .fleSynclo => s.setReg F.FLE_SYNCHI_T.off (BitVec.ofNat 32 (s.fle.syncs.headD 0 / 2 ^ 32))
  | _ => s

/-- HIF_STAT.L1 as a read finds it (R477): outside D3hot, the link may rest in L1 where ASPM L1 is enabled and no access of the host
keeps it busy; when it enters is not stated, so whether it is there is a free value (open points: PRESUMED, log 104). -/
def State.linkLook (s : State) (src : Option Src) : State :=
  if s.solo || s.hifx.d3 then s
  else if s.is F.HIF_STAT_UP && (s.cfg 28).getLsbD 1 && src ≠ some .host then
    s.draw.putB F.HIF_STAT_L1 (s.fresh.getLsbD 0)
  else s.put F.HIF_STAT_L1 0

/-- What a read brings up to date first: the descriptors that PRS_STAT's LOCK bits report (R37, R422), and the link's power state
(R477) (open points: DEDUCED, log 75). -/
def State.beforeRead (s : State) (src : Option Src) (off : Nat) : State :=
  if off = F.PRS_STAT_FAIL.off then s.descTouch else if off = F.HIF_STAT_L1.off then s.linkLook src else s

/-- A read of `size` bytes at a BAR0 offset: the state after it and the value. An engine that is not the Postmaster changes nothing by
reading, and an access of its own that is not accepted is counted in SEQ_CNT7 (R11 to R13, R608)
(open points: DEDUCED, log 27). -/
def State.readReg (s : State) (src : Option Src) (off size : Nat) : State × Word :=
  let s := s.beforeRead src off
  match (if size = 4 then s.peek off else none) with
  | none => match src with
    | some src => (s.ignoreReg src off, 0#32)
    | none => (s.count (F.SEQ_CNT_COUNT 7), 0#32)
  | some v => match src, findReg off with
    | some _, some (d, _, _) => (s.readEffect d off, v)
    | _, _ => (s, v)

/-- A read in BAR0: what it returned is kept (DESIGN CHOICE, log 5). -/
def State.bar0Read (s : State) (rd : Reader) (off size : Nat) : State :=
  let r := s.readReg (readerSrc rd) off size
  { r.1 with lastRead := leBytes size r.2.toNat }

/-- A read command (R11 to R13, R479, R486, R488, R608): BAR4 and configuration space are the host's and the Postmaster's alone, as
R354 gives an engine no window on them (open points: DEDUCED, log 27) (open points: DESIGN CHOICE, log 5). -/
def State.readCmd (s : State) (rd : Reader) (size : Nat) : RegAddr → State
  | .config off => s.cfgReadCmd (readerSrc rd) off.toNat size
  | .bar0 off => if s.hears ((readerSrc rd).getD .postmaster) then s.bar0Read rd off.toNat size else s.refusedRead
  | .bar4 off => match readerSrc rd with
    | some src => if s.hears src then s.bar4Read src off.toNat size else s.refusedRead
    | none => s

/-- READ_CLEAR (R9, R13, R608). -/
def execReadClear (rd : Reader) (a : RegAddr) (s : State) : Host.Outcome State Fault Refusal := act s (s.readCmd rd 4 a)

/-- LATCHING_READ (R9). -/
def execLatchingRead (rd : Reader) (off : BitVec 20) (s : State) : Host.Outcome State Fault Refusal :=
  act s (s.readCmd rd 4 (.bar0 off))

/-- IGNORED_READ (R11, R12, R486). -/
def execIgnoredRead (rd : Reader) (a : RegAddr) (size : Nat) (s : State) : Host.Outcome State Fault Refusal := act s (s.readCmd rd size a)

end Sys2Proof.Machine
end

