-- ==== Sys2Proof/Machine/Access.lean ====
section
/-!
DEFINITION. Program addresses: the regions of R354 and the loads and stores of the engines in them (R354, R355, R387, R543, R608).
-/
namespace Sys2Proof.Machine

/-- What an access of an engine gives: the bytes read (none of a store), or a trap with its cause, whether the engine's own local
memory caused it, and the memory (R359, R362, R543). -/
inductive Access where
  | done (bytes : List Byte)
  | trap (cause : Nat) (own : Bool) (mem : Option Nat)
  deriving DecidableEq, Repr

/-- The engine runs the management program: it has the Postmaster's access (R354, R369) (open points: DEDUCED, log 69). -/
def State.manages (s : State) : Eng → Bool
  | .fsq => false
  | .pe n => match (s.pe n.val).work with
    | some d => d.kind = 5
    | none => false

/-- An ADDRESS trap. -/
def addressTrap : Access := .trap 4 false none

/-- A read of n bytes of memory m by an engine: MEMORY where a word is uncorrectable, but for the Cellar, whose stored bytes are
returned (R543) (open points: DEDUCED, log 69). -/
def State.readMem (s : State) (a n m : Nat) (own : Bool) : State × Access :=
  (s.readAnyRange a n, if s.rangeOk a n || m = 7 then .done (s.readAnyRange a n |>.bytes a n) else .trap 5 own (some m))

/-- A store to memory m by an engine: MEMORY where the read of a partly written word finds it uncorrectable (R38)
(open points: DEDUCED, log 69). -/
def State.writeMem (s : State) (a m : Nat) (own : Bool) (bs : List Byte) : State × Access :=
  (s.store a bs, if s.storeOk a bs.length then .done [] else .trap 5 own (some m))

/-- A load in the regions that every engine reads (R354, R608). -/
def State.loadCommon (s : State) (a n : Nat) : State × Access := match progRegion a with
  | some (.shared, o) => s.readMem o n 3 false
  | some (.regs, o) => ((s.readReg none o n).1, .done ((leBytes 4 (s.readReg none o n).2.toNat).take n))
  | some (.bar2 m, o) => s.readMem o n m false
  | none => (s, addressTrap)

/-- A load of n bytes at a program address, which is a multiple of n (R354, R355)
(open points: DEDUCED, log 27; DEDUCED, log 69). -/
def State.load (s : State) (e : Eng) (a n : Nat) : State × Access := match e with
  | .fsq => s.loadCommon a n
  | .pe k =>
    if a < 0x20000 then s.readMem (peBase k.val + a) n 2 true
    else if s.manages e then
      if 0x10000000 ≤ a && a < 0x10060000 then
        let r := s.readReg (some .postmaster) (a - 0x10000000) n
        (r.1, .done ((leBytes 4 r.2.toNat).take n))
      else if 0x20000000 ≤ a && a < 0x30000000 then
        let r := s.bar2Read .postmaster (a - 0x20000000) n
        (r.1, .done r.2)
      else s.loadCommon a n
    else if 0x30000 ≤ a && a < 0x30140 then
      match (s.pe k.val).work with
      | some d => (s, .done (((mailbox k.val d).drop (a - 0x30000)).take n))
      | none => (s, addressTrap)
    else s.loadCommon a n

/-- A store at a program address, which is a multiple of its size (R354, R355). One of the Postmaster's to a bank that R367 protects is
ignored and counted (open points: DEDUCED, log 69). -/
def State.save (s : State) (e : Eng) (a : Nat) (bs : List Byte) : State × Access :=
  if 0x400000 ≤ a && a < 0x800000 then s.writeMem a 3 false bs
  else match e with
    | .fsq => (s, addressTrap)
    | .pe k =>
      if 0x10000 ≤ a && a < 0x20000 then s.writeMem (peBase k.val + a) 2 true bs
      else if s.manages e then
        if a < 0x10000 then
          if s.localHeld k.val a then (s.ignore .bar2 true (peBase k.val + a), .done [])
          else s.writeMem (peBase k.val + a) 2 true bs
        else if 0x10000000 ≤ a && a < 0x10060000 then
          (if bs.length = 4 then s.writeReg .postmaster (a - 0x10000000) (BitVec.ofNat 32 (leNat bs))
            else s.ignoreReg .postmaster (a - 0x10000000), .done [])
        else if 0x20000000 ≤ a && a < 0x30000000 then (s.bar2Write .postmaster (a - 0x20000000) bs, .done [])
        else (s, addressTrap)
      else (s, addressTrap)

/-- A load of an instruction of len words: what is done with its bytes, or its trap (R387). -/
def State.loadThen (s : State) (e : Eng) (a n len : Nat) (f : State → List Byte → State) : State :=
  if a % n ≠ 0 then s.trapAt e len 4
  else match s.load e a n with
    | (s, .done bs) => f s bs
    | (s, .trap cause own mem) => s.trapAt e len cause own mem

/-- A store of an instruction of len words, and what follows it, or its trap (R387). -/
def State.saveThen (s : State) (e : Eng) (a : Nat) (bs : List Byte) (len : Nat) (f : State → State) : State :=
  if a % bs.length ≠ 0 then s.trapAt e len 4
  else match s.save e a bs with
    | (s, .done _) => f s
    | (s, .trap cause own mem) => s.trapAt e len cause own mem

end Sys2Proof.Machine
end

