-- ==== Sys2Proof/Machine/Emit.lean ====
section
/-!
DEFINITION. EMIT: the records that an engine hands on (R207, R217 to R220, R348, R353, R409, R410, R570).
-/
namespace Sys2Proof.Machine

/-- SAT of a record: the image's, the engine's DSAT, or the block's (R206, R348, R409) (open points: DEDUCED, log 45). -/
def satOf (g : Engine) (d : Disp) (img : List Byte) : Bool := bit (field img 18 1) 3 || g.dsat || bit (field d.block 3 1) 0

/-- A POINT record held until its dispatch ends (R353) (open points: DEDUCED, log 45). -/
def State.holdPoint (s : State) (n : Nat) (d : Disp) (rec : List Byte) : State :=
  s.setPe n { s.pe n with work := some { d with points := d.points ++ [rec] } }

/-- EMIT of a POINT record: at most eight in a pixel (R207, R409). Of a pixel whose context has left the dispatch, nothing is handed
on (open points: DEDUCED, log 45). -/
def State.emitPoint (s : State) (n : Nat) (g : Engine) (d : Disp) (img : List Byte) (ang : Bool) : State :=
  if 8 ≤ d.points.length then s.count (F.PNT_CNT_COUNT 7)
  else match d.ctx.bind s.ctx? with
    | none => s.holdPoint n d img
    | some c =>
      let r := if ang then s.pointAngles c else (s, field img 20 3, field img 23 3)
      r.1.holdPoint n d (c.point d.points.length (field img 12 3) (field img 16 2) (c.pointFlags + 8 * b01 (satOf g d img)) r.2.1 r.2.2)

/-- An EARLY record's bytes (R218): context fields and flags as they stood at the copy. -/
def earlyBytes (c : Ctx) (sat : Bool) (spec : Nat) (img : List Byte) : List Byte :=
  let flags := b01 c.stale + 2 * b01 c.prov + 8 * b01 sat + 32 * b01 c.satb + 64 * b01 c.nsat + 128 * b01 (c.pstart ≠ 0)
    + 256 * b01 c.binsat
  leBytes 1 2 ++ leBytes 1 (field img 1 1 % 8) ++ c.place ++ leBytes 3 (field img 12 3) ++ leBytes 1 c.fired
    ++ leBytes 2 (field img 16 2) ++ leBytes 2 flags ++ leBytes 2 (field img 20 2) ++ leBytes 2 spec ++ leBytes 4 0 ++ leBytes 4 c.t0

/-- An EARLY record released: it takes the next SPEC, joins the outstanding table and goes to the zone monitor and VC1 (R219,
R220) (open points: DEDUCED, log 45). -/
def State.releaseEarly (s : State) (id : Nat) (c : Ctx) (sat : Bool) (img : List Byte) : State :=
  let spec := s.get F.PNT_SPEC_NEXT
  let cand := field img 1 1 % 8
  let e : Early := ⟨spec, id, cand, field img 12 3, field img 20 2, c.frame, c.column, c.pixrow, c.t0 % 2 ^ 32, [], false, false⟩
  let s := s.put F.PNT_SPEC_NEXT ((spec + 1) % 65536)
  let s := { s with pnt := { s.pnt with outstanding := s.pnt.outstanding ++ [e] } }.showOutst
  let s := (s.modCtx id fun x => { x with earlyDone := x.earlyDone ++ [cand] }).count (F.PNT_CNT_COUNT 1)
  s.handRec ⟨.early, 1, { Item.of (earlyBytes c sat spec img) with ctx := some id }, c.frame, c.column, c.pixrow, field img 12 3, spec,
    c.t0 % 2 ^ 32, false, false⟩

/-- EMIT of an EARLY record: for a candidate of the block, once for each, and while the outstanding table has room (R217, R219); after an
ending trap, none is released (R361). R221 leaves open what an EMIT does once its pixel is resolved: it is counted and gives nothing
(open points: DEDUCED, log 45). -/
def State.emitEarly (s : State) (g : Engine) (d : Disp) (img : List Byte) : State :=
  if g.doomed then s
  else match d.ctx.bind s.ctx?, d.part with
  | some c, some q =>
    let cand := field img 1 1 % 8
    if c.resolved || field d.block 2 1 ≤ cand || c.earlyDone.contains cand then s.count (F.PNT_CNT_COUNT 5)
    else if 16384 ≤ (s.pnt.outstanding.filter fun x => !x.resolved).length then s.count (F.PNT_CNT_COUNT 4)
    else s.releaseEarly c.id q.ctx (satOf g d img) img
  | _, _ => s.count (F.PNT_CNT_COUNT 5)

/-- A kind of work accepts EMIT of a type (R353, R410, R570). -/
def accepts (kind type : Nat) : Bool :=
  ((kind = 1 || kind = 4) && type = 1) || (kind = 2 && type = 2) || ((kind = 3 || kind = 5) && type = 11)

/-- EMIT of a record image (R353, R409, R410). -/
def State.emitRecord (s : State) (n : Nat) (g : Engine) (d : Disp) (type : Nat) (img : List Byte) (ang : Bool) : State :=
  if type = 1 then s.emitPoint n g d img ang
  else if type = 2 then s.emitEarly g d img
  else s.candidate img

/-- EMIT (R409, R410): the image lies in the engine's own data memory at a multiple of 32 bytes (open points: DEDUCED, log 69). -/
def execEmit (e : Eng) (p : Pred) (type : BitVec 8) (pa : BitVec 4) (ang : Bool) (s : State) : Host.Outcome State Fault Refusal :=
  act s (s.issue e p 1 (legal (.emit e p type pa ang)) (fun _ => [80 + pa.toNat]) fun s g => match e with
    | .fsq => s
    | .pe n => match (s.pe n.val).work with
      | none => s
      | some d =>
        let a := (g.rdP pa.toNat).toNat
        if a % 32 ≠ 0 || a < 0x10000 || 0x20000 ≤ a then s.trapAt e 1 4
        else if !accepts d.kind type.toNat then (s.count (F.SEQ_CNT_COUNT 9)).goOn e g 1
        else match s.readMem (peBase n.val + a) 32 2 true with
          | (t, .trap cause own mem) => t.trapAt e 1 cause own mem
          | (t, .done img) => (t.emitRecord n.val g d type.toNat img ang).goOn e g 1)

end Sys2Proof.Machine
end

