-- ==== Sys2Proof/Machine/Flow.lean ====
section
/-!
DEFINITION. The flow and control instructions (R343, R344, R379 to R383).
-/
namespace Sys2Proof.Machine

/-- NOP (R379). -/
def execNop (e : Eng) (p : Pred) (s : State) : Host.Outcome State Fault Refusal :=
  act s (s.regOp e p 1 (legal (.nop e p)) [] id)

/-- A taken branch of a one-word instruction; a target beyond the bank takes the ADDRESS trap (R380), which would have continued at
that target (R386) (open points: DEDUCED, log 68; DEDUCED, log 67). -/
def State.jump (s : State) (e : Eng) (g : Engine) (target : Nat) : State :=
  if bankWords e ≤ target then s.trap e 4 false none target else s.setEng e (g.branch target)

/-- BR (R379, R380). -/
def execBr (e : Eng) (p : Pred) (target : BitVec 16) (s : State) : Host.Outcome State Fault Refusal :=
  act s (s.issue e p 1 (legal (.br e p target)) (fun _ => []) fun s g => s.jump e g target.toNat)

/-- BL (R379, R380): the index of the next instruction is saved when the branch is taken (open points: DEDUCED, log 67). -/
def execBl (e : Eng) (p : Pred) (rl : BitVec 5) (target : BitVec 16) (s : State) : Host.Outcome State Fault Refusal :=
  act s (s.issue e p 1 (legal (.bl e p rl target)) (fun _ => []) fun s g =>
    s.jump e (g.wr rl.toNat (BitVec.ofNat 32 (g.pc + 1))) target.toNat)

/-- JR (R379, R380). -/
def execJr (e : Eng) (p : Pred) (ra : BitVec 6) (s : State) : Host.Outcome State Fault Refusal :=
  act s (s.issue e p 1 (legal (.jr e p ra)) (fun g => g.genNos [ra.toNat]) fun s g => s.jump e g (g.rd ra.toNat).toNat)

/-- The major opcode of the stored word at an index of the bank in use (open points: DEDUCED, log 66). -/
def State.opAt (s : State) (e : Eng) (i : Nat) : Nat := s.num (s.wordAt e i) 4 / 2 ^ 26

/-- A loop takes the ILLEGAL trap: four levels or a second rotating one, or an END that R381 excludes
(open points: DEDUCED, log 66). -/
def State.loopBad (s : State) (e : Eng) (g : Engine) (len last : Nat) (rot : Bool) : Bool :=
  4 ≤ g.loops.length || (rot && g.loops.any fun (l : LoopLv) => l.rot) || last ≤ g.pc + len - 1
    || (match g.loops.getLast? with
      | some l => l.last < last
      | none => false)
    || bankWords e ≤ last || s.opAt e last = 4 || s.opAt e last = 5

/-- A loop is entered, or its body skipped: the levels that share its END take their back-edge tests (R343, R382)
(open points: DEDUCED, log 66). -/
def Engine.enterLoop (g : Engine) (len last : Nat) (count : Word) (rot : Bool) : Engine :=
  let k := g.loops.length
  if count = 0#32 then
    let r := (g.setLc k 0#32).backEdge last 4
    { r.1 with pc := r.2.getD (last + 1) }
  else { g.setLc k count with loops := g.loops ++ [(⟨g.pc + len, last, rot⟩ : LoopLv)], pc := g.pc + len }

/-- The read of a body's last word, where the bank has it, and whether it can be used (R37, R40, R381)
(open points: DEDUCED, log 66). -/
def State.lastWord (s : State) (e : Eng) (last : Nat) : State × Bool :=
  if bankWords e ≤ last then (s, true)
  else (s.touchRange (s.wordAt e last) 4, s.rangeOk (s.wordAt e last) 4)

/-- The index at which execution continues after a loop instruction that is not taken in: past its body where its count is 0 (R343, R386)
(open points: DEDUCED, log 66). -/
def Engine.loopResume (g : Engine) (len last : Nat) (count : Word) : Nat :=
  if count = 0#32 then (g.enterLoop len last count false).pc else (g.next len).pc

/-- A loop instruction (R343, R344, R381). Its check of the body's last word reads that word, as a fetch does (R40, R543)
(open points: DEDUCED, log 66). -/
def State.loop (s : State) (e : Eng) (p : Pred) (count : LoopCount) (last : BitVec 16) (rot ok : Bool) : State :=
  let len := extLen count.extWord
  s.issue e p len ok (fun g => g.genNos (countReads count)) fun s g =>
    let r := s.lastWord e last.toNat
    let resume := g.loopResume len last.toNat (g.countVal count)
    if !r.2 then r.1.trap e 5 true (some (bankMem e)) resume
    else if r.1.loopBad e g len last.toNat rot then r.1.trap e 3 false none resume
    else r.1.setEng e (g.enterLoop len last.toNat (g.countVal count) rot)

/-- LOOP (R343). -/
def execLoop (e : Eng) (p : Pred) (count : LoopCount) (last : BitVec 16) (s : State) : Host.Outcome State Fault Refusal :=
  act s (s.loop e p count last false (legal (.iLoop e p count last)))

/-- LOOPR (R344). -/
def execLoopr (e : Eng) (p : Pred) (count : LoopCount) (last : BitVec 16) (s : State) : Host.Outcome State Fault Refusal :=
  act s (s.loop e p count last true (legal (.loopr e p count last)))

/-- LI (R379). -/
def execLi (e : Eng) (p : Pred) (rd : BitVec 6) (imm : Imm 15) (s : State) : Host.Outcome State Fault Refusal :=
  act s (s.regOp e p (immLen imm) (legal (.li e p rd imm)) [] fun g => g.wr rd.toNat (immVal imm))

/-- ADDI (R379). -/
def execAddi (e : Eng) (p : Pred) (rd ra : BitVec 6) (imm : Imm 9) (s : State) : Host.Outcome State Fault Refusal :=
  act s (s.regOp e p (immLen imm) (legal (.addi e p rd ra imm)) [ra.toNat] fun g => g.wr rd.toNat (g.rd ra.toNat + immVal imm))

/-- MOV (R379). -/
def execMov (e : Eng) (p : Pred) (rd ra : BitVec 6) (s : State) : Host.Outcome State Fault Refusal :=
  act s (s.regOp e p 1 (legal (.mov e p rd ra)) [ra.toNat] fun g => g.wr rd.toNat (g.rd ra.toNat))

/-- TSTI (R378, R379). -/
def execTsti (e : Eng) (p : Pred) (qd : BitVec 3) (cond : Cond) (ra : BitVec 6) (imm : Imm 9) (s : State) :
    Host.Outcome State Fault Refusal :=
  act s (s.regOp e p (immLen imm) (legal (.tsti e p qd cond ra imm)) [ra.toNat] fun g =>
    g.setQ qd.toNat (condHolds cond (g.rd ra.toNat) (immVal imm)))

/-- PLOG (R379). -/
def execPlog (e : Eng) (p : Pred) (qd qa qb : BitVec 3) (fn : BitVec 2) (s : State) : Host.Outcome State Fault Refusal :=
  act s (s.regOp e p 1 (legal (.plog e p qd qa qb fn)) [] fun g =>
    g.setQ qd.toNat (plogOf fn (g.qBit qa.toNat) (g.qBit qb.toNat)))

end Sys2Proof.Machine
end

