-- ==== Sys2Proof/Machine/Macc.lean ====
section
/-!
DEFINITION. The accumulator instructions (R347, R401 to R403).
-/
namespace Sys2Proof.Machine

/-- Product of lane i, signed or unsigned (R402). -/
def Engine.product (g : Engine) (ra rb : BitVec 6) (u : Bool) (i : Nat) : Int :=
  let x := g.rd (ra.toNat + i)
  let y := g.rd (rb.toNat + i)
  if u then (x.toNat : Int) * y.toNat else x.toInt * y.toInt

/-- The accumulators after a MAC of n lanes, with sign k: one sum, or a lane for each (R402). -/
def Engine.macc (g : Engine) (an : Nat) (ra rb : BitVec 6) (n : Nat) (red u : Bool) (k : Int) : Engine :=
  let ps := (List.range n).map (g.product ra rb u)
  if red then g.wrA an (g.rdA an + k * ps.sum)
  else (List.range n).foldl (fun h i => h.wrA (an + i) (g.rdA (an + i) + k * ps.getD i 0)) g

/-- Some accumulator leaves 72 bits in a MAC. -/
def Engine.maccOver (g : Engine) (an : Nat) (ra rb : BitVec 6) (n : Nat) (red u : Bool) (k : Int) : Bool :=
  let ps := (List.range n).map (g.product ra rb u)
  if red then !fits72 (g.rdA an + k * ps.sum) else (List.range n).any fun i => !fits72 (g.rdA (an + i) + k * ps.getD i 0)

/-- The parity numbers that a MAC reads. -/
def Engine.maccReads (g : Engine) (an : Nat) (ra rb : BitVec 6) (n : Nat) (red : Bool) : List Nat :=
  g.genNos (span ra.toNat n ++ span rb.toNat n) ++ (span an (if red then 1 else n)).map fun a => 64 + a

/-- MAC and MACS: the instruction completes, and with AOVT a saturation then takes one AOV trap (R347, R402). -/
def State.mac (s : State) (e : Eng) (p : Pred) (an : BitVec 3) (ra rb : BitVec 6) (w : BitVec 2) (red u ok : Bool) (k : Int) : State :=
  let n := w.toNat + 1
  s.issue e p 1 ok (fun g => g.maccReads an.toNat ra rb n red) fun s g =>
    let h := g.macc an.toNat ra rb n red u k
    if g.aovt && g.maccOver an.toNat ra rb n red u k then (s.setEng e h).trapAt e 1 1 else s.goOn e h 1

/-- MAC (R402). -/
def execMac (e : Eng) (p : Pred) (an : BitVec 3) (ra rb : BitVec 6) (w : BitVec 2) (red u : Bool) (s : State) :
    Host.Outcome State Fault Refusal :=
  act s (s.mac e p an ra rb w red u (legal (.mac e p an ra rb w red u)) 1)

/-- MACS (R402). -/
def execMacs (e : Eng) (p : Pred) (an : BitVec 3) (ra rb : BitVec 6) (w : BitVec 2) (red u : Bool) (s : State) :
    Host.Outcome State Fault Refusal :=
  act s (s.mac e p an ra rb w red u (legal (.macs e p an ra rb w red u)) (-1))

/-- MTA: 0, or R[RA] × 2^SH (R401). -/
def execMta (e : Eng) (p : Pred) (an : BitVec 3) (ra sh : BitVec 6) (z : Bool) (s : State) : Host.Outcome State Fault Refusal :=
  act s (s.regOp e p 1 (legal (.mta e p an ra sh z)) (if z then [] else [ra.toNat]) fun g =>
    g.wrA an.toNat (if z then 0 else (g.rd ra.toNat).toInt * 2 ^ sh.toNat))

/-- An accumulator scaled as MOVA does: rounded half up or truncated (R403). -/
def movaOf (mode : BitVec 8) (v : Int) : Int :=
  let k := mode.toNat % 64
  if k = 0 then v
  else if mode.getLsbD 6 then v.fdiv (2 ^ k)
  else (v + 2 ^ (k - 1)).fdiv (2 ^ k)

/-- MOVA (R347, R403). -/
def execMova (e : Eng) (p : Pred) (rd : BitVec 6) (an : BitVec 3) (s : State) : Host.Outcome State Fault Refusal :=
  act s (s.issue e p 1 (legal (.mova e p rd an)) (fun _ => [64 + an.toNat]) fun s g =>
    let v := movaOf g.mode (g.rdA an.toNat)
    s.goOn e ((g.movaFlags v).wr rd.toNat (sat32 v)) 1)

end Sys2Proof.Machine
end

