-- ==== Sys2Proof/Machine/Memory.lean ====
section
/-!
DEFINITION. The memory instructions of the Point Engines but for EMIT: LD, ST, HLD and PMOV (R352, R404 to R408).
-/
namespace Sys2Proof.Machine

/-! ### Addressing (R405 to R407) -/

/-- The size of an access. -/
def sizeOf' (sz : BitVec 2) : Nat := 2 ^ sz.toNat

/-- The step of an LD or ST: OFF6 times the size, or the extension as a signed byte count (R405)
(open points: DEDUCED, log 68). -/
def stepOf (size : Nat) : Imm 6 → Int
  | .short v => v.toNat * size
  | .ext v => v.toInt

/-- The order of k bits reversed. -/
def revBits : Nat → Nat → Nat
  | 0, _ => 0
  | k + 1, v => v % 2 * 2 ^ k + revBits k (v / 2)

/-- The address register after a modulo access with a length that is not 0 (R406). -/
def moduloNext (x l : Nat) (s : Int) : Nat := x - x % l + (((x % l : Nat) + s) % (l : Int)).toNat

/-- The address register after a bit-reversed access of 2^z bytes and width k (R407). -/
def reverseNext (x z k : Nat) (s : Int) : Nat :=
  let e := x / 2 ^ z % 2 ^ k
  let f := revBits k (((revBits k e : Nat) + s.fdiv (2 ^ z : Nat)) % ((2 ^ k : Nat) : Int)).toNat
  x - e * 2 ^ z + f * 2 ^ z

/-- The address that an access uses (R405). -/
def Engine.accessAt (g : Engine) (pa : BitVec 4) (sz am : BitVec 2) (off : Imm 6) : Nat :=
  let x := g.rdP pa.toNat
  if am = 0#2 then (x + BitVec.ofInt 32 (stepOf (sizeOf' sz) off)).toNat else x.toNat

/-- The address registers that an access reads, by their parity numbers. -/
def addrReads (pa : BitVec 4) (am : BitVec 2) : List Nat :=
  if am.toNat < 2 then [80 + pa.toNat] else [80 + pa.toNat, 88 + pa.toNat]

/-- A companion that leaves P unchanged: a modulo length of 0, or a width of 0 or above 16 (R407)
(open points: DEDUCED, log 73). -/
def Engine.badCompanion (g : Engine) (pa : BitVec 4) (am : BitVec 2) : Bool :=
  let c := (g.rdP (pa.toNat + 8)).toNat
  (am = 2#2 && c % 65536 = 0) || (am = 3#2 && (c % 32 = 0 || 16 < c % 32))

/-- The registers after an access's update of P[PA] (R405 to R407) (open points: DEDUCED, log 73). -/
def Engine.addrNext (g : Engine) (pa : BitVec 4) (sz am : BitVec 2) (off : Imm 6) : Engine :=
  let s := stepOf (sizeOf' sz) off
  let x := g.rdP pa.toNat
  let c := (g.rdP (pa.toNat + 8)).toNat
  if am = 0#2 || g.badCompanion pa am then g
  else if am = 1#2 then g.wrP pa.toNat (x + BitVec.ofInt 32 s)
  else if am = 2#2 then g.wrP pa.toNat (BitVec.ofNat 32 (moduloNext x.toNat (c % 65536) s))
  else g.wrP pa.toNat (BitVec.ofNat 32 (reverseNext x.toNat sz.toNat (c % 32) s))

/-- The end of an access: P[PA] updated, a bad companion counted in SEQ_CNT7 (R407) (open points: DEDUCED, log 73). -/
def State.accessEnd (s : State) (e : Eng) (g : Engine) (pa : BitVec 4) (sz am : BitVec 2) (off : Imm 6) : State :=
  let s := if g.badCompanion pa am then s.count (F.SEQ_CNT_COUNT 7) else s
  s.goOn e (g.addrNext pa sz am off) (immLen off)

/-- A loaded byte, half or word, extended (R404). -/
def extended (sx : Bool) (size v : Nat) : Word := if sx then BitVec.ofInt 32 (sint (8 * size) v) else BitVec.ofNat 32 v

/-- LD (R404 to R407). -/
def execLd (e : Eng) (p : Pred) (rd : BitVec 6) (pa : BitVec 4) (sz am : BitVec 2) (sx : Bool) (off : Imm 6) (s : State) :
    Host.Outcome State Fault Refusal :=
  act s (s.issue e p (immLen off) (legal (.ld e p rd pa sz am sx off)) (fun _ => addrReads pa am) fun s g =>
    s.loadThen e (g.accessAt pa sz am off) (sizeOf' sz) (immLen off) fun s bs =>
      s.accessEnd e ((s.eng e).wr rd.toNat (extended sx (sizeOf' sz) (leNat bs))) pa sz am off)

/-- ST (R404 to R407). -/
def execSt (e : Eng) (p : Pred) (rs : BitVec 6) (pa : BitVec 4) (sz am : BitVec 2) (off : Imm 6) (s : State) :
    Host.Outcome State Fault Refusal :=
  act s (s.issue e p (immLen off) (legal (.iSt e p rs pa sz am off)) (fun g => g.genNos [rs.toNat] ++ addrReads pa am) fun s g =>
    s.saveThen e (g.accessAt pa sz am off) (leBytes (sizeOf' sz) (g.rd rs.toNat).toNat) (immLen off) fun s =>
      s.accessEnd e (s.eng e) pa sz am off)

/-! ### Histograms (R352, R408) -/

/-- NPLACED of the dispatch's context, from the header in the mailbox (R141) (open points: DEDUCED, log 71). -/
def Disp.placed (d : Disp) : Nat := field d.header 18 1 / 32

/-- The valid bins of a region: how many. -/
def Disp.binCount (d : Disp) (r : Nat) : Nat :=
  if r = 0 then 2048 else if d.kind ≠ 2 && r - 1 < d.placed then 128 else 0

/-- The bytes of histogram memory that hold bins lo to hi of a region: offset and length (R142, R143). -/
def binRange (slot r lo hi : Nat) : Nat × Nat :=
  if r = 0 then (slotBase slot + 64 + 3 * (lo / 2), 3 * (hi / 2) + 3 - 3 * (lo / 2))
  else (slotBase slot + 3136 + 160 * (r - 1) + 5 * (lo / 4), 5 * (hi / 4) + 5 - 5 * (lo / 4))

/-- A bin of the dispatch's context, 0 outside its region; of an early dispatch, of the partial copy. -/
def State.binOf (s : State) (d : Disp) (r : Nat) (b : Int) : Nat :=
  if b < 0 || (d.binCount r : Int) ≤ b then 0
  else match d.part with
    | some q => q.bin b.toNat
    | none => if r = 0 then s.coarse d.slot b.toNat else s.fine d.slot (r - 1) b.toNat

/-- The words of the bins b to b + n − 1 are read: the dispatch with its partial copy corrected, and whether all can be used (R37, R40,
R543). -/
def State.readBins (s : State) (d : Disp) (r : Nat) (b : Int) (n : Nat) : State × Disp × Bool :=
  let lo := max 0 b
  let hi := min (b + n) (d.binCount r) - 1
  if hi < lo then (s, d, true)
  else
    let x := binRange d.slot r lo.toNat hi.toNat
    match d.part with
    | some q =>
      let y := s.readPart q (x.1 - slotBase d.slot) x.2
      (y.1, { d with part := some y.2.1 }, y.2.2)
    | none => (s.readRange x.1 x.2, d, s.rangeOk x.1 x.2)

/-- Consecutive registers written, from RD on. -/
def Engine.wrSpan (g : Engine) (rd : Nat) : List Nat → Engine
  | [] => g
  | v :: vs => (g.wr rd (BitVec.ofNat 32 v)).wrSpan (rd + 1) vs

/-- HLD (R352, R408) (open points: DEDUCED, log 71). -/
def execHld (e : Eng) (p : Pred) (rd : BitVec 6) (pa : BitVec 4) (reg : BitVec 3) (n : BitVec 2) (pi : Bool) (s : State) :
    Host.Outcome State Fault Refusal :=
  act s (s.issue e p 1 (legal (.hld e p rd pa reg n pi)) (fun _ => [80 + pa.toNat]) fun s g => match e with
    | .fsq => s
    | .pe k => match (s.pe k.val).work with
      | none => s
      | some d =>
        if d.kind = 3 || d.kind = 5 then s.trapAt e 1 4
        else
          let b := (g.rdP pa.toNat).toInt
          match s.readBins d reg.toNat b (n.toNat + 1) with
          | (t, _, false) => t.trapAt e 1 5 false (some 0)
          | (t, d, true) =>
            let h := (t.eng e).wrSpan rd.toNat ((List.range (n.toNat + 1)).map fun (i : Nat) => t.binOf d reg.toNat (b + (i : Int)))
            t.goOn e (if pi then h.wrP pa.toNat (g.rdP pa.toNat + BitVec.ofNat 32 (n.toNat + 1)) else h) 1)

/-! ### Address registers -/

/-- The parity numbers that PMOV reads. -/
def Engine.pmovReads (g : Engine) (pd : BitVec 4) (ra : BitVec 6) (fn : BitVec 2) : List Nat := match fn.toNat with
  | 0 => []
  | 1 => g.genNos [ra.toNat]
  | _ => [80 + pd.toNat]

/-- The registers after PMOV (R404). -/
def Engine.pmov (g : Engine) (pd : BitVec 4) (ra : BitVec 6) (fn : BitVec 2) (imm : Word) : Engine := match fn.toNat with
  | 0 => g.wrP pd.toNat imm
  | 1 => g.wrP pd.toNat (g.rd ra.toNat)
  | 2 => g.wr ra.toNat (g.rdP pd.toNat)
  | _ => g.wrP pd.toNat (g.rdP pd.toNat + imm)

/-- PMOV (R404). -/
def execPmov (e : Eng) (p : Pred) (pd : BitVec 4) (ra : BitVec 6) (fn : BitVec 2) (imm : Imm 9) (s : State) :
    Host.Outcome State Fault Refusal :=
  act s (s.issue e p (immLen imm) (legal (.pmov e p pd ra fn imm)) (fun g => g.pmovReads pd ra fn) fun s g =>
    s.goOn e (g.pmov pd ra fn (immVal imm)) (immLen imm))

end Sys2Proof.Machine
end

