-- ==== Sys2Proof/Machine/System.lean ====
section
/-!
DEFINITION. The system instructions, and a word that is no instruction (R353, R360, R374, R384 to R387).
-/
namespace Sys2Proof.Machine

/-- ILLEGAL_INSTRUCTION: an engine meets a word and its extension with a fault of R605, and takes the ILLEGAL trap
(open points: DEDUCED, log 67). -/
def execIllegalInstruction (e : Eng) (w x : Word) (s : State) : Host.Outcome State Fault Refusal :=
  act s (match decodeInstr e w x with
    | some _ => s
    | none => s.issue e ⟨false, 0#3⟩ (wordLen w) false (fun _ => []) fun s _ => s)

/-- END (R353, R384). It takes the records held in the engine's queue, but in work that an ending trap doomed, whose records are discarded
(R361); one with a parity error takes the PARITY trap in place of END (R612) (open points: DEDUCED, log 103). -/
def execEnd (e : Eng) (p : Pred) (s : State) : Host.Outcome State Fault Refusal :=
  act s (s.issue e p 1 (legal (.iEnd e p)) (fun g => if g.doomed then [] else [heldQueue]) fun s _ => match e with
    | .fsq => s
    | .pe n => if s.manages e then s.trapAt e 1 3 else s.workEnd n.val)

/-- TRAP (R384). -/
def execTrap (e : Eng) (p : Pred) (s : State) : Host.Outcome State Fault Refusal :=
  act s (s.issue e p 1 (legal (.iTrap e p)) (fun _ => []) fun s _ => s.trapAt e 1 2)

/-- The return from the trap handler: to TPC, or to the end of work that an ending trap doomed (R360, R386). -/
def State.trapReturn (s : State) (e : Eng) (g : Engine) : State :=
  let s := s.setEng e { g with intrap := false, pc := g.tpc }
  match e with
  | .fsq => s
  | .pe n => if g.doomed then s.trapEnd n.val else s

/-- RFT (R384, R386). Outside a handler it takes the ILLEGAL trap, and would have continued at TPC. -/
def execRft (e : Eng) (p : Pred) (s : State) : Host.Outcome State Fault Refusal :=
  act s (s.issue e p 1 (legal (.rft e p)) (fun _ => []) fun s g => if g.intrap then s.trapReturn e g else s.trap e 3 false none g.tpc)

/-- The contents of a special register (R385). -/
def State.special (s : State) (e : Eng) (g : Engine) (sr : Nat) : Word :=
  if sr = 0 then g.mode.setWidth 32
  else if sr = 1 then (if e.isFsq then g.fstat else g.stat)
  else if sr ≤ 5 then g.lc.getD (sr - 2) 0#32
  else if sr = 6 then BitVec.ofNat 32 g.tpc
  else if sr = 7 then BitVec.ofNat 32 s.seq.fsq.tc
  else if sr = 8 then BitVec.ofNat 32 (s.seq.fsq.tc / 2 ^ 32)
  else if sr = 9 then BitVec.ofNat 32 s.seq.fsq.sub
  else if sr = 10 then BitVec.ofNat 32 (s.get F.SEQ_FPOS_FRAME)
  else if sr = 11 then BitVec.ofNat 32 (s.get F.SEQ_FPOS_COLUMN)
  else if sr = 12 then BitVec.ofNat 32 s.dt
  else BitVec.ofNat 32 g.bank

/-- MFS (R384, R385). PBANK is there in the management program only. -/
def execMfs (e : Eng) (p : Pred) (rd : BitVec 6) (sr : BitVec 5) (s : State) : Host.Outcome State Fault Refusal :=
  act s (s.issue e p 1 (legal (.mfs e p rd sr)) (fun _ => []) fun s g =>
    if sr.toNat = 13 && !s.manages e then s.trapAt e 1 3
    else s.goOn e (g.wr rd.toNat (s.special e g sr.toNat)) 1)

/-- A special register written: MODE, STAT's clear bits, a loop counter; or PBANK, whose bank the next instruction comes from with
every loop level ended (R370, R383, R385) (open points: DEDUCED, log 70; DEDUCED, log 72). -/
def State.setSpecial (s : State) (e : Eng) (g : Engine) (sr : Nat) (v : Word) : State :=
  if sr = 0 then
    if 40 < v.toNat % 64 then s.trapAt e 1 3 else s.goOn e { g with mode := v.setWidth 8 } 1
  else if sr = 1 then s.goOn e (if e.isFsq then g else g.clearStat v) 1
  else if sr ≤ 5 then s.goOn e (g.setLc (sr - 2) v) 1
  else if s.manages e then s.setEng e { g with bank := v.toNat % 2, loops := [], pc := g.pc + 1 }
  else s.trapAt e 1 3

/-- MTS (R384, R385). -/
def execMts (e : Eng) (p : Pred) (ra : BitVec 6) (sr : BitVec 5) (s : State) : Host.Outcome State Fault Refusal :=
  act s (s.issue e p 1 (legal (.mts e p ra sr)) (fun g => g.genNos [ra.toNat]) fun s g =>
    s.setSpecial e g sr.toNat (g.rd ra.toNat))

/-- XLD (R387). -/
def execXld (e : Eng) (p : Pred) (rd ra : BitVec 6) (disp : Imm 9) (s : State) : Host.Outcome State Fault Refusal :=
  act s (s.issue e p (immLen disp) (legal (.xld e p rd ra disp)) (fun g => g.genNos [ra.toNat]) fun s g =>
    s.loadThen e (g.rd ra.toNat + immVal disp).toNat 4 (immLen disp) fun s bs =>
      s.goOn e ((s.eng e).wr rd.toNat (BitVec.ofNat 32 (leNat bs))) (immLen disp))

/-- XST (R387). -/
def execXst (e : Eng) (p : Pred) (rs ra : BitVec 6) (disp : Imm 9) (s : State) : Host.Outcome State Fault Refusal :=
  act s (s.issue e p (immLen disp) (legal (.xst e p rs ra disp)) (fun g => g.genNos [rs.toNat, ra.toNat]) fun s g =>
    s.saveThen e (g.rd ra.toNat + immVal disp).toNat (leBytes 4 (g.rd rs.toNat).toNat) (immLen disp) fun s =>
      s.goOn e (s.eng e) (immLen disp))

end Sys2Proof.Machine
end

