-- ==== Sys2Proof/Machine/Tap.lean ====
section
/-!
DEFINITION. The boundary-scan test port (R584). The spec names IEEE 1149.1: the controller is that standard's; the length and
codes of its instruction register and the order of the boundary register are presumed (log 12).
-/
namespace Sys2Proof.Machine

/-- The controller's next state on a TCK edge (open points: PRESUMED, log 12). -/
def TapState.next : TapState → Bool → TapState
  | .logicReset, tms => if tms then .logicReset else .idle
  | .idle, tms => if tms then .selectDr else .idle
  | .selectDr, tms => if tms then .selectIr else .captureDr
  | .captureDr, tms => if tms then .exit1Dr else .shiftDr
  | .shiftDr, tms => if tms then .exit1Dr else .shiftDr
  | .exit1Dr, tms => if tms then .updateDr else .pauseDr
  | .pauseDr, tms => if tms then .exit2Dr else .pauseDr
  | .exit2Dr, tms => if tms then .updateDr else .shiftDr
  | .updateDr, tms => if tms then .selectDr else .idle
  | .selectIr, tms => if tms then .logicReset else .captureIr
  | .captureIr, tms => if tms then .exit1Ir else .shiftIr
  | .shiftIr, tms => if tms then .exit1Ir else .shiftIr
  | .exit1Ir, tms => if tms then .updateIr else .pauseIr
  | .pauseIr, tms => if tms then .exit2Ir else .pauseIr
  | .exit2Ir, tms => if tms then .updateIr else .shiftIr
  | .updateIr, tms => if tms then .selectDr else .idle

/-- The instruction of a code: EXTEST 0, SAMPLE/PRELOAD 1, every other BYPASS (PRESUMED, log 12). -/
def tapInstr (c : BitVec 4) : TapInstr := if c = 0#4 then .extest else if c = 1#4 then .sample else .bypass

/-- The test logic held reset: BYPASS is in force (R584). -/
def Tap.cleared (p : Tap) : Tap := { p with state := .logicReset, instr := .bypass, tdo := none }

/-! ### The pins of the boundary register (R516, R578) -/

/-- FIREn is active: a pulse of output n is in progress; in EXTEST it is inactive (R45, R516, R584)
(open points: PRESUMED, log 12). -/
def State.firePin (s : State) (n : Nat) : Bool :=
  s.tap.instr ≠ .extest && s.emi.pulses.any fun p => p.output = n && p.lead ≤ 16 * s.dt && 16 * s.dt < p.trail

/-- ROWm is high; in EXTEST it is low (R50, R516, R584). -/
def State.rowPin (s : State) (m : Nat) : Bool := s.tap.instr ≠ .extest && s.emi.rowHigh = some m

/-- DRVCLK: 25 MHz while the time base is locked, low before; none where no frame has shown its phase yet (R303, R516). -/
def State.drvclkPin (s : State) : Option Bool :=
  if !s.is F.SYS_STAT_TBLOCK then some false else s.drv.edge.map fun e => 32 ≤ (s.dt + (64 - e % 64)) % 64

/-- The pair of the drive frame in progress that is on DRVD1 and DRVD0, counted from 15 down; none between frames (R303, R304). -/
def State.drivePair (s : State) : Option Nat :=
  let start := s.drv.free - 1024
  if s.drv.edge.isSome && start ≤ s.dt && s.dt < s.drv.free then some (15 - (s.dt - start) / 64) else none

/-- DRVD0 (n = 0), DRVD1 (n = 1) and DRVSYNC (n = 2) (R303, R304, R516). -/
def State.drivePin (s : State) (n : Nat) : Bool := match s.drivePair with
  | some i => if n = 2 then i = 15 else bit s.drv.bits (2 * i + n)
  | none => false

/-- The part drives the QSPI pin n: CLK (0), CS_N (1) and IO0 to IO3. Outside boot the IO pins are at high impedance, where a second
master of the flash may drive them (R583) (open points: PRESUMED, log 12). -/
def State.qspiDrives (s : State) (n : Nat) : Bool := n < 2 || s.get F.TBS_BOOT_RESULT = 4

/-- QSPI_CLK (n = 0), QSPI_CS_N (n = 1) and QSPI_IO0 to QSPI_IO3: CLK low and CS_N high outside boot. None where the level is not followed:
while the flash is read, and of a pin at high impedance, whose pull-up a second master may overdrive (R516, R519, R578, R583)
(open points: PRESUMED, log 12). -/
def State.qspiPin (s : State) (n : Nat) : Option Bool :=
  if s.get F.TBS_BOOT_RESULT = 4 || !s.qspiDrives n then none else some (n = 1)

/-- The level of pin i of the boundary register, in the order of R578's table: FIRE0 to 63, ROW0 to 15, EDQ, EDR, TFLT_N, PERMIT_IN,
PERMIT_ACK, EMI_INH_N, ZONE0 to 3, CFGMODE, RESET_N, DRVCLK, DRVD0, DRVD1, DRVSYNC, DRVACK, QSPI. None is a level that the model does
not follow (R516, R578) (open points: PRESUMED, log 12). -/
def State.pin (s : State) (i : Nat) : Option Bool :=
  if i < 64 then some (s.firePin i)
  else if i < 80 then some (s.rowPin (i - 64))
  else match i with
    | 80 => some (s.edqLevel s.dt)
    | 82 => if s.inReset then none else some (!s.is F.EMI_STAT_TFLT)
    | 83 => some s.emi.permit
    | 84 => some s.emi.ack
    | 85 => some s.emi.inhN
    | 86 | 87 | 88 | 89 => some (bit (s.get F.PNT_ZOUT_PIN) (i - 86))
    | 91 => some (!s.inReset)
    | 92 => s.drvclkPin
    | 93 | 94 | 95 => some (s.drivePin (i - 93))
    | 97 | 98 | 99 | 100 | 101 | 102 => s.qspiPin (i - 97)
    | _ => none

/-- Pins that the part drives, the fire and row outputs apart. -/
def drivenPin (i : Nat) : Bool := i = 80 || i = 84 || (86 ≤ i && i < 90) || (92 ≤ i && i < 96) || 97 ≤ i

/-- The levels of the boundary pins; in EXTEST the boundary register drives the outputs but FIRE and ROW (R584). Levels that the model
does not follow are free (open points: PRESUMED, log 12). -/
def State.pinLevels (s : State) : BitVec 103 :=
  let free := (Config.freeWord s.free ++ Config.freeWord (s.free + 1) ++ Config.freeWord (s.free + 2) ++ Config.freeWord (s.free + 3))
  BitVec.ofNat 103 (maskOf 103 fun i =>
    if s.tap.instr = .extest && drivenPin i then s.tap.hold.getLsbD i else (s.pin i).getD (free.getLsbD i))

/-- What the controller's state does on a TCK edge, from the state before it. -/
def Tap.act (p : Tap) (tdi : Bool) (pins : BitVec 103) : Tap := match p.state with
  | .captureIr => { p with irShift := 1#4 }
  | .shiftIr => { p with irShift := (BitVec.ofBool tdi ++ p.irShift).extractLsb' 1 4 }
  | .captureDr => match p.instr with
    | .bypass => { p with bypass := false }
    | _ => { p with shift := pins }
  | .shiftDr => match p.instr with
    | .bypass => { p with bypass := tdi }
    | _ => { p with shift := (BitVec.ofBool tdi ++ p.shift).extractLsb' 1 103 }
  | _ => p

/-- TDO in a shift state: the bit of the register that leaves next, so that a scan of n edges shows n bits (R584)
(open points: PRESUMED, log 12). -/
def Tap.serialOut (p : Tap) : Tap := match p.state with
  | .shiftIr => { p with tdo := some (p.irShift.getLsbD 0) }
  | .shiftDr => match p.instr with
    | .bypass => { p with tdo := some p.bypass }
    | _ => { p with tdo := some (p.shift.getLsbD 0) }
  | _ => { p with tdo := none }

/-- What the controller does on entering a state (open points: DEDUCED, log 99). -/
def Tap.enter (p : Tap) (st : TapState) : Tap :=
  let p := { p with state := st }
  match st with
  | .logicReset => p.cleared
  | .updateIr => { p with instr := tapInstr p.irShift, tdo := none }
  | .updateDr => match p.instr with
    | .bypass => { p with tdo := none }
    | _ => { p with hold := p.shift, tdo := none }
  | _ => p.serialOut

/-- A TCK edge. While RESET_N is low, TDO stays at high impedance (R578). Selecting EXTEST disarms emission (R584)
(open points: DEDUCED, log 99) (open points: PRESUMED, log 12). -/
def State.tapClock (s : State) (tms tdi : Bool) : State :=
  let p := (s.tap.act tdi s.pinLevels).enter (s.tap.state.next tms)
  let p := if s.inReset then { p with tdo := none } else p
  let draws := s.tap.state = .captureDr && s.tap.instr ≠ .bypass
  let s := { s with tap := p, free := if draws then s.free + 4 else s.free }
  if p.instr = .extest && s.is F.EMI_CTRL_ARM then s.setArm false else s

/-- TEST_PORT_CLOCK: a TCK edge with TRST_N at the level trst; while it is low, the edge is ignored (R584). RESET_N does not hold
the test port (open points: PRESUMED, log 12). -/
def execTestPortClock (trst tms tdi : Bool) (s : State) : Host.Outcome State Fault Refusal :=
  .next (if trst then s.tapClock tms tdi else { s with tap := s.tap.cleared })

/-- TEST_RESET: TRST_N goes low (R584) (open points: PRESUMED, log 12; DEDUCED, log 99). -/
def execTestReset (s : State) : Host.Outcome State Fault Refusal := .next { s with tap := s.tap.cleared }

end Sys2Proof.Machine
end

