-- ==== Sys2Proof/Machine/Timed.lean ====
section
/-!
DEFINITION. The fire and timing instructions of the Fire Sequencer (R337 to R340, R388 to R396).
-/
namespace Sys2Proof.Machine

/-- A timed instruction with an optional offset: its command enters the queue, or stalls on a full one (R31, R388). -/
def State.timedOp (s : State) (e : Eng) (p : Pred) (off : Option Word) (ok : Bool) (rs : List Nat) (k : State → Engine → TKind) :
    State :=
  s.issue e p (extLen off) ok (fun g => g.genNos rs) fun s g => s.timed (k s g) (off.getD 0#32).toNat (extLen off)

/-- The mask of 64 outputs in R[RA] and R[RA + 1]. -/
def Engine.mask (g : Engine) (ra : BitVec 6) : Nat := (g.rd ra.toNat).toNat + 2 ^ 32 * (g.rd (ra.toNat + 1)).toNat

/-- A fire command queued; one whose mask names no output is ignored and counted (R89, R389). -/
def State.fireOp (s : State) (e : Eng) (p : Pred) (ra : BitVec 6) (off : Option Word) (ok : Bool) (rs : List Nat)
    (code : Engine → Option Int) : State :=
  s.issue e p (extLen off) ok (fun g => g.genNos rs) fun s g =>
    if g.mask ra = 0 then (s.count F.EMI_IGNORED_CMD).goOn e g (extLen off)
    else s.timed (.fire (g.mask ra) s.seq.fsq.row (code g)) (off.getD 0#32).toNat (extLen off)

/-- FIRE (R89, R389, R390). -/
def execFire (e : Eng) (p : Pred) (ra : BitVec 6) (off : Option Word) (s : State) : Host.Outcome State Fault Refusal :=
  act s (s.fireOp e p ra off (legal (.fire e p ra off)) (span ra.toNat 2) fun _ => none)

/-- FIREC: the dither is the signed value of R[RC][10:0] (R89, R391). -/
def execFirec (e : Eng) (p : Pred) (ra rc : BitVec 6) (off : Option Word) (s : State) : Host.Outcome State Fault Refusal :=
  act s (s.fireOp e p ra off (legal (.firec e p ra rc off)) (span ra.toNat 2 ++ [rc.toNat]) fun g =>
    some (sint 11 ((g.rd rc.toNat).toNat % 2048)))

/-- ROW (R389). -/
def execRow (e : Eng) (p : Pred) (row : BitVec 4) (off : Option Word) (s : State) : Host.Outcome State Fault Refusal :=
  act s (s.timedOp e p off (legal (.iRow e p row off)) [] fun _ _ => .row row.toNat)

/-- GATE: one with a length of 0 queues nothing and is counted (R392). -/
def execGate (e : Eng) (p : Pred) (ra rl : BitVec 6) (off : Option Word) (s : State) : Host.Outcome State Fault Refusal :=
  act s (s.issue e p (extLen off) (legal (.gate e p ra rl off)) (fun g => g.genNos (span ra.toNat 2 ++ [rl.toNat])) fun s g =>
    let len := (g.rd rl.toNat).toNat % 65536
    if len = 0 then (s.count (F.SEQ_CNT_COUNT 7)).goOn e g (extLen off)
    else s.timed (.gate (g.mask ra) s.seq.fsq.row len) (off.getD 0#32).toNat (extLen off))

/-- MAP (R389). -/
def execMap (e : Eng) (p : Pred) (m : BitVec 3) (off : Option Word) (s : State) : Host.Outcome State Fault Refusal :=
  act s (s.timedOp e p off (legal (.iMap e p m off)) [] fun _ _ => .map m.toNat)

/-- CTXO: emitter R[RA][9:0] (R389, R393). -/
def execCtxo (e : Eng) (p : Pred) (ra : BitVec 6) (nshot : BitVec 8) (off : Option Word) (s : State) :
    Host.Outcome State Fault Refusal :=
  act s (s.timedOp e p off (legal (.ctxo e p ra nshot off)) [ra.toNat] fun _ g =>
    .ctxo ((g.rd ra.toNat).toNat % 1024) nshot.toNat)

/-- CTXC (R389, R393). -/
def execCtxc (e : Eng) (p : Pred) (ra : BitVec 6) (off : Option Word) (s : State) : Host.Outcome State Fault Refusal :=
  act s (s.timedOp e p off (legal (.ctxc e p ra off)) [ra.toNat] fun _ g => .ctxc ((g.rd ra.toNat).toNat % 1024))

/-- SETPT: R[RA][23:0] (R286, R389). -/
def execSetpt (e : Eng) (p : Pred) (ra : BitVec 6) (axis : BitVec 2) (off : Option Word) (s : State) :
    Host.Outcome State Fault Refusal :=
  act s (s.timedOp e p off (legal (.setpt e p ra axis off)) [ra.toNat] fun _ g =>
    .setpt axis.toNat ((g.rd ra.toNat).toNat % 2 ^ 24))

/-- MARK (R340, R389). -/
def execMark (e : Eng) (p : Pred) (column : Bool) (off : Option Word) (s : State) : Host.Outcome State Fault Refusal :=
  act s (s.timedOp e p off (legal (.mark e p column off)) [] fun _ _ => .mark column)

/-- The time cursor moved by coarse ticks and sub-ticks, with the carry (R388) (open points: DESIGN CHOICE, log 24). -/
def State.advance (s : State) (coarse sub : Nat) : State :=
  let n := s.seq.fsq.sub + sub
  s.setFsq { s.seq.fsq with tc := (s.seq.fsq.tc + coarse + n / 16) % 2 ^ 64, sub := n % 16 }

/-- TC set to a device time; one earlier than TC is ignored and counted (R338) (open points: DEDUCED, log 70). -/
def State.moveTo (s : State) (t : Nat) : State :=
  if 16 * t < 16 * s.seq.fsq.tc + s.seq.fsq.sub then s.count (F.SEQ_CNT_COUNT 7)
  else s.setFsq { s.seq.fsq with tc := t, sub := 0 }

/-- The registers that a form of WAITT reads. -/
def waitReads : WaitForm → List Nat
  | .relReg ra => [ra.toNat]
  | .relImm _ => []
  | .absReg ra => span ra.toNat 2

/-- The words of a WAITT. -/
def waitLen : WaitForm → Nat
  | .relImm _ => 2
  | _ => 1

/-- The time cursor after a WAITT (R394) (open points: DESIGN CHOICE, log 24; DEDUCED, log 70). -/
def State.moveTc (s : State) (g : Engine) : WaitForm → State
  | .relReg ra => s.advance (g.rd ra.toNat).toNat 0
  | .relImm v => s.advance (v.toNat / 16) (v.toNat % 16)
  | .absReg ra => s.moveTo (g.mask ra)

/-- WAITT (R338, R394). -/
def execWaitt (e : Eng) (p : Pred) (form : WaitForm) (s : State) : Host.Outcome State Fault Refusal :=
  act s (s.issue e p (waitLen form) (legal (.waitt e p form)) (fun g => g.genNos (waitReads form)) fun s g =>
    (s.moveTc g form).goOn e g (waitLen form))

/-- The FSQ waits; what it waits for may be known already (R297, R339) (open points: DEDUCED, log 63). -/
def State.waitFor (s : State) (w : FWait) : State := (s.setFsq { s.seq.fsq with wait := some w }).waitResume

/-- WAITA (R339, R395). -/
def execWaita (e : Eng) (p : Pred) (ra : BitVec 6) (axis dir : BitVec 2) (qd : BitVec 3) (s : State) :
    Host.Outcome State Fault Refusal :=
  act s (s.issue e p 1 (legal (.waita e p ra axis dir qd)) (fun g => g.genNos [ra.toNat]) fun s g =>
    s.waitFor (.axis axis.toNat ((g.rd ra.toNat).toNat % 2 ^ 24) dir.toNat qd.toNat))

/-- SYNCW (R339, R566). -/
def execSyncw (e : Eng) (p : Pred) (qd : BitVec 3) (s : State) : Host.Outcome State Fault Refusal :=
  act s (s.issue e p 1 (legal (.syncw e p qd)) (fun _ => []) fun s _ => s.waitFor (.sync qd.toNat))

end Sys2Proof.Machine
end

