-- ==== Sys2Proof/Machine/Dispatch.lean ====
section
/-!
DEFINITION. The dispatch: one arm per constructor of Instr, each a direct call of the command's meaning.
-/
namespace Sys2Proof.Machine

/-- A command's effect on the state (the queue apart). -/
def exec (i : Instr) (s : State) : Host.Outcome State Fault Refusal :=
  match i with
  | .resetAssert => Sys2Proof.Machine.execResetAssert s
  | .resetRelease cfgmode => Sys2Proof.Machine.execResetRelease cfgmode s
  | .registerWrite src a size v => Sys2Proof.Machine.execRegisterWrite src a size v s
  | .readClear rd a => Sys2Proof.Machine.execReadClear rd a s
  | .monitorWindowEnd count => Sys2Proof.Machine.execMonitorWindowEnd count s
  | .scrubRead loc upset passEnd => Sys2Proof.Machine.execScrubRead loc upset passEnd s
  | .lateCommand k t => Sys2Proof.Machine.execLateCommand k t s
  | .timedQueueEntryFreed => Sys2Proof.Machine.execTimedQueueEntryFreed s
  | .fireSlot => Sys2Proof.Machine.execFireSlot s
  | .pulseTrailingEdge n => Sys2Proof.Machine.execPulseTrailingEdge n s
  | .budgetTokenAdd => Sys2Proof.Machine.execBudgetTokenAdd s
  | .rowChange => Sys2Proof.Machine.execRowChange s
  | .rowSelectRise => Sys2Proof.Machine.execRowSelectRise s
  | .blankingEnd => Sys2Proof.Machine.execBlankingEnd s
  | .chainGo src image t => Sys2Proof.Machine.execChainGo src image t s
  | .chainResult edr => Sys2Proof.Machine.execChainResult edr s
  | .latchGuardStart => Sys2Proof.Machine.execLatchGuardStart s
  | .latchGuardEnd => Sys2Proof.Machine.execLatchGuardEnd s
  | .derateImageSend t => Sys2Proof.Machine.execDerateImageSend t s
  | .tfltAssert => Sys2Proof.Machine.execTfltAssert s
  | .tfltRelease => Sys2Proof.Machine.execTfltRelease s
  | .thermalResume => Sys2Proof.Machine.execThermalResume s
  | .tfactWrite src v => Sys2Proof.Machine.execTfactWrite src v s
  | .derateEnable src v => Sys2Proof.Machine.execDerateEnable src v s
  | .permitEdge level t => Sys2Proof.Machine.execPermitEdge level t s
  | .permitAckToggle t => Sys2Proof.Machine.execPermitAckToggle t s
  | .permitWatchdogExpire t => Sys2Proof.Machine.execPermitWatchdogExpire t s
  | .rearm src arm => Sys2Proof.Machine.execRearm src arm s
  | .arm src => Sys2Proof.Machine.execArm src s
  | .disarm src => Sys2Proof.Machine.execDisarm src s
  | .hardInhibitAssert => Sys2Proof.Machine.execHardInhibitAssert s
  | .hardInhibitRelease t => Sys2Proof.Machine.execHardInhibitRelease t s
  | .returnCrossing ch via rising t f hit selfOk => Sys2Proof.Machine.execReturnCrossing ch via rising t f hit selfOk s
  | .totTimeout ch hit => Sys2Proof.Machine.execTotTimeout ch hit s
  | .saturationDetect ch => Sys2Proof.Machine.execSaturationDetect ch s
  | .nsatWindowEnd g => Sys2Proof.Machine.execNsatWindowEnd g s
  | .retThrWrite src ch v => Sys2Proof.Machine.execRetThrWrite src ch v s
  | .shotBoundaryApply ch => Sys2Proof.Machine.execShotBoundaryApply ch s
  | .dllUnlock g => Sys2Proof.Machine.execDllUnlock g s
  | .dllLock g => Sys2Proof.Machine.execDllLock g s
  | .startCrossing st t f selfOk => Sys2Proof.Machine.execStartCrossing st t f selfOk s
  | .startPairing st t => Sys2Proof.Machine.execStartPairing st t s
  | .pairingWindowClose slot => Sys2Proof.Machine.execPairingWindowClose slot s
  | .pathFaultDeclare p => Sys2Proof.Machine.execPathFaultDeclare p s
  | .spareSwitchover k t => Sys2Proof.Machine.execSpareSwitchover k t s
  | .spareForcedHandover k t => Sys2Proof.Machine.execSpareForcedHandover k t s
  | .spareRetire src k v => Sys2Proof.Machine.execSpareRetire src k v s
  | .calibrationHandback k => Sys2Proof.Machine.execCalibrationHandback k s
  | .coincidenceDecision g => Sys2Proof.Machine.execCoincidenceDecision g s
  | .eventAccumulate g => Sys2Proof.Machine.execEventAccumulate g s
  | .lossRecordReached g => Sys2Proof.Machine.execLossRecordReached g s
  | .gateOpen => Sys2Proof.Machine.execGateOpen s
  | .gateClose ch t => Sys2Proof.Machine.execGateClose ch t s
  | .shotComplete slot => Sys2Proof.Machine.execShotComplete slot s
  | .zoomPlacementComplete slot t => Sys2Proof.Machine.execZoomPlacementComplete slot t s
  | .contextOpen => Sys2Proof.Machine.execContextOpen s
  | .contextCloseCommand => Sys2Proof.Machine.execContextCloseCommand s
  | .mapTakesEffect => Sys2Proof.Machine.execMapTakesEffect s
  | .markActs => Sys2Proof.Machine.execMarkActs s
  | .lanePassStart lane => Sys2Proof.Machine.execLanePassStart lane s
  | .closePassComplete lane => Sys2Proof.Machine.execClosePassComplete lane s
  | .earlyPassComplete lane => Sys2Proof.Machine.execEarlyPassComplete lane s
  | .laneCheckFail lane => Sys2Proof.Machine.execLaneCheckFail lane s
  | .decCheck src v => Sys2Proof.Machine.execDecCheck src v s
  | .decSel src v => Sys2Proof.Machine.execDecSel src v s
  | .dispatchStage => Sys2Proof.Machine.execDispatchStage s
  | .dispatchStart n => Sys2Proof.Machine.execDispatchStart n s
  | .backgroundSliceStart n => Sys2Proof.Machine.execBackgroundSliceStart n s
  | .budgetCut n => Sys2Proof.Machine.execBudgetCut n s
  | .zoneRecord t => Sys2Proof.Machine.execZoneRecord t s
  | .zoneHoldExpire n t => Sys2Proof.Machine.execZoneHoldExpire n t s
  | .zoneMapSelect src v => Sys2Proof.Machine.execZoneMapSelect src v s
  | .fineTableCandidate p => Sys2Proof.Machine.execFineTableCandidate p s
  | .sweepDwellEnd ch => Sys2Proof.Machine.execSweepDwellEnd ch s
  | .sweepRetry ch => Sys2Proof.Machine.execSweepRetry ch s
  | .rateWindowEnd p temp => Sys2Proof.Machine.execRateWindowEnd p temp s
  | .zeroWrite src v => Sys2Proof.Machine.execZeroWrite src v s
  | .calLoad src => Sys2Proof.Machine.execCalLoad src s
  | .uncalibratedTimeout ch => Sys2Proof.Machine.execUncalibratedTimeout ch s
  | .recalStart p t => Sys2Proof.Machine.execRecalStart p t s
  | .startRecalRequest src v t => Sys2Proof.Machine.execStartRecalRequest src v t s
  | .startRecalSwitch t => Sys2Proof.Machine.execStartRecalSwitch t s
  | .startRecalHandback t => Sys2Proof.Machine.execStartRecalHandback t s
  | .recalTimeout p => Sys2Proof.Machine.execRecalTimeout p s
  | .recalRequeue st => Sys2Proof.Machine.execRecalRequeue st s
  | .trimRecalRequest src v t => Sys2Proof.Machine.execTrimRecalRequest src v t s
  | .trimPassEnd ch => Sys2Proof.Machine.execTrimPassEnd ch s
  | .axisEnable src a v => Sys2Proof.Machine.execAxisEnable src a v s
  | .axisDisable src a v => Sys2Proof.Machine.execAxisDisable src a v s
  | .axisClear src a v => Sys2Proof.Machine.execAxisClear src a v s
  | .axisSample a t => Sys2Proof.Machine.execAxisSample a t s
  | .lawCompute a => Sys2Proof.Machine.execLawCompute a s
  | .lawDeadline a t => Sys2Proof.Machine.execLawDeadline a t s
  | .driveFrame t => Sys2Proof.Machine.execDriveFrame t s
  | .driveAck axis seq stat t => Sys2Proof.Machine.execDriveAck axis seq stat t s
  | .ackTimeout t => Sys2Proof.Machine.execAckTimeout t s
  | .resonantCycleEnd a t => Sys2Proof.Machine.execResonantCycleEnd a t s
  | .ftwWrite src a v => Sys2Proof.Machine.execFtwWrite src a v s
  | .setpointWrite src a v => Sys2Proof.Machine.execSetpointWrite src a v s
  | .axisRecordGo src a v => Sys2Proof.Machine.execAxisRecordGo src a v s
  | .scheduleEnable src a v => Sys2Proof.Machine.execScheduleEnable src a v s
  | .traceConfig src a v => Sys2Proof.Machine.execTraceConfig src a v s
  | .housekeepingStep t => Sys2Proof.Machine.execHousekeepingStep t s
  | .conversionStart n t => Sys2Proof.Machine.execConversionStart n t s
  | .conversionComplete n v t => Sys2Proof.Machine.execConversionComplete n v t s
  | .conversionRequest src v => Sys2Proof.Machine.execConversionRequest src v s
  | .hkmaskWrite src n v => Sys2Proof.Machine.execHkmaskWrite src n v s
  | .checkStart src v t => Sys2Proof.Machine.execCheckStart src v t s
  | .checkSettled t => Sys2Proof.Machine.execCheckSettled t s
  | .meterEnable src k v t => Sys2Proof.Machine.execMeterEnable src k v t s
  | .meterStamp k x => Sys2Proof.Machine.execMeterStamp k x s
  | .stampPost src k v t => Sys2Proof.Machine.execStampPost src k v t s
  | .meterGateEnd k => Sys2Proof.Machine.execMeterGateEnd k s
  | .fsqRun src v t => Sys2Proof.Machine.execFsqRun src v t s
  | .fsqStop src v => Sys2Proof.Machine.execFsqStop src v s
  | .fsqStopFlush t => Sys2Proof.Machine.execFsqStopFlush t s
  | .fsqBankGo src v => Sys2Proof.Machine.execFsqBankGo src v s
  | .peBankGo src v => Sys2Proof.Machine.execPeBankGo src v s
  | .postmasterHandover => Sys2Proof.Machine.execPostmasterHandover s
  | .waitaResume => Sys2Proof.Machine.execWaitaResume s
  | .waitTimeout t => Sys2Proof.Machine.execWaitTimeout t s
  | .nop e p => Sys2Proof.Machine.execNop e p s
  | .br e p target => Sys2Proof.Machine.execBr e p target s
  | .bl e p rl target => Sys2Proof.Machine.execBl e p rl target s
  | .jr e p ra => Sys2Proof.Machine.execJr e p ra s
  | .iLoop e p count last => Sys2Proof.Machine.execLoop e p count last s
  | .loopr e p count last => Sys2Proof.Machine.execLoopr e p count last s
  | .li e p rd imm => Sys2Proof.Machine.execLi e p rd imm s
  | .addi e p rd ra imm => Sys2Proof.Machine.execAddi e p rd ra imm s
  | .mov e p rd ra => Sys2Proof.Machine.execMov e p rd ra s
  | .tsti e p qd cond ra imm => Sys2Proof.Machine.execTsti e p qd cond ra imm s
  | .plog e p qd qa qb fn => Sys2Proof.Machine.execPlog e p qd qa qb fn s
  | .iEnd e p => Sys2Proof.Machine.execEnd e p s
  | .iTrap e p => Sys2Proof.Machine.execTrap e p s
  | .rft e p => Sys2Proof.Machine.execRft e p s
  | .mfs e p rd sr => Sys2Proof.Machine.execMfs e p rd sr s
  | .mts e p ra sr => Sys2Proof.Machine.execMts e p ra sr s
  | .xld e p rd ra disp => Sys2Proof.Machine.execXld e p rd ra disp s
  | .xst e p rs ra disp => Sys2Proof.Machine.execXst e p rs ra disp s
  | .fire e p ra off => Sys2Proof.Machine.execFire e p ra off s
  | .firec e p ra rc off => Sys2Proof.Machine.execFirec e p ra rc off s
  | .iRow e p row off => Sys2Proof.Machine.execRow e p row off s
  | .gate e p ra rl off => Sys2Proof.Machine.execGate e p ra rl off s
  | .iMap e p m off => Sys2Proof.Machine.execMap e p m off s
  | .ctxo e p ra nshot off => Sys2Proof.Machine.execCtxo e p ra nshot off s
  | .ctxc e p ra off => Sys2Proof.Machine.execCtxc e p ra off s
  | .setpt e p ra axis off => Sys2Proof.Machine.execSetpt e p ra axis off s
  | .mark e p column off => Sys2Proof.Machine.execMark e p column off s
  | .waitt e p form => Sys2Proof.Machine.execWaitt e p form s
  | .waita e p ra axis dir qd => Sys2Proof.Machine.execWaita e p ra axis dir qd s
  | .syncw e p qd => Sys2Proof.Machine.execSyncw e p qd s
  | .add e p rd ra b => Sys2Proof.Machine.execAdd e p rd ra b s
  | .sub e p rd ra b => Sys2Proof.Machine.execSub e p rd ra b s
  | .adds e p rd ra b => Sys2Proof.Machine.execAdds e p rd ra b s
  | .subs e p rd ra b => Sys2Proof.Machine.execSubs e p rd ra b s
  | .iAnd e p rd ra b => Sys2Proof.Machine.execAnd e p rd ra b s
  | .iOr e p rd ra b => Sys2Proof.Machine.execOr e p rd ra b s
  | .iXor e p rd ra b => Sys2Proof.Machine.execXor e p rd ra b s
  | .shl e p rd ra b => Sys2Proof.Machine.execShl e p rd ra b s
  | .shr e p rd ra b => Sys2Proof.Machine.execShr e p rd ra b s
  | .shra e p rd ra b => Sys2Proof.Machine.execShra e p rd ra b s
  | .shls e p rd ra b => Sys2Proof.Machine.execShls e p rd ra b s
  | .norm e p rd src => Sys2Proof.Machine.execNorm e p rd src s
  | .expb e p rd ra n => Sys2Proof.Machine.execExpb e p rd ra n s
  | .cmp e p qd cond ra b => Sys2Proof.Machine.execCmp e p qd cond ra b s
  | .sel e p rd ra rb qp => Sys2Proof.Machine.execSel e p rd ra rb qp s
  | .mul e p rd ra rb => Sys2Proof.Machine.execMul e p rd ra rb s
  | .muls e p rd ra rb => Sys2Proof.Machine.execMuls e p rd ra rb s
  | .mulhs e p rd ra rb => Sys2Proof.Machine.execMulhs e p rd ra rb s
  | .div e p rd ra rb => Sys2Proof.Machine.execDiv e p rd ra rb s
  | .divu e p rd ra rb => Sys2Proof.Machine.execDivu e p rd ra rb s
  | .mac e p an ra rb w red u => Sys2Proof.Machine.execMac e p an ra rb w red u s
  | .macs e p an ra rb w red u => Sys2Proof.Machine.execMacs e p an ra rb w red u s
  | .mta e p an ra sh z => Sys2Proof.Machine.execMta e p an ra sh z s
  | .mova e p rd an => Sys2Proof.Machine.execMova e p rd an s
  | .ld e p rd pa sz am sx off => Sys2Proof.Machine.execLd e p rd pa sz am sx off s
  | .iSt e p rs pa sz am off => Sys2Proof.Machine.execSt e p rs pa sz am off s
  | .hld e p rd pa reg n pi => Sys2Proof.Machine.execHld e p rd pa reg n pi s
  | .emit e p type pa ang => Sys2Proof.Machine.execEmit e p type pa ang s
  | .pmov e p pd ra fn imm => Sys2Proof.Machine.execPmov e p pd ra fn imm s
  | .streamJobFlush vc t => Sys2Proof.Machine.execStreamJobFlush vc t s
  | .pressJobStart e => Sys2Proof.Machine.execPressJobStart e s
  | .pressJobComplete e => Sys2Proof.Machine.execPressJobComplete e s
  | .pressFault e => Sys2Proof.Machine.execPressFault e s
  | .pressHprodWrite src v => Sys2Proof.Machine.execPressHprodWrite src v s
  | .streamPressConfig src vc v => Sys2Proof.Machine.execStreamPressConfig src vc v s
  | .lanePllLock l => Sys2Proof.Machine.execLanePllLock l s
  | .receiverDetect l found => Sys2Proof.Machine.execReceiverDetect l found s
  | .trainEnd l => Sys2Proof.Machine.execTrainEnd l s
  | .announceEnd l t => Sys2Proof.Machine.execAnnounceEnd l t s
  | .capSend l => Sys2Proof.Machine.execCapSend l s
  | .signalDetect l => Sys2Proof.Machine.execSignalDetect l s
  | .rxAdapted l => Sys2Proof.Machine.execRxAdapted l s
  | .blockLock l => Sys2Proof.Machine.execBlockLock l s
  | .blockLockLoss l => Sys2Proof.Machine.execBlockLockLoss l s
  | .signalLoss l => Sys2Proof.Machine.execSignalLoss l s
  | .rxStageTimeout l => Sys2Proof.Machine.execRxStageTimeout l s
  | .capMessage l msg => Sys2Proof.Machine.execCapMessage l msg s
  | .lanestatSend => Sys2Proof.Machine.execLanestatSend s
  | .lanestat active t => Sys2Proof.Machine.execLanestat active t s
  | .eidleEntry t => Sys2Proof.Machine.execEidleEntry t s
  | .eidleExit t => Sys2Proof.Machine.execEidleExit t s
  | .eidleReceive l => Sys2Proof.Machine.execEidleReceive l s
  | .frameReceive l fr t => Sys2Proof.Machine.execFrameReceive l fr t s
  | .frameRelease vc t => Sys2Proof.Machine.execFrameRelease vc t s
  | .frameLost vc t => Sys2Proof.Machine.execFrameLost vc t s
  | .frameTransmitStart l t => Sys2Proof.Machine.execFrameTransmitStart l t s
  | .vc1Insert t => Sys2Proof.Machine.execVc1Insert t s
  | .frameSent l t => Sys2Proof.Machine.execFrameSent l t s
  | .credit grant0 grant3 => Sys2Proof.Machine.execCredit grant0 grant3 s
  | .mgmtReceive fr t => Sys2Proof.Machine.execMgmtReceive fr t s
  | .recordPathResume vc t => Sys2Proof.Machine.execRecordPathResume vc t s
  | .lossWindowEnd t => Sys2Proof.Machine.execLossWindowEnd t s
  | .retrain src => Sys2Proof.Machine.execRetrain src s
  | .bar2Read src off len => Sys2Proof.Machine.execBar2Read src off len s
  | .bar2Write src off data => Sys2Proof.Machine.execBar2Write src off data s
  | .sqDoorbell src q v => Sys2Proof.Machine.execSqDoorbell src q v s
  | .cqDoorbell src q v => Sys2Proof.Machine.execCqDoorbell src q v s
  | .queueEnable src q v => Sys2Proof.Machine.execQueueEnable src q v s
  | .queueDisable src q v => Sys2Proof.Machine.execQueueDisable src q v s
  | .commandStart q entry => Sys2Proof.Machine.execCommandStart q entry s
  | .commandNop q => Sys2Proof.Machine.execCommandNop q s
  | .commandWrite q data => Sys2Proof.Machine.execCommandWrite q data s
  | .commandRead q => Sys2Proof.Machine.execCommandRead q s
  | .commandFill q => Sys2Proof.Machine.execCommandFill q s
  | .dmaError q x => Sys2Proof.Machine.execDmaError q x s
  | .completionWrite q => Sys2Proof.Machine.execCompletionWrite q s
  | .cqMessageTimer q => Sys2Proof.Machine.execCqMessageTimer q s
  | .eventEnableWrite src v => Sys2Proof.Machine.execEventEnableWrite src v s
  | .hotReset => Sys2Proof.Machine.execHotReset s
  | .powerStateChange d3 => Sys2Proof.Machine.execPowerStateChange d3 s
  | .bmeChange on => Sys2Proof.Machine.execBmeChange on s
  | .timebaseLock us => Sys2Proof.Machine.execTimebaseLock us s
  | .presetsPlaced slot0 slot1 => Sys2Proof.Machine.execPresetsPlaced slot0 slot1 s
  | .bootComplete slot0 slot1 => Sys2Proof.Machine.execBootComplete slot0 slot1 s
  | .bootFail slot0 slot1 => Sys2Proof.Machine.execBootFail slot0 slot1 s
  | .bootstatSend t => Sys2Proof.Machine.execBootstatSend t s
  | .keyLock src v => Sys2Proof.Machine.execKeyLock src v s
  | .sleep src v => Sys2Proof.Machine.execSleep src v s
  | .wake by_ => Sys2Proof.Machine.execWake by_ s
  | .faultRecordWrite k t => Sys2Proof.Machine.execFaultRecordWrite k t s
  | .rootExpire m => Sys2Proof.Machine.execRootExpire m s
  | .timebaseUnlock => Sys2Proof.Machine.execTimebaseUnlock s
  | .replayTimeout slot t => Sys2Proof.Machine.execReplayTimeout slot t s
  | .syncEdge t => Sys2Proof.Machine.execSyncEdge t s
  | .correlationWindowStart w => Sys2Proof.Machine.execCorrelationWindowStart w s
  | .reportSlot n => Sys2Proof.Machine.execReportSlot n s
  | .ignoredRead rd a size => Sys2Proof.Machine.execIgnoredRead rd a size s
  | .latchingRead rd off => Sys2Proof.Machine.execLatchingRead rd off s
  | .illegalInstruction e w x => Sys2Proof.Machine.execIllegalInstruction e w x s
  | .pcieLinkUp speed width => Sys2Proof.Machine.execPcieLinkUp speed width s
  | .eidleRelockTimeout l => Sys2Proof.Machine.execEidleRelockTimeout l s
  | .testPortClock trst tms tdi => Sys2Proof.Machine.execTestPortClock trst tms tdi s
  | .testReset => Sys2Proof.Machine.execTestReset s
  | .msixUnmask vec => Sys2Proof.Machine.execMsixUnmask vec s

end Sys2Proof.Machine
end

