-- ==== Sys2Proof/WellFormed.lean ====
section
/-!
DEFINITION. Well-formed commands: operands that a sender can mean. An ill-formed command is one that no party of the spec can send
(log 2); its meaning is still total.
-/
namespace Sys2Proof

/-- A device time is a number of 64 bits (00_scope.md). -/
def timeOk (t : Nat) : Bool := t < 2 ^ 64

/-- The sizes of a register access (R11). -/
def sizeOk (n : Nat) : Bool := n = 1 || n = 2 || n = 4 || n = 8

/-- The length of one PCI Express request, at most 4,096 bytes (R484). -/
def lengthOk (n : Nat) : Bool := 0 < n && n ≤ 4096

/-- A frame's payload has the length of 16 bits that a header can give (R452). -/
def frameOk (f : RxFrame) : Bool := f.payload.length < 65536

/-- A location that exists: an error in an engine names one of the registers that parity protects, or, as number 96, the queue of the
records that it holds (R612). -/
def locOk : ScrubLoc → Bool
  | .reg _ r => r < 97
  | _ => true

/-- An upset changes each symbol once, by a value that is not 0 (R34). -/
def upsetOk : List (Fin 36 × Byte) → Bool
  | [] => true
  | x :: l => x.2 ≠ 0#8 && !(l.any fun y => y.1 = x.1) && upsetOk l

/-- A boot slot holds at most 16 MiB (R520). -/
def slotOk (l : List Byte) : Bool := l.length ≤ 16777216

/-- A command whose operands a sender can mean. -/
def wellFormed : Instr → Bool
  | .resetAssert => true
  | .resetRelease _ => true
  | .registerWrite _ _ size _ => sizeOk size
  | .readClear _ _ => true
  | .monitorWindowEnd _ => true
  | .scrubRead loc upset _ => locOk loc && upsetOk upset
  | .lateCommand _ t => timeOk t
  | .timedQueueEntryFreed => true
  | .fireSlot => true
  | .pulseTrailingEdge _ => true
  | .budgetTokenAdd => true
  | .rowChange => true
  | .rowSelectRise => true
  | .blankingEnd => true
  | .chainGo _ _ t => timeOk t
  | .chainResult _ => true
  | .latchGuardStart => true
  | .latchGuardEnd => true
  | .derateImageSend t => timeOk t
  | .tfltAssert => true
  | .tfltRelease => true
  | .thermalResume => true
  | .tfactWrite _ _ => true
  | .derateEnable _ _ => true
  | .permitEdge _ t => timeOk t
  | .permitAckToggle t => timeOk t
  | .permitWatchdogExpire t => timeOk t
  | .rearm _ _ => true
  | .arm _ => true
  | .disarm _ => true
  | .hardInhibitAssert => true
  | .hardInhibitRelease t => timeOk t
  | .returnCrossing _ _ _ t _ _ _ => timeOk t
  | .totTimeout _ _ => true
  | .saturationDetect _ => true
  | .nsatWindowEnd _ => true
  | .retThrWrite _ _ _ => true
  | .shotBoundaryApply _ => true
  | .dllUnlock _ => true
  | .dllLock _ => true
  | .startCrossing _ t _ _ => timeOk t
  | .startPairing _ t => timeOk t
  | .pairingWindowClose _ => true
  | .pathFaultDeclare _ => true
  | .spareSwitchover _ t => timeOk t
  | .spareForcedHandover _ t => timeOk t
  | .spareRetire _ _ _ => true
  | .calibrationHandback _ => true
  | .coincidenceDecision _ => true
  | .eventAccumulate _ => true
  | .lossRecordReached _ => true
  | .gateOpen => true
  | .gateClose _ t => timeOk t
  | .shotComplete _ => true
  | .zoomPlacementComplete _ t => timeOk t
  | .contextOpen => true
  | .contextCloseCommand => true
  | .mapTakesEffect => true
  | .markActs => true
  | .lanePassStart _ => true
  | .closePassComplete _ => true
  | .earlyPassComplete _ => true
  | .laneCheckFail _ => true
  | .decCheck _ _ => true
  | .decSel _ _ => true
  | .dispatchStage => true
  | .dispatchStart _ => true
  | .backgroundSliceStart _ => true
  | .budgetCut _ => true
  | .zoneRecord t => timeOk t
  | .zoneHoldExpire _ t => timeOk t
  | .zoneMapSelect _ _ => true
  | .fineTableCandidate _ => true
  | .sweepDwellEnd _ => true
  | .sweepRetry _ => true
  | .rateWindowEnd _ _ => true
  | .zeroWrite _ _ => true
  | .calLoad _ => true
  | .uncalibratedTimeout _ => true
  | .recalStart _ t => timeOk t
  | .startRecalRequest _ _ t => timeOk t
  | .startRecalSwitch t => timeOk t
  | .startRecalHandback t => timeOk t
  | .recalTimeout _ => true
  | .recalRequeue _ => true
  | .trimRecalRequest _ _ t => timeOk t
  | .trimPassEnd _ => true
  | .axisEnable _ _ _ => true
  | .axisDisable _ _ _ => true
  | .axisClear _ _ _ => true
  | .axisSample _ t => timeOk t
  | .lawCompute _ => true
  | .lawDeadline _ t => timeOk t
  | .driveFrame t => timeOk t
  | .driveAck _ _ _ t => timeOk t
  | .ackTimeout t => timeOk t
  | .resonantCycleEnd _ t => timeOk t
  | .ftwWrite _ _ _ => true
  | .setpointWrite _ _ _ => true
  | .axisRecordGo _ _ _ => true
  | .scheduleEnable _ _ _ => true
  | .traceConfig _ _ _ => true
  | .housekeepingStep t => timeOk t
  | .conversionStart _ t => timeOk t
  | .conversionComplete _ _ t => timeOk t
  | .conversionRequest _ _ => true
  | .hkmaskWrite _ _ _ => true
  | .checkStart _ _ t => timeOk t
  | .checkSettled t => timeOk t
  | .meterEnable _ _ _ t => timeOk t
  | .meterStamp _ x => decide (x < 2 ^ 74)
  | .stampPost _ _ _ t => timeOk t
  | .meterGateEnd _ => true
  | .fsqRun _ _ t => timeOk t
  | .fsqStop _ _ => true
  | .fsqStopFlush t => timeOk t
  | .fsqBankGo _ _ => true
  | .peBankGo _ _ => true
  | .postmasterHandover => true
  | .waitaResume => true
  | .waitTimeout t => timeOk t
  | .nop e p => legal (.nop e p)
  | .br e p target => legal (.br e p target)
  | .bl e p rl target => legal (.bl e p rl target)
  | .jr e p ra => legal (.jr e p ra)
  | .iLoop e p count last => legal (.iLoop e p count last)
  | .loopr e p count last => legal (.loopr e p count last)
  | .li e p rd imm => legal (.li e p rd imm)
  | .addi e p rd ra imm => legal (.addi e p rd ra imm)
  | .mov e p rd ra => legal (.mov e p rd ra)
  | .tsti e p qd cond ra imm => legal (.tsti e p qd cond ra imm)
  | .plog e p qd qa qb fn => legal (.plog e p qd qa qb fn)
  | .iEnd e p => legal (.iEnd e p)
  | .iTrap e p => legal (.iTrap e p)
  | .rft e p => legal (.rft e p)
  | .mfs e p rd sr => legal (.mfs e p rd sr)
  | .mts e p ra sr => legal (.mts e p ra sr)
  | .xld e p rd ra disp => legal (.xld e p rd ra disp)
  | .xst e p rs ra disp => legal (.xst e p rs ra disp)
  | .fire e p ra off => legal (.fire e p ra off)
  | .firec e p ra rc off => legal (.firec e p ra rc off)
  | .iRow e p row off => legal (.iRow e p row off)
  | .gate e p ra rl off => legal (.gate e p ra rl off)
  | .iMap e p m off => legal (.iMap e p m off)
  | .ctxo e p ra nshot off => legal (.ctxo e p ra nshot off)
  | .ctxc e p ra off => legal (.ctxc e p ra off)
  | .setpt e p ra axis off => legal (.setpt e p ra axis off)
  | .mark e p column off => legal (.mark e p column off)
  | .waitt e p form => legal (.waitt e p form)
  | .waita e p ra axis dir qd => legal (.waita e p ra axis dir qd)
  | .syncw e p qd => legal (.syncw e p qd)
  | .add e p rd ra b => legal (.add e p rd ra b)
  | .sub e p rd ra b => legal (.sub e p rd ra b)
  | .adds e p rd ra b => legal (.adds e p rd ra b)
  | .subs e p rd ra b => legal (.subs e p rd ra b)
  | .iAnd e p rd ra b => legal (.iAnd e p rd ra b)
  | .iOr e p rd ra b => legal (.iOr e p rd ra b)
  | .iXor e p rd ra b => legal (.iXor e p rd ra b)
  | .shl e p rd ra b => legal (.shl e p rd ra b)
  | .shr e p rd ra b => legal (.shr e p rd ra b)
  | .shra e p rd ra b => legal (.shra e p rd ra b)
  | .shls e p rd ra b => legal (.shls e p rd ra b)
  | .norm e p rd src => legal (.norm e p rd src)
  | .expb e p rd ra n => legal (.expb e p rd ra n)
  | .cmp e p qd cond ra b => legal (.cmp e p qd cond ra b)
  | .sel e p rd ra rb qp => legal (.sel e p rd ra rb qp)
  | .mul e p rd ra rb => legal (.mul e p rd ra rb)
  | .muls e p rd ra rb => legal (.muls e p rd ra rb)
  | .mulhs e p rd ra rb => legal (.mulhs e p rd ra rb)
  | .div e p rd ra rb => legal (.div e p rd ra rb)
  | .divu e p rd ra rb => legal (.divu e p rd ra rb)
  | .mac e p an ra rb w red u => legal (.mac e p an ra rb w red u)
  | .macs e p an ra rb w red u => legal (.macs e p an ra rb w red u)
  | .mta e p an ra sh z => legal (.mta e p an ra sh z)
  | .mova e p rd an => legal (.mova e p rd an)
  | .ld e p rd pa sz am sx off => legal (.ld e p rd pa sz am sx off)
  | .iSt e p rs pa sz am off => legal (.iSt e p rs pa sz am off)
  | .hld e p rd pa reg n pi => legal (.hld e p rd pa reg n pi)
  | .emit e p type pa ang => legal (.emit e p type pa ang)
  | .pmov e p pd ra fn imm => legal (.pmov e p pd ra fn imm)
  | .streamJobFlush _ t => timeOk t
  | .pressJobStart _ => true
  | .pressJobComplete _ => true
  | .pressFault _ => true
  | .pressHprodWrite _ _ => true
  | .streamPressConfig _ _ _ => true
  | .lanePllLock _ => true
  | .receiverDetect _ _ => true
  | .trainEnd _ => true
  | .announceEnd _ t => timeOk t
  | .capSend _ => true
  | .signalDetect _ => true
  | .rxAdapted _ => true
  | .blockLock _ => true
  | .blockLockLoss _ => true
  | .signalLoss _ => true
  | .rxStageTimeout _ => true
  | .capMessage _ _ => true
  | .lanestatSend => true
  | .lanestat _ t => timeOk t
  | .eidleEntry t => timeOk t
  | .eidleExit t => timeOk t
  | .eidleReceive _ => true
  | .frameReceive _ fr t => frameOk fr && timeOk t
  | .frameRelease _ t => timeOk t
  | .frameLost _ t => timeOk t
  | .frameTransmitStart _ t => timeOk t
  | .vc1Insert t => timeOk t
  | .frameSent _ t => timeOk t
  | .credit _ _ => true
  | .mgmtReceive fr t => frameOk fr && timeOk t
  | .recordPathResume _ t => timeOk t
  | .lossWindowEnd t => timeOk t
  | .retrain _ => true
  | .bar2Read _ _ len => lengthOk len
  | .bar2Write _ _ data => lengthOk data.length
  | .sqDoorbell _ _ _ => true
  | .cqDoorbell _ _ _ => true
  | .queueEnable _ _ _ => true
  | .queueDisable _ _ _ => true
  | .commandStart _ _ => true
  | .commandNop _ => true
  | .commandWrite _ _ => true
  | .commandRead _ => true
  | .commandFill _ => true
  | .dmaError _ _ => true
  | .completionWrite _ => true
  | .cqMessageTimer _ => true
  | .eventEnableWrite _ _ => true
  | .hotReset => true
  | .powerStateChange _ => true
  | .bmeChange _ => true
  | .timebaseLock _ => true
  | .presetsPlaced slot0 slot1 => slotOk slot0 && slotOk slot1
  | .bootComplete slot0 slot1 => slotOk slot0 && slotOk slot1
  | .bootFail slot0 slot1 => slotOk slot0 && slotOk slot1
  | .bootstatSend t => timeOk t
  | .keyLock _ _ => true
  | .sleep _ _ => true
  | .wake _ => true
  | .faultRecordWrite _ t => timeOk t
  | .rootExpire _ => true
  | .timebaseUnlock => true
  | .replayTimeout _ t => timeOk t
  | .syncEdge t => timeOk t
  | .correlationWindowStart _ => true
  | .reportSlot _ => true
  | .ignoredRead _ _ size => sizeOk size
  | .latchingRead _ _ => true
  | .illegalInstruction e w x => (decodeInstr e w x).isNone
  | .pcieLinkUp _ _ => true
  | .eidleRelockTimeout _ => true
  | .testPortClock _ _ _ => true
  | .testReset => true
  | .msixUnmask _ => true

end Sys2Proof
end

