-- ==== Sys2Proof/Safety.lean ====
section
/-!
DEFINITION. The terms that claims are stated in: what a command completes with, when an instruction of an engine runs, the state that it
leaves, the parts of the state that a command leaves alone, and the invariants.
-/
namespace Sys2Proof.Machine

/-! ### Completion -/

/-- A command answers a next state of which E holds. -/
def Completes (c : Instr) (s : State) (E : State → Prop) : Prop := ∃ t, exec c s = .next t ∧ E t

/-- A command answers t, with the queue as it was. -/
def Answers (c : Instr) (s t : State) : Prop := exec c s = .next { t with pending := s.pending }

/-- A counter goes up by one, and stays at its largest value. -/
def CountsOne (f : Fld) (s t : State) : Prop := t.get f = min (s.get f + 1) (2 ^ f.w - 1)

/-- A message of vector v is pending as an event (R509). -/
def Raised (v : Nat) (t : State) : Prop := t.is ⟨F.HIF_EVSTAT_CAUSE.off, v, 1⟩ = true

/-- Unless an active root absorbs it, a fault of this cause and instance was detected last, at the present device time (R532, R540). -/
def Detects (cause inst : Nat) (s t : State) : Prop :=
  (∀ r ∈ s.flt.roots, inScope r.cause r.inst cause inst none = false) →
    ∃ f, t.flt.detected.getLast? = some f ∧ f.cause = cause ∧ f.inst = inst ∧ f.dtDet = t.dt

/-- The registers outside a set are as before. -/
def KeepsRegs (may : Nat → Bool) (s t : State) : Prop := ∀ a, may a = false → t.reg a = s.reg a

/-- The registers that an event or a message may change (R508, R509). -/
def messageReg (a : Nat) : Bool := a == F.HIF_EVSTAT_CAUSE.off || a == (F.HIF_CNT_COUNT 4).off

/-- The registers of the FLT block, the fault log among them (R537). -/
def faultReg (a : Nat) : Bool := decide (0x58000 ≤ a) && decide (a < 0x5C000)

/-- An operation was ignored as a whole and counted (R11, R606): the register that counts it, the one that says where it was aimed, and the
event of vector 9 with its message are all that changed. -/
def Ignored (s t : State) : Prop :=
  CountsOne F.SYS_IGNORED_COUNT s t ∧ Raised 9 t
    ∧ KeepsRegs (fun a => a == F.SYS_IGNORED_COUNT.off || a == F.SYS_IGNLAST_KIND.off || messageReg a) s t
    ∧ { t with regs := s.regs, outs := s.outs, hifx := s.hifx } = s

/-! ### Engine instructions -/

/-- An engine fetches an instruction of len words at its PC: RESET_N is high, the engine may issue, and the words lie in the bank and can
be read (R37, R376). -/
def State.fetches (s : State) (e : Eng) (len : Nat) : Prop :=
  s.inReset = false ∧ s.mayIssue e = true ∧ (s.eng e).pc + len ≤ bankWords e
    ∧ s.rangeOk (s.wordAt e (s.eng e).pc) (4 * len) = true

/-- The state in which a fetched instruction has its effect: its words read, the instruction counted (R37, R356). -/
def State.fetched (s : State) (e : Eng) (len : Nat) : State := (s.touchRange (s.wordAt e (s.eng e).pc) (4 * len)).counted e

/-- An engine fetches an instruction whose predicate is true and none of whose registers, by their parity numbers, has an error (R373,
R612). -/
def State.runs (s : State) (e : Eng) (p : Pred) (len : Nat) (reads : List Nat) : Prop :=
  s.fetches e len ∧ (s.eng e).holds p = true ∧ ∀ r ∈ reads, (s.eng e).bad.contains r = false

/-- The state after an instruction of len words that changes the registers of its engine by f and nothing else. -/
def State.after (s : State) (e : Eng) (len : Nat) (f : Engine → Engine) : State :=
  (s.fetched e len).setEng e ((f ((s.fetched e len).eng e)).next len)

/-- A timed instruction of the FSQ with its predicate and offset, the registers that it reads and the command that it queues (R389). A FIRE
or FIREC names an output, and a GATE a length, for else nothing is queued (R89, R392). -/
def State.timedForm (s : State) (i : Instr) (p : Pred) (off : Option Word) (rs : List Nat) (k : TKind) : Prop :=
  (∃ ra, i = .fire .fsq p ra off ∧ rs = span ra.toNat 2 ∧ (s.eng .fsq).mask ra ≠ 0
      ∧ k = .fire ((s.eng .fsq).mask ra) s.seq.fsq.row none)
    ∨ (∃ ra rc, i = .firec .fsq p ra rc off ∧ rs = span ra.toNat 2 ++ [rc.toNat] ∧ (s.eng .fsq).mask ra ≠ 0
        ∧ k = .fire ((s.eng .fsq).mask ra) s.seq.fsq.row (some (sint 11 ((s.eng .fsq).rd rc.toNat).toNat)))
    ∨ (∃ r, i = .iRow .fsq p r off ∧ rs = [] ∧ k = .row r.toNat)
    ∨ (∃ ra rl, i = .gate .fsq p ra rl off ∧ rs = span ra.toNat 2 ++ [rl.toNat] ∧ ((s.eng .fsq).rd rl.toNat).toNat % 65536 ≠ 0
        ∧ k = .gate ((s.eng .fsq).mask ra) s.seq.fsq.row (((s.eng .fsq).rd rl.toNat).toNat % 65536))
    ∨ (∃ m, i = .iMap .fsq p m off ∧ rs = [] ∧ k = .map m.toNat)
    ∨ (∃ ra n, i = .ctxo .fsq p ra n off ∧ rs = [ra.toNat] ∧ k = .ctxo (((s.eng .fsq).rd ra.toNat).toNat % 1024) n.toNat)
    ∨ (∃ ra, i = .ctxc .fsq p ra off ∧ rs = [ra.toNat] ∧ k = .ctxc (((s.eng .fsq).rd ra.toNat).toNat % 1024))
    ∨ (∃ ra a, i = .setpt .fsq p ra a off ∧ rs = [ra.toNat] ∧ k = .setpt a.toNat (((s.eng .fsq).rd ra.toNat).toNat % 2 ^ 24))
    ∨ ∃ c, i = .mark .fsq p c off ∧ rs = [] ∧ k = .mark c

/-! ### What is left alone -/

/-- Everything but registers, device time, messages, fault roots and the emission block is as before. -/
def OnlyEmission (s t : State) : Prop :=
  t.inReset = s.inReset ∧ t.mem = s.mem ∧ t.synd = s.synd ∧ t.lastRead = s.lastRead ∧ t.free = s.free ∧ t.ret = s.ret ∧ t.stl = s.stl
    ∧ t.pool = s.pool ∧ t.cal = s.cal ∧ t.dec = s.dec ∧ t.seq = s.seq ∧ t.prs = s.prs ∧ t.axs = s.axs ∧ t.drv = s.drv ∧ t.sns = s.sns
    ∧ t.pnt = s.pnt ∧ t.fle = s.fle ∧ t.tap = s.tap ∧ t.pending = s.pending

/-- The memories, the engines, the contexts, the Decanter, the Press, the stream link, points, units in company and the test port are as
before, and so is the queue. -/
def KeepsWork (s t : State) : Prop :=
  t.mem = s.mem ∧ t.synd = s.synd ∧ t.seq = s.seq ∧ t.pool = s.pool ∧ t.dec = s.dec ∧ t.prs = s.prs ∧ t.stl = s.stl ∧ t.pnt = s.pnt
    ∧ t.fle = s.fle ∧ t.tap = s.tap ∧ t.pending = s.pending

/-- Every byte of memory and every syndrome, the engines and the queue are as before. -/
def KeepsMemory (s t : State) : Prop := t.mem = s.mem ∧ t.synd = s.synd ∧ t.seq = s.seq ∧ t.pending = s.pending

/-! ### Fire slots -/

/-- A t_fire, in subticks, comes after a state that a command left and after every change that the state before it had on record: it is judged
by what holds then (R46, log 105). -/
def State.follows (t s : State) (tf : Nat) : Prop := 16 * t.dt < tf ∧ ∀ x ∈ s.emi.past, 16 * x.t < tf

/-- The reasons of R88 to skip a slot, with whether each applies at a t_fire. LATE, 12, is that of commands that do not act. -/
def State.skipConds (s : State) (n e row tf : Nat) : List (Nat × Bool) :=
  [(1, s.hardInh tf), (2, s.isAt F.EMI_STAT_PTRIP tf), (3, s.thermalAt tf), (4, s.isAt F.EMI_STAT_CHFLT tf || s.inGuard tf),
    (5, s.axisInhibit n tf), (6, !s.isAt F.EMI_STAT_ARMED tf), (7, !s.isAt (F.EMI_FOUT_EN n) tf), (8, s.blanked row tf),
    (9, s.derated n tf), (10, s.tooSoon n tf 1600), (11, s.tokensAt tf = 0), (13, s.is F.CTX_STAT_QSKIP && (s.openOf e).isEmpty)]

/-- VC0's buffer ends with a SKIPMARK of these fields, where it had room, nothing waited for it or on its way to it and its records are not
compressed (R173, R211). -/
def EmitsSkip (map frame column emitter nctx t : Nat) (s u : State) : Prop :=
  (∀ z ∈ s.pnt.zoneQ, z.vc ≠ 0) → s.stl.held.getD 0 [] = [] → s.hasRoom 0 32 = true → (s.reg (scfgOff 0)).getLsbD 0 = false →
    ∃ it, u.stl.bufs.getD 0 [] = s.stl.bufs.getD 0 [] ++ [it] ∧ it.skipmark = true
      ∧ it.data = leBytes 1 7 ++ leBytes 1 map ++ leBytes 2 frame ++ leBytes 2 column ++ leBytes 2 0 ++ leBytes 2 emitter
          ++ leBytes 2 nctx ++ leBytes 16 0 ++ leBytes 4 t

/-! ### Accumulation -/

/-- The first event of a group's queue can be taken: its gates belong to one shot, which fired and has its start; one live context waits for
that shot and reads its channel, no word of memory holds an error, and suspect events are not sampled. -/
def State.takesEvent (s : State) (g : Nat) (e : Ev) (h : Shot) (st : Start) (c : Ctx) : Prop :=
  (s.group g).queue = [.ev e] ∧ e.bad = false ∧ s.ready e = true ∧ s.shotsOf e = [h] ∧ h.fired = true ∧ h.start = some st
    ∧ s.pool.ctxs = [c] ∧ c.live = true ∧ h.members.contains c.id = true ∧ h.chans.contains e.chan = true
    ∧ c.chans.contains e.chan = true ∧ c.slot < 32768 ∧ s.synd = [] ∧ s.is F.FLE_SUS_EN = false

/-! ### Invariants -/

/-- The memory, the syndromes and the registers are in their canonical forms. -/
def State.canonical (s : State) : Prop :=
  Memory.wf s.mem = true ∧ FMap.wf (fun _ => 0#32) s.synd = true ∧ FMap.wf resetVal s.regs = true

end Sys2Proof.Machine
end

