-- ==== Sys2Proof/Certificates/Slice0/Obligations.lean ====
section
/-!
DEFINITION. The statements about the model, for the provers. A clause that names a command says that it completes, what it leaves and what
it keeps. Hypotheses speak of the state and the operands alone.
-/
open Sys2Proof Sys2Proof.Machine

/-! ### The machine -/

/-- step runs exec on the command at the front of the queue, with the queue's rest; the step on an empty queue is the model's choice
(log 1). -/
def Obligations.StepRunsFrontCommand : Prop :=
  (∀ (c : Instr) (rest : List Instr) (s : State), step { s with pending := c :: rest } = exec c { s with pending := rest })
    ∧ ∀ s : State, s.pending = [] → step s = .next s

/-- Whatever the state, the step answers a next state and takes one entry of the queue. That no command stops the part is the model's choice
(log 97), and so is the queue (log 1). -/
def Obligations.EveryStepGoesOn : Prop := ∀ s : State, ∃ t, step s = .next t ∧ t.pending = s.pending.tail

/-- While RESET_N is low no command but the reset pins, the test port, PERMIT_IN and EMI_INH_N changes anything, and of these two only the
level is followed. RESET_N low brings the state after reset, with the fuses, the test port and these two levels kept, and holds the outputs:
every fire and row output, EDQ, PERMIT_ACK, the zone outputs and the drive link are low, QSPI_CS_N is high, and TDO is at high impedance.
The key hash is kept where KLOCK has fixed it. Its rise samples CFGMODE, from there EMI_STAT.INH follows its pin, and in SOLO the boot
starts. The test port follows TMS on each TCK edge, and five ones reset it; TRST_N low holds it reset; TDO shows a bit one edge later
through BYPASS, and is at high impedance outside the shift states; selecting EXTEST disarms emission and holds every fire and row output low
(R1, R85, R369, R516, R517, R523, R526, R578, R584). That no command has an effect while RESET_N is low, what reset keeps, and that RESET_N
does not hold the test port are the model's choices (log 87, 99), and so are the codes of the test instructions (log 12). -/
def Obligations.ResetAndTestPort : Prop :=
  (∀ (c : Instr) (s : State), s.inReset = true → c ≠ .resetAssert → (∀ m, c ≠ .resetRelease m) →
    (∀ a b d, c ≠ .testPortClock a b d) → c ≠ .testReset → (∀ l t, c ≠ .permitEdge l t) → c ≠ .hardInhibitAssert →
    (∀ t, c ≠ .hardInhibitRelease t) → exec c s = .next s)
    ∧ (∀ (s : State) (l : Bool) (t : Nat), s.inReset = true →
      exec (.permitEdge l t) s = .next { s with emi := { s.emi with permit := l } }
        ∧ exec .hardInhibitAssert s = .next { s with emi := { s.emi with inhN := false } }
        ∧ exec (.hardInhibitRelease t) s = .next { s with emi := { s.emi with inhN := true } })
    ∧ (∀ s : State, ∃ t, exec .resetAssert s = .next t
      ∧ t.inReset = true ∧ t.dt = 0 ∧ t.emi = { State.reset.emi with inhN := s.emi.inhN, permit := s.emi.permit }
      ∧ t.ret = State.reset.ret ∧ t.pool = State.reset.pool ∧ t.cal = State.reset.cal ∧ t.dec = State.reset.dec ∧ t.seq = State.reset.seq
      ∧ t.prs = State.reset.prs ∧ t.axs = State.reset.axs ∧ t.drv = State.reset.drv ∧ t.sns = State.reset.sns ∧ t.pnt = State.reset.pnt
      ∧ t.fle = State.reset.fle ∧ t.flt = State.reset.flt ∧ t.stl = State.reset.stl ∧ t.hifx = State.reset.hifx ∧ t.tap = { s.tap with tdo := none }
      ∧ t.outs = s.outs ∧ t.pending = s.pending
      ∧ (s.canonical → t.serial = s.serial ∧ t.is F.TBS_CFG_KLOCK = s.is F.TBS_CFG_KLOCK
          ∧ ∀ k, k < 8 → t.get (F.TBS_KHASH_HASH k) = if s.is F.TBS_CFG_KLOCK then s.get (F.TBS_KHASH_HASH k) else 0)
      ∧ t.is F.EMI_STAT_ARMED = false ∧ t.running = false
      ∧ (∀ i, i ≤ 80 ∨ i = 84 ∨ (86 ≤ i ∧ i < 90) ∨ (92 ≤ i ∧ i < 96) → t.pin i = some false) ∧ t.pin 98 = some true)
    ∧ (∀ (s : State) (solo : Bool),
      (s.inReset = false → exec (.resetRelease solo) s = .next s)
        ∧ (s.inReset = true → ∃ t, exec (.resetRelease solo) s = .next t
          ∧ t.inReset = false ∧ t.is F.SYS_STRAP_CFGMODE = solo ∧ t.is F.EMI_STAT_INH = !s.emi.inhN
          ∧ (solo = true → t.get F.TBS_BOOT_RESULT = 4 ∧ t.booting = true ∧ t.isPost 15 = true ∧ t.stl = { s.stl with presetsWait := true })
          ∧ (solo = false → t.get F.TBS_BOOT_RESULT = s.get F.TBS_BOOT_RESULT ∧ t.stl = s.stl)
          ∧ { t with inReset := s.inReset, regs := s.regs, stl := s.stl } = s))
    ∧ (∀ (s : State) (tms tdi : Bool),
      (∃ t, exec .testReset s = .next t
        ∧ t.tap.state = .logicReset ∧ t.tap.instr = .bypass ∧ t.tap.hold = s.tap.hold ∧ { t with tap := s.tap } = s)
        ∧ (∃ t, exec (.testPortClock false tms tdi) s = .next t
          ∧ t.tap.state = .logicReset ∧ t.tap.instr = .bypass ∧ t.tap.hold = s.tap.hold ∧ { t with tap := s.tap } = s)
        ∧ ∃ t, exec (.testPortClock true tms tdi) s = .next t
          ∧ t.tap.state = s.tap.state.next tms
          ∧ (s.tap.state = .shiftDr → s.tap.instr = .bypass →
            t.tap.bypass = tdi ∧ (tms = false → s.inReset = false → t.tap.tdo = some tdi))
          ∧ (s.tap.state = .captureDr → s.tap.instr = .bypass → tms = false → s.inReset = false → t.tap.tdo = some false)
          ∧ ((t.tap.state ≠ .shiftDr ∧ t.tap.state ≠ .shiftIr) ∨ s.inReset = true → t.tap.tdo = none)
          ∧ (s.tap.state = .exit1Ir → tms = true → s.tap.irShift = 0#4 →
            t.tap.instr = .extest ∧ t.is F.EMI_CTRL_ARM = false ∧ (s.is F.EMI_CTRL_ARM = true → t.is F.EMI_STAT_ARMED = false))
          ∧ { t with tap := s.tap, free := s.free, regs := s.regs, outs := s.outs, hifx := s.hifx
                     emi := { t.emi with past := s.emi.past } } = s)
    ∧ (∀ (s : State) (n : Nat), s.tap.instr = .extest → s.firePin n = false ∧ s.rowPin n = false)
    ∧ ∀ st : TapState, (((((st.next true).next true).next true).next true).next true) = .logicReset

/-- Every step keeps the canonical forms of memory, syndromes and registers, from every state that has them. -/
def Obligations.CanonicalKept : Prop := ∀ s t : State, s.canonical → step s = .next t → t.canonical

/-- The state after reset has the canonical forms. -/
def Obligations.CanonicalAtReset : Prop := State.reset.canonical

/-! ### Encodings -/

/-- Decoding the words of a legal instruction gives it back, whatever word follows one without an extension; and what decodes, encodes to the
words that it was decoded from: every bit of a defined encoding counts, and the extension where bit 21 says that there is one (R372, R374). -/
def Obligations.EncodingRoundTrip : Prop :=
  (∀ (i : Instr) (e : Eng) (q : Parts) (y : Word), i.parts = some (e, q) → legal i = true →
    decodeInstr e q.word (q.ext.getD y) = some i)
    ∧ (∀ (e : Eng) (w x : Word) (i : Instr), decodeInstr e w x = some i →
    encodeInstr i = some (w, if hasExt w then some x else none))

/-- Words of the spec's example, of the tables of chapter 11, decoded. -/
def Obligations.WordsDecode : Prop :=
  decodeInstr (.pe 0) 0xC8022A80#32 0#32 = some (.mac (.pe 0) ⟨false, 0#3⟩ 0#3 34#6 42#6 0#2 false false)
    ∧ decodeInstr (.pe 0) 0x1AEA0000#32 0xFFFF#32 = some (.li (.pe 0) ⟨true, 3#3⟩ 20#6 (.ext 0xFFFF#32))
    ∧ decodeInstr .fsq 0x84202000#32 0x27100#32 = some (.waitt .fsq ⟨false, 0#3⟩ (.relImm 0x27100#32))
    ∧ decodeInstr .fsq 0x40000000#32 0#32 = none
    ∧ decodeInstr (.pe 3) 0x2C000000#32 0#32 = none

/-! ### Engines -/

/-- An instruction whose predicate is false issues, counts, and does nothing else; it reads no register, so an error in one does not matter. A
predicate is Q[PQ], inverted by PN; Q0 reads 1, so PN = 1 with PQ = 0 never holds, and a write to Q0 has no effect (R356, R373, R376, R380).
Points that the spec leaves open follow the model's choices (log 67). -/
def Obligations.Predicates : Prop :=
  (∀ (i : Instr) (e : Eng) (q : Parts) (s : State), i.parts = some (e, q) → legal i = true → s.fetches e (extLen q.ext) →
    (s.eng e).holds q.pred = false → exec i s = .next (s.after e (extLen q.ext) id))
    ∧ (∀ (g : Engine) (i j : Nat) (b : Bool), i < 8 → j < 8 →
    g.holds ⟨true, 0#3⟩ = false ∧ g.holds ⟨false, 0#3⟩ = true ∧ g.setQ 0 b = g
      ∧ (g.setQ i b).qBit j = (if j = 0 then true else if j = i then b else g.qBit j)
      ∧ ∀ p : Pred, (g.setQ i b).holds p = ((g.setQ i b).qBit p.q.toNat != p.neg))

/-- What an instruction that changes only registers of its engine leaves alone, and what a write of a general register changes. -/
def Obligations.EngineFrame : Prop :=
  (∀ (s : State) (e : Eng) (len : Nat) (f : Engine → Engine), s.fetches e len →
    (s.after e len f).eng e = (f ((s.fetched e len).eng e)).next len
      ∧ (∀ e', e' ≠ e → (s.after e len f).eng e' = s.eng e')
      ∧ (∀ n, ((s.after e len f).pe n).work = (s.pe n).work ∧ ((s.after e len f).pe n).staged = (s.pe n).staged)
      ∧ (s.after e len f).seq.ended = s.seq.ended ∧ (s.after e len f).seq.returned = s.seq.returned
      ∧ (s.after e len f).emi = s.emi ∧ (s.after e len f).ret = s.ret ∧ (s.after e len f).pool = s.pool ∧ (s.after e len f).cal = s.cal
      ∧ (s.after e len f).dec = s.dec ∧ (s.after e len f).prs = s.prs ∧ (s.after e len f).stl = s.stl ∧ (s.after e len f).axs = s.axs
      ∧ (s.after e len f).sns = s.sns ∧ (s.after e len f).pnt = s.pnt ∧ (s.after e len f).fle = s.fle ∧ (s.after e len f).flt = s.flt
      ∧ (s.after e len f).drv = s.drv ∧ (s.after e len f).hifx = s.hifx ∧ (s.after e len f).tap = s.tap
      ∧ (s.after e len f).outs = s.outs ∧ (s.after e len f).dt = s.dt ∧ (s.after e len f).pending = s.pending
      ∧ (∀ a, (a < s.wordAt e (s.eng e).pc / 32 * 32 ∨ (s.wordAt e (s.eng e).pc + 4 * len + 31) / 32 * 32 ≤ a) →
          (s.after e len f).byte a = s.byte a)
      ∧ ∀ a, a ≠ F.SEQ_STAT_INTRAP.off → (∀ n, a ≠ (F.SEQ_PESTAT_TCAUSE n).off) → (∀ m, a ≠ (F.FLT_CORR_COUNT m).off) →
          (s.after e len f).reg a = s.reg a)
    ∧ ∀ (g : Engine) (r k : Nat) (v : Word), r < 64 → k < 64 →
      (g.wr r v).rd k = (if k = r then v else g.rd k) ∧ (g.wr r v).a = g.a ∧ (g.wr r v).p = g.p ∧ (g.wr r v).q = g.q
        ∧ (g.wr r v).lc = g.lc ∧ (g.wr r v).loops = g.loops ∧ (g.wr r v).pc = g.pc ∧ (g.wr r v).rrb = g.rrb ∧ (g.wr r v).mode = g.mode
        ∧ (g.wr r v).stat = g.stat

/-- The instruction index advances over the extension where no active level ends at the instruction; a level that ends goes back to its top
while its LC is above 1, and continues behind its END otherwise; a rotating one rotates the registers at each end (R343, R344, R376).
Points that the spec leaves open follow the model's choices (log 66). -/
def Obligations.SequentialFlow : Prop :=
  ∀ (g : Engine) (len : Nat),
    ((∀ l ∈ g.loops.getLast?, l.last ≠ g.pc) → g.next len = { g with pc := g.pc + len })
      ∧ (∀ (ls : List LoopLv) (l : LoopLv), g.loops = ls ++ [l] → l.last = g.pc → ls.length < 4 →
          (1 < (g.lc.getD ls.length 0#32).toNat →
            (g.next len).pc = l.top ∧ (g.next len).loops = g.loops
              ∧ ((g.next len).lc.getD ls.length 0#32).toNat = (g.lc.getD ls.length 0#32).toNat - 1)
          ∧ ((g.lc.getD ls.length 0#32).toNat ≤ 1 → (∀ k ∈ ls, k.last ≠ g.pc) →
            (g.next len).pc = g.pc + len ∧ (g.next len).loops = ls ∧ (g.next len).lc.getD ls.length 1#32 = 0#32)
          ∧ ((∀ k ∈ ls, k.last ≠ g.pc) → g.rrb < 32 →
            (g.next len).rrb = (if l.rot then (g.rrb + 31) % 32 else g.rrb)))

/-- A word that is no instruction takes the ILLEGAL trap: execution continues at the TRAP entry with the following index in TPC; on the FSQ
the trap is counted, on a Point Engine it dooms the work and raises a record (R359, R360, R374, R386).
Points that the spec leaves open follow the model's choices (log 67). -/
def Obligations.IllegalTakesTrap : Prop :=
  (∀ (w x : Word) (s : State), decodeInstr .fsq w x = none → s.fetches .fsq (wordLen w) → (s.eng .fsq).intrap = false →
    Completes (.illegalInstruction .fsq w x) s fun t =>
      t.eng .fsq = { (s.eng .fsq).next (wordLen w) with tcause := 3, intrap := true, tpc := ((s.eng .fsq).next (wordLen w)).pc, pc := 8 }
        ∧ CountsOne (F.SEQ_CNT_COUNT 4) s t ∧ t.get F.SEQ_STAT_INTRAP = 1 ∧ t.emi = s.emi ∧ t.flt = s.flt)
    ∧ ∀ (n : Fin 16) (w x : Word) (s : State), decodeInstr (.pe n) w x = none → s.fetches (.pe n) (wordLen w) →
      (s.eng (.pe n)).intrap = false → s.flt.roots = [] →
      Completes (.illegalInstruction (.pe n) w x) s fun t =>
        (t.eng (.pe n)).tcause = 3 ∧ (t.eng (.pe n)).intrap = true ∧ (t.eng (.pe n)).doomed = true ∧ (t.eng (.pe n)).pc = 12
          ∧ (t.eng (.pe n)).tpc = ((s.eng (.pe n)).next (wordLen w)).pc ∧ (t.eng (.pe n)).d = (s.eng (.pe n)).d
          ∧ t.flt.detected.length = s.flt.detected.length + 1 ∧ CountsOne (F.SEQ_CNT_COUNT 3) s t ∧ t.emi = s.emi

/-- What the flow instructions that do not branch leave: the immediate or its extension, a wrapping sum, a copy, a predicate (R378,
R379). -/
def Obligations.FlowResults : Prop :=
  (∀ (e : Eng) (p : Pred) (s : State), s.runs e p 1 [] → exec (.nop e p) s = .next (s.after e 1 id))
    ∧ (∀ (e : Eng) (p : Pred) (rd : BitVec 6) (imm : Imm 15) (s : State), regOk e rd = true → s.runs e p (immLen imm) [] →
        exec (.li e p rd imm) s = .next (s.after e (immLen imm) fun g => g.wr rd.toNat (immVal imm)))
    ∧ (∀ (e : Eng) (p : Pred) (rd ra : BitVec 6) (imm : Imm 9) (s : State), regOk e rd = true → regOk e ra = true →
        s.runs e p (immLen imm) ((s.eng e).genNos [ra.toNat]) →
        exec (.addi e p rd ra imm) s = .next (s.after e (immLen imm) fun g => g.wr rd.toNat (g.rd ra.toNat + immVal imm)))
    ∧ (∀ (e : Eng) (p : Pred) (rd ra : BitVec 6) (s : State), regOk e rd = true → regOk e ra = true →
        s.runs e p 1 ((s.eng e).genNos [ra.toNat]) →
        exec (.mov e p rd ra) s = .next (s.after e 1 fun g => g.wr rd.toNat (g.rd ra.toNat)))
    ∧ (∀ (e : Eng) (p : Pred) (qd : BitVec 3) (c : Cond) (ra : BitVec 6) (imm : Imm 9) (s : State), regOk e ra = true →
        s.runs e p (immLen imm) ((s.eng e).genNos [ra.toNat]) →
        exec (.tsti e p qd c ra imm) s
          = .next (s.after e (immLen imm) fun g => g.setQ qd.toNat (condHolds c (g.rd ra.toNat) (immVal imm))))
    ∧ (∀ (e : Eng) (p : Pred) (qd qa qb : BitVec 3) (fn : BitVec 2) (s : State), s.runs e p 1 [] →
        exec (.plog e p qd qa qb fn) s
          = .next (s.after e 1 fun g => g.setQ qd.toNat (plogOf fn (g.qBit qa.toNat) (g.qBit qb.toNat))))
    ∧ ∀ x y : Word, condHolds .eq x y = decide (x = y) ∧ condHolds .ne x y = decide (x ≠ y)
        ∧ condHolds .lt x y = decide (x.toInt < y.toInt) ∧ condHolds .ge x y = decide (y.toInt ≤ x.toInt)
        ∧ condHolds .ltu x y = decide (x.toNat < y.toNat) ∧ condHolds .geu x y = decide (y.toNat ≤ x.toNat)

/-- A branch within the bank continues at its target, keeping the levels around it; BL saves the next index; a target beyond the bank takes
the ADDRESS trap, with that target as the index to resume at, and BL saves nothing then (R343, R376, R379, R380, R386). That BL saves nothing and
that TPC holds the target are the model's choices (log 67). -/
def Obligations.Branches : Prop :=
  (∀ (e : Eng) (p : Pred) (target : BitVec 16) (s : State), s.runs e p 1 [] → target.toNat < bankWords e →
    exec (.br e p target) s = .next ((s.fetched e 1).setEng e (((s.fetched e 1).eng e).branch target.toNat)))
    ∧ (∀ (e : Eng) (p : Pred) (rl : BitVec 5) (target : BitVec 16) (s : State), s.runs e p 1 [] → target.toNat < bankWords e →
        exec (.bl e p rl target) s = .next ((s.fetched e 1).setEng e
          ((((s.fetched e 1).eng e).wr rl.toNat (BitVec.ofNat 32 ((s.eng e).pc + 1))).branch target.toNat)))
    ∧ (∀ (e : Eng) (p : Pred) (ra : BitVec 6) (s : State), regOk e ra = true → s.runs e p 1 ((s.eng e).genNos [ra.toNat]) →
        ((s.eng e).rd ra.toNat).toNat < bankWords e →
        exec (.jr e p ra) s = .next ((s.fetched e 1).setEng e (((s.fetched e 1).eng e).branch ((s.eng e).rd ra.toNat).toNat)))
    ∧ (∀ (e : Eng) (p : Pred) (target : BitVec 16) (s : State), s.runs e p 1 [] → bankWords e ≤ target.toNat →
        Answers (.br e p target) s ((s.fetched e 1).trap e 4 false none target.toNat)
          ∧ ∀ rl, Answers (.bl e p rl target) s ((s.fetched e 1).trap e 4 false none target.toNat))
    ∧ (∀ (e : Eng) (p : Pred) (ra : BitVec 6) (s : State), regOk e ra = true → s.runs e p 1 ((s.eng e).genNos [ra.toNat]) →
        bankWords e ≤ ((s.eng e).rd ra.toNat).toNat → Answers (.jr e p ra) s
          ((s.fetched e 1).trap e 4 false none ((s.eng e).rd ra.toNat).toNat))
    ∧ ∀ (g : Engine) (target : Nat), (g.branch target).pc = target ∧ (g.branch target).lc = g.lc ∧ (g.branch target).d = g.d
        ∧ ((∀ l ∈ g.loops, l.top ≤ target ∧ target ≤ l.last) → (g.branch target).loops = g.loops)
        ∧ (∀ l ls, g.loops = l :: ls → (target < l.top ∨ l.last < target) → (g.branch target).loops = [])
        ∧ ∀ b, g.setQ 0 b = g

/-- A loop with a count enters its body at the next nesting level; one with a count of 0 continues behind its END; a fifth level, a second
rotating one, an END that is not inside the body, the enclosing level or the bank, or one at a loop instruction, takes the ILLEGAL trap, and an
END that cannot be read the MEMORY trap; the index to resume at is where the loop would have continued (R343, R344, R381, R386, R543).
Points that the spec leaves open follow the model's choices (log 66). -/
def Obligations.Loops : Prop :=
  (∀ (e : Eng) (p : Pred) (k : LoopCount) (last : BitVec 16) (s : State) (u : State × Bool),
    s.runs e p (extLen k.extWord) ((s.eng e).genNos (countReads k)) →
    u = (s.fetched e (extLen k.extWord)).lastWord e last.toNat → u.2 = true →
    u.1.loopBad e (s.eng e) (extLen k.extWord) last.toNat false = false → (s.eng e).countVal k ≠ 0#32 →
    Completes (.iLoop e p k last) s fun t =>
      (t.eng e).pc = (s.eng e).pc + extLen k.extWord
        ∧ (t.eng e).loops = (s.eng e).loops ++ [⟨(s.eng e).pc + extLen k.extWord, last.toNat, false⟩]
        ∧ (t.eng e).lc = ((s.eng e).setLc (s.eng e).loops.length ((s.eng e).countVal k)).lc ∧ (t.eng e).d = (s.eng e).d
        ∧ (t.eng e).rrb = (s.eng e).rrb ∧ t.emi = s.emi)
    ∧ (∀ (n : Fin 16) (p : Pred) (k : LoopCount) (last : BitVec 16) (s : State) (u : State × Bool),
      s.runs (.pe n) p (extLen k.extWord) ((s.eng (.pe n)).genNos (countReads k)) →
      u = (s.fetched (.pe n) (extLen k.extWord)).lastWord (.pe n) last.toNat → u.2 = true →
      u.1.loopBad (.pe n) (s.eng (.pe n)) (extLen k.extWord) last.toNat true = false → (s.eng (.pe n)).countVal k ≠ 0#32 →
      Completes (.loopr (.pe n) p k last) s fun t =>
        (t.eng (.pe n)).pc = (s.eng (.pe n)).pc + extLen k.extWord
          ∧ (t.eng (.pe n)).loops = (s.eng (.pe n)).loops ++ [⟨(s.eng (.pe n)).pc + extLen k.extWord, last.toNat, true⟩]
          ∧ (t.eng (.pe n)).lc = ((s.eng (.pe n)).setLc (s.eng (.pe n)).loops.length ((s.eng (.pe n)).countVal k)).lc
          ∧ (t.eng (.pe n)).rrb = (s.eng (.pe n)).rrb ∧ t.emi = s.emi)
    ∧ (∀ (e : Eng) (p : Pred) (k : LoopCount) (last : BitVec 16) (s : State) (u : State × Bool),
      s.runs e p (extLen k.extWord) ((s.eng e).genNos (countReads k)) →
      u = (s.fetched e (extLen k.extWord)).lastWord e last.toNat → u.2 = true →
      u.1.loopBad e (s.eng e) (extLen k.extWord) last.toNat false = false → (s.eng e).countVal k = 0#32 →
      (∀ l ∈ (s.eng e).loops, l.last ≠ last.toNat) →
      Completes (.iLoop e p k last) s fun t => (t.eng e).pc = last.toNat + 1 ∧ (t.eng e).loops = (s.eng e).loops ∧ t.emi = s.emi)
    ∧ (∀ (n : Fin 16) (p : Pred) (k : LoopCount) (last : BitVec 16) (s : State) (u : State × Bool),
      s.runs (.pe n) p (extLen k.extWord) ((s.eng (.pe n)).genNos (countReads k)) →
      u = (s.fetched (.pe n) (extLen k.extWord)).lastWord (.pe n) last.toNat → u.2 = true →
      u.1.loopBad (.pe n) (s.eng (.pe n)) (extLen k.extWord) last.toNat true = false → (s.eng (.pe n)).countVal k = 0#32 →
      (∀ l ∈ (s.eng (.pe n)).loops, l.last ≠ last.toNat) →
      Completes (.loopr (.pe n) p k last) s fun t =>
        (t.eng (.pe n)).pc = last.toNat + 1 ∧ (t.eng (.pe n)).loops = (s.eng (.pe n)).loops
          ∧ (t.eng (.pe n)).rrb = (s.eng (.pe n)).rrb ∧ t.emi = s.emi)
    ∧ (∀ (e : Eng) (p : Pred) (k : LoopCount) (last : BitVec 16) (s : State) (u : State × Bool) (x : Nat),
      s.runs e p (extLen k.extWord) ((s.eng e).genNos (countReads k)) →
      u = (s.fetched e (extLen k.extWord)).lastWord e last.toNat →
      x = (s.eng e).loopResume (extLen k.extWord) last.toNat ((s.eng e).countVal k) →
      (u.2 = true → u.1.loopBad e (s.eng e) (extLen k.extWord) last.toNat false = true →
        Answers (.iLoop e p k last) s (u.1.trap e 3 false none x))
      ∧ (u.2 = false → Answers (.iLoop e p k last) s (u.1.trap e 5 true (some (bankMem e)) x)))
    ∧ (∀ (n : Fin 16) (p : Pred) (k : LoopCount) (last : BitVec 16) (s : State) (u : State × Bool) (x : Nat),
      s.runs (.pe n) p (extLen k.extWord) ((s.eng (.pe n)).genNos (countReads k)) →
      u = (s.fetched (.pe n) (extLen k.extWord)).lastWord (.pe n) last.toNat →
      x = (s.eng (.pe n)).loopResume (extLen k.extWord) last.toNat ((s.eng (.pe n)).countVal k) →
      (u.2 = true → u.1.loopBad (.pe n) (s.eng (.pe n)) (extLen k.extWord) last.toNat true = true →
        Answers (.loopr (.pe n) p k last) s (u.1.trap (.pe n) 3 false none x))
      ∧ (u.2 = false → Answers (.loopr (.pe n) p k last) s (u.1.trap (.pe n) 5 true (some (bankMem (.pe n))) x)))
    ∧ (∀ (g : Engine) (len last : Nat) (c : Word),
      (c ≠ 0#32 → g.loopResume len last c = (g.next len).pc)
        ∧ (c = 0#32 → (∀ l ∈ g.loops, l.last ≠ last) → g.loopResume len last c = last + 1))
    ∧ ∀ (e : Eng) (g : Engine) (s : State) (len last : Nat) (rot : Bool), s.loopBad e g len last rot = false ↔
        g.loops.length < 4 ∧ (rot = true → ∀ l ∈ g.loops, l.rot = false) ∧ g.pc + len - 1 < last
          ∧ (∀ l ∈ g.loops.getLast?, last ≤ l.last) ∧ last < bankWords e ∧ s.opAt e last ≠ 4 ∧ s.opAt e last ≠ 5

/-- TRAP enters the handler with cause 2, the index to resume at in TPC and the loop levels, LC and RRB that go with it; RFT leaves the handler
at TPC, ends the work that an ending trap doomed, and outside the handler takes the ILLEGAL trap; END ends the work of a dispatch and hands on
what a pixel or a replay holds, takes the ILLEGAL trap in the management program, and the PARITY trap where a held record has an error; in doomed
work it discards what is held (R353, R360, R361, R384, R386, R612). That END takes the PARITY trap of a held record is the model's choice
(log 103), and so are other points that the spec leaves open (log 67). -/
def Obligations.TrapAndReturn : Prop :=
  (∀ (p : Pred) (s : State), s.runs .fsq p 1 [] → (s.eng .fsq).intrap = false →
    Completes (.iTrap .fsq p) s fun t =>
      t.eng .fsq = { (s.eng .fsq).next 1 with tcause := 2, intrap := true, tpc := ((s.eng .fsq).next 1).pc, pc := 8 }
        ∧ CountsOne (F.SEQ_CNT_COUNT 4) s t ∧ t.emi = s.emi ∧ t.pool = s.pool)
    ∧ (∀ (n : Fin 16) (p : Pred) (s : State), s.runs (.pe n) p 1 [] → (s.eng (.pe n)).intrap = false →
      Completes (.iTrap (.pe n) p) s fun t =>
        (t.eng (.pe n)).tcause = 2 ∧ (t.eng (.pe n)).intrap = true ∧ (t.eng (.pe n)).pc = 12
          ∧ (t.eng (.pe n)).tpc = ((s.eng (.pe n)).next 1).pc ∧ (t.eng (.pe n)).loops = ((s.eng (.pe n)).next 1).loops
          ∧ (t.eng (.pe n)).lc = ((s.eng (.pe n)).next 1).lc ∧ (t.eng (.pe n)).rrb = ((s.eng (.pe n)).next 1).rrb
          ∧ (t.eng (.pe n)).d = (s.eng (.pe n)).d
          ∧ (t.pe n.val).work = (s.pe n.val).work ∧ t.flt = s.flt)
    ∧ (∀ (e : Eng) (p : Pred) (s : State), s.runs e p 1 [] → (s.eng e).intrap = true → (s.eng e).doomed = false →
      Completes (.rft e p) s fun t =>
        t.eng e = { ((s.fetched e 1).eng e) with intrap := false, pc := (s.eng e).tpc } ∧ t.emi = s.emi ∧ t.pool = s.pool)
    ∧ (∀ (n : Fin 16) (p : Pred) (s : State), s.runs (.pe n) p 1 [] → (s.eng (.pe n)).intrap = true → (s.eng (.pe n)).doomed = true →
      Answers (.rft (.pe n) p) s (((s.fetched (.pe n) 1).setEng (.pe n)
        { ((s.fetched (.pe n) 1).eng (.pe n)) with intrap := false, pc := (s.eng (.pe n)).tpc }).trapEnd n.val))
    ∧ (∀ (e : Eng) (p : Pred) (s : State), s.runs e p 1 [] → (s.eng e).intrap = false →
      Answers (.rft e p) s ((s.fetched e 1).trap e 3 false none (s.eng e).tpc))
    ∧ (∀ (n : Fin 16) (p : Pred) (d : Disp) (s : State), s.runs (.pe n) p 1 [heldQueue] → (s.pe n.val).work = some d →
      (d.kind = 2 ∨ d.kind = 3) → (d.kind = 2 → s.pnt.recsHeld = [] ∧ s.seq.ended = []) → (s.eng (.pe n)).doomed = false →
        (s.eng (.pe n)).retire = false → s.isPost n.val = false →
      Completes (.iEnd (.pe n) p) s fun t =>
        (t.pe n.val).work = none ∧ (t.pe n.val).staged = (s.pe n.val).staged ∧ t.get (F.SEQ_PESTAT_KIND n.val) = 0
          ∧ t.emi = s.emi ∧ t.pool = s.pool ∧ t.stl = s.stl ∧ t.pnt = s.pnt)
    ∧ (∀ (n : Fin 16) (p : Pred) (d : Disp) (id : Nat) (s : State), s.runs (.pe n) p 1 [heldQueue] → (s.pe n.val).work = some d →
      (d.kind = 1 ∨ d.kind = 4) → d.ctx = some id → (s.eng (.pe n)).doomed = false →
      Answers (.iEnd (.pe n) p) s (((s.fetched (.pe n) 1).endPixel id d.points).workDone n.val))
    ∧ (∀ (n : Fin 16) (p : Pred) (d : Disp) (s : State), s.runs (.pe n) p 1 [heldQueue] → (s.pe n.val).work = some d → d.kind = 5 →
      Answers (.iEnd (.pe n) p) s ((s.fetched (.pe n) 1).trapAt (.pe n) 1 3))
    ∧ (∀ (n : Fin 16) (p : Pred) (s : State), s.runs (.pe n) p 1 [] → (s.eng (.pe n)).bad.contains heldQueue = true →
      (s.eng (.pe n)).doomed = false → Answers (.iEnd (.pe n) p) s ((s.fetched (.pe n) 1).trapAt (.pe n) 1 6))
    ∧ ∀ (n : Fin 16) (p : Pred) (s : State), s.runs (.pe n) p 1 [] → (s.eng (.pe n)).doomed = true → s.manages (.pe n) = false →
      Answers (.iEnd (.pe n) p) s ((s.fetched (.pe n) 1).trapEnd n.val)

/-- MFS reads a special register of its engine; MTS writes MODE, clears status bits or writes a loop counter; a SCALE above 40 takes the
ILLEGAL trap; PBANK is there in the management program only, whose bank a write changes, and else takes the ILLEGAL trap (R370, R384, R385).
Points that the spec leaves open follow the model's choices (log 70, 72). -/
def Obligations.SpecialRegisters : Prop :=
  (∀ (e : Eng) (p : Pred) (rd : BitVec 6) (sr : BitVec 5) (s : State), regOk e rd = true → mfsOk e sr.toNat = true → sr.toNat ≠ 13 →
    s.runs e p 1 [] →
    exec (.mfs e p rd sr) s = .next (s.after e 1 fun g => g.wr rd.toNat ((s.fetched e 1).special e g sr.toNat)))
    ∧ (∀ (n : Fin 16) (p : Pred) (ra : BitVec 6) (s : State), s.runs (.pe n) p 1 ((s.eng (.pe n)).genNos [ra.toNat]) →
      ((s.eng (.pe n)).rd ra.toNat).toNat % 64 ≤ 40 →
      exec (.mts (.pe n) p ra 0#5) s = .next (s.after (.pe n) 1 fun g => { g with mode := (g.rd ra.toNat).setWidth 8 }))
    ∧ (∀ (n : Fin 16) (p : Pred) (ra : BitVec 6) (s : State), s.runs (.pe n) p 1 ((s.eng (.pe n)).genNos [ra.toNat]) →
      40 < ((s.eng (.pe n)).rd ra.toNat).toNat % 64 →
      Answers (.mts (.pe n) p ra 0#5) s ((s.fetched (.pe n) 1).trapAt (.pe n) 1 3))
    ∧ (∀ (n : Fin 16) (p : Pred) (ra : BitVec 6) (s : State), s.runs (.pe n) p 1 ((s.eng (.pe n)).genNos [ra.toNat]) →
      exec (.mts (.pe n) p ra 1#5) s = .next (s.after (.pe n) 1 fun g =>
        { g with aov := g.aov && !(g.rd ra.toNat).getLsbD 0, msat := g.msat && !(g.rd ra.toNat).getLsbD 1 }))
    ∧ (∀ (e : Eng) (p : Pred) (ra : BitVec 6) (k : Nat) (s : State), regOk e ra = true → k < 4 →
      s.runs e p 1 ((s.eng e).genNos [ra.toNat]) →
      exec (.mts e p ra (BitVec.ofNat 5 (2 + k))) s = .next (s.after e 1 fun g => g.setLc k (g.rd ra.toNat)))
    ∧ (∀ (n : Fin 16) (p : Pred) (rd : BitVec 6) (s : State), s.runs (.pe n) p 1 [] →
      Answers (.mfs (.pe n) p rd 13#5) s (if s.manages (.pe n)
        then s.after (.pe n) 1 fun g => g.wr rd.toNat (BitVec.ofNat 32 g.bank) else (s.fetched (.pe n) 1).trapAt (.pe n) 1 3))
    ∧ (∀ (n : Fin 16) (p : Pred) (ra : BitVec 6) (s : State), s.runs (.pe n) p 1 ((s.eng (.pe n)).genNos [ra.toNat]) →
      Answers (.mts (.pe n) p ra 13#5) s (if s.manages (.pe n)
        then (s.fetched (.pe n) 1).setEng (.pe n) { ((s.fetched (.pe n) 1).eng (.pe n)) with
          bank := ((s.eng (.pe n)).rd ra.toNat).toNat % 2, loops := [], pc := (s.eng (.pe n)).pc + 1 }
        else (s.fetched (.pe n) 1).trapAt (.pe n) 1 3))
    ∧ ∀ (e : Eng) (g : Engine) (s : State),
        s.special e g 0 = g.mode.setWidth 32
          ∧ (e.isFsq = false → (s.special e g 1).getLsbD 0 = g.aov ∧ (s.special e g 1).getLsbD 1 = g.msat
            ∧ (s.special e g 1).getLsbD 2 = g.dsat)
          ∧ (s.special e g 1).getLsbD 3 = g.intrap ∧ s.special e g 9 = BitVec.ofNat 32 s.seq.fsq.sub
          ∧ s.special e g 10 = BitVec.ofNat 32 (s.get F.SEQ_FPOS_FRAME) ∧ s.special e g 11 = BitVec.ofNat 32 (s.get F.SEQ_FPOS_COLUMN)
          ∧ s.special e g 6 = BitVec.ofNat 32 g.tpc ∧ s.special e g 7 = BitVec.ofNat 32 s.seq.fsq.tc
          ∧ s.special e g 8 = BitVec.ofNat 32 (s.seq.fsq.tc / 2 ^ 32) ∧ s.special e g 12 = BitVec.ofNat 32 s.dt
          ∧ ∀ k, k < 4 → s.special e g (2 + k) = g.lc.getD k 0#32

/-- XLD and XST move an aligned word of the shared memory: XST stores four bytes, least significant first, and no other byte; an uncorrectable
word takes the MEMORY trap; an address that is not a multiple of 4, and a store outside the regions that the engine may write, take the ADDRESS
trap (R38, R354, R387, R543).
Points that the spec leaves open follow the model's choices (log 67, 69). -/
def Obligations.WordTransfers : Prop :=
  (∀ (e : Eng) (p : Pred) (rd ra : BitVec 6) (disp : Imm 9) (s : State), regOk e rd = true → regOk e ra = true →
    s.runs e p (immLen disp) ((s.eng e).genNos [ra.toNat]) →
    ∀ a, a = ((s.eng e).rd ra.toNat + immVal disp).toNat → a % 4 = 0 → 0x400000 ≤ a → a < 0x800000 →
    ((s.fetched e (immLen disp)).errors (a / 32) = 0#32 →
      exec (.xld e p rd ra disp) s
        = .next (s.after e (immLen disp) fun g => g.wr rd.toNat (BitVec.ofNat 32 ((s.fetched e (immLen disp)).num a 4))))
    ∧ ((s.fetched e (immLen disp)).rangeOk a 4 = false →
      Answers (.xld e p rd ra disp) s
        (((s.fetched e (immLen disp)).touchRange a 4).trapAt e (immLen disp) 5 false (some 3))))
    ∧ (∀ (e : Eng) (p : Pred) (rs ra : BitVec 6) (disp : Imm 9) (s : State), regOk e rs = true → regOk e ra = true →
      s.runs e p (immLen disp) ((s.eng e).genNos [rs.toNat, ra.toNat]) →
      ∀ a, a = ((s.eng e).rd ra.toNat + immVal disp).toNat → a % 4 = 0 → 0x400000 ≤ a → a < 0x800000 →
      (s.fetched e (immLen disp)).errors (a / 32) = 0#32 →
      Completes (.xst e p rs ra disp) s fun t =>
        t.num a 4 = ((s.eng e).rd rs.toNat).toNat
          ∧ (∀ b, (b < a ∨ a + 4 ≤ b) → t.byte b = (s.fetched e (immLen disp)).byte b)
          ∧ t.eng e = ((s.fetched e (immLen disp)).eng e).next (immLen disp) ∧ t.emi = s.emi ∧ t.pool = s.pool)
    ∧ (∀ (e : Eng) (p : Pred) (r ra : BitVec 6) (disp : Imm 9) (s : State), regOk e r = true → regOk e ra = true →
      s.runs e p (immLen disp) ((s.eng e).genNos [r.toNat, ra.toNat]) → ((s.eng e).rd ra.toNat + immVal disp).toNat % 4 ≠ 0 →
      Answers (.xld e p r ra disp) s ((s.fetched e (immLen disp)).trapAt e (immLen disp) 4)
        ∧ Answers (.xst e p r ra disp) s ((s.fetched e (immLen disp)).trapAt e (immLen disp) 4))
    ∧ (∀ (p : Pred) (r ra : BitVec 6) (disp : Imm 9) (s : State), r.toNat < 32 → ra.toNat < 32 →
      s.runs .fsq p (immLen disp) ((s.eng .fsq).genNos [r.toNat, ra.toNat]) →
      (((s.eng .fsq).rd ra.toNat + immVal disp).toNat < 0x400000 ∨ 0x800000 ≤ ((s.eng .fsq).rd ra.toNat + immVal disp).toNat) →
      Answers (.xst .fsq p r ra disp) s ((s.fetched .fsq (immLen disp)).trapAt .fsq (immLen disp) 4))
    ∧ ∀ (n : Fin 16) (p : Pred) (r ra : BitVec 6) (disp : Imm 9) (s : State) (a : Nat),
      s.runs (.pe n) p (immLen disp) ((s.eng (.pe n)).genNos [r.toNat, ra.toNat]) → s.manages (.pe n) = false →
      a = ((s.eng (.pe n)).rd ra.toNat + immVal disp).toNat → (a < 0x10000 ∨ 0x20000 ≤ a) → (a < 0x400000 ∨ 0x800000 ≤ a) →
      Answers (.xst (.pe n) p r ra disp) s ((s.fetched (.pe n) (immLen disp)).trapAt (.pe n) (immLen disp) 4)

/-- Each timed instruction puts one command at the end of the timed queue, at TC plus its offset, with the operands that it names, late where
that is less than 64 coarse ticks ahead, of a FIRE less AMP + 8 more; a ROW is the row of later FIREs and GATEs, and a MARK moves FRAME or
COLUMN; on a full queue the pipeline stalls, counted, and nothing enters. A FIRE or FIREC without an output and a GATE of length 0 are counted
and queue nothing. WAITT moves the time cursor: by a register of coarse ticks, by an extension of coarse ticks and sub-ticks with the carry, or
to an absolute time that is not earlier; an earlier one is ignored and counted (R29 to R31, R89, R337, R338, R340, R388 to R394).
That a command is judged late when it is issued is the model's choice (log 30), and so are the tick that an absolute WAITT wakes at (log 70) and
the row that goes with later commands (log 20). -/
def Obligations.TimedInstructions : Prop :=
  ((∀ (i : Instr) (p : Pred) (off : Option Word) (rs : List Nat) (k : TKind) (s : State) (cmd : TCmd), s.timedForm i p off rs k →
    legal i = true → s.runs .fsq p (extLen off) ((s.eng .fsq).genNos rs) → s.emi.tq.length < 512 →
    (k = .mark false → s.is F.SEQ_BANK_FPENDV = false) →
    cmd = ⟨k, s.seq.fsq.tc + (off.getD 0#32).toNat / 16 + (s.seq.fsq.sub + (off.getD 0#32).toNat % 16) / 16,
      (s.seq.fsq.sub + (off.getD 0#32).toNat % 16) % 16, s.get F.SEQ_FPOS_FRAME, s.get F.SEQ_FPOS_COLUMN, false⟩ →
    ∃ t, exec i s = .next t
      ∧ t.emi.tq = s.emi.tq ++ [{ cmd with late := decide ((match k with
          | .fire _ _ _ => cmd.tc - (s.get F.EMI_CFG_AMP + 8)
          | _ => cmd.tc) < s.dt + 64) }]
      ∧ t.eng .fsq = (s.eng .fsq).next (extLen off)
      ∧ t.seq.fsq.row = (match k with
          | .row r => r
          | _ => s.seq.fsq.row)
      ∧ (t.get F.SEQ_FPOS_FRAME, t.get F.SEQ_FPOS_COLUMN) = (match k with
          | .mark true => (s.get F.SEQ_FPOS_FRAME, (s.get F.SEQ_FPOS_COLUMN + 1) % 65536)
          | .mark false => ((s.get F.SEQ_FPOS_FRAME + 1) % 65536, 0)
          | _ => (s.get F.SEQ_FPOS_FRAME, s.get F.SEQ_FPOS_COLUMN))
      ∧ t.seq.fsq.tc = s.seq.fsq.tc ∧ t.seq.fsq.sub = s.seq.fsq.sub ∧ t.seq.pes = s.seq.pes ∧ t.emi = { s.emi with tq := t.emi.tq }
      ∧ t.pool = s.pool ∧ t.ret = s.ret ∧ t.outs = s.outs)
    ∧ (∀ (i : Instr) (p : Pred) (off : Option Word) (rs : List Nat) (k : TKind) (s : State), s.timedForm i p off rs k →
      legal i = true → s.runs .fsq p (extLen off) ((s.eng .fsq).genNos rs) → 512 ≤ s.emi.tq.length →
      Completes i s fun t =>
        t.emi = s.emi ∧ t.eng .fsq = s.eng .fsq ∧ t.seq.fsq.stall = some ⟨k, (off.getD 0#32).toNat, extLen off⟩
          ∧ CountsOne (F.SEQ_CNT_COUNT 1) s t ∧ t.pool = s.pool ∧ t.ret = s.ret ∧ t.outs = s.outs)
    ∧ (∀ (p : Pred) (ra rc : BitVec 6) (off : Option Word) (rs : List Nat) (i : Instr) (s : State),
      ((i = .fire .fsq p ra off ∧ rs = span ra.toNat 2) ∨ (i = .firec .fsq p ra rc off ∧ rs = span ra.toNat 2 ++ [rc.toNat])) →
      legal i = true → s.runs .fsq p (extLen off) ((s.eng .fsq).genNos rs) → (s.eng .fsq).mask ra = 0 →
      Completes i s fun t =>
        t.emi = s.emi ∧ t.eng .fsq = (s.eng .fsq).next (extLen off) ∧ CountsOne F.EMI_IGNORED_CMD s t ∧ t.pool = s.pool ∧ t.ret = s.ret)
    ∧ ∀ (p : Pred) (ra rl : BitVec 6) (off : Option Word) (s : State), legal (.gate .fsq p ra rl off) = true →
      s.runs .fsq p (extLen off) ((s.eng .fsq).genNos (span ra.toNat 2 ++ [rl.toNat])) →
      ((s.eng .fsq).rd rl.toNat).toNat % 65536 = 0 →
      Completes (.gate .fsq p ra rl off) s fun t =>
        t.emi = s.emi ∧ t.eng .fsq = (s.eng .fsq).next (extLen off) ∧ CountsOne (F.SEQ_CNT_COUNT 7) s t)
    ∧ ((∀ (p : Pred) (ra : BitVec 6) (s : State), ra.toNat < 32 → s.runs .fsq p 1 ((s.eng .fsq).genNos [ra.toNat]) →
    s.seq.fsq.tc + ((s.eng .fsq).rd ra.toNat).toNat < 2 ^ 64 → s.seq.fsq.sub < 16 →
    Completes (.waitt .fsq p (.relReg ra)) s fun t =>
      t.seq.fsq.tc = s.seq.fsq.tc + ((s.eng .fsq).rd ra.toNat).toNat ∧ t.seq.fsq.sub = s.seq.fsq.sub
        ∧ t.eng .fsq = (s.eng .fsq).next 1 ∧ t.emi = s.emi)
    ∧ (∀ (p : Pred) (v : Word) (s : State), s.runs .fsq p 2 [] → s.seq.fsq.tc + v.toNat < 2 ^ 64 → s.seq.fsq.sub < 16 →
      Completes (.waitt .fsq p (.relImm v)) s fun t =>
        16 * t.seq.fsq.tc + t.seq.fsq.sub = 16 * s.seq.fsq.tc + s.seq.fsq.sub + v.toNat ∧ t.seq.fsq.sub < 16
          ∧ t.eng .fsq = (s.eng .fsq).next 2 ∧ t.emi = s.emi)
    ∧ ∀ (p : Pred) (ra : BitVec 6) (s : State), ra.toNat < 32 → ra.toNat % 2 = 0 →
      s.runs .fsq p 1 ((s.eng .fsq).genNos (span ra.toNat 2)) →
      Completes (.waitt .fsq p (.absReg ra)) s fun t =>
        (if 16 * s.seq.fsq.tc + s.seq.fsq.sub ≤ 16 * (s.eng .fsq).mask ra
          then t.seq.fsq.tc = (s.eng .fsq).mask ra ∧ t.seq.fsq.sub = 0 ∧ t.get (F.SEQ_CNT_COUNT 7) = s.get (F.SEQ_CNT_COUNT 7)
          else t.seq.fsq.tc = s.seq.fsq.tc ∧ t.seq.fsq.sub = s.seq.fsq.sub ∧ CountsOne (F.SEQ_CNT_COUNT 7) s t)
          ∧ t.eng .fsq = (s.eng .fsq).next 1 ∧ t.emi = s.emi)

/-- WAITA and SYNCW make the FSQ wait where nothing is known yet that ends the wait, and it issues nothing until then; the crossing or the marker
time, once known, sets TC and the predicate; or device time reaches TC + SEQ_WTMO, which clears it and is counted; a WAITA on an axis that
is off or has a fault ends at once with the predicate 0 (R296, R339, R395, R566).
Points that the spec leaves open follow the model's choices (log 63). -/
def Obligations.Waits : Prop :=
  (∀ (p : Pred) (ra : BitVec 6) (a : Fin 4) (dir : BitVec 2) (qd : BitVec 3) (s : State), ra.toNat < 32 → dir.toNat ≠ 3 →
    s.runs .fsq p 1 ((s.eng .fsq).genNos [ra.toNat]) →
    (s.axisOut a.val = true → s.seq.fsq.stopping = false →
      Completes (.waita .fsq p ra (BitVec.ofNat 2 a.val) dir qd) s fun t =>
        t.eng .fsq = ((s.eng .fsq).setQ qd.toNat false).next 1 ∧ t.seq.fsq.tc = s.seq.fsq.tc ∧ t.seq.fsq.wait = none
          ∧ CountsOne (F.AXS_CNT_COUNT a.val 5) s t ∧ t.emi = s.emi)
    ∧ (s.axisOut a.val = false →
      s.crossing a.val (((s.eng .fsq).rd ra.toNat).toNat % 2 ^ 24) dir.toNat (16 * s.seq.fsq.tc + s.seq.fsq.sub) = none →
      Completes (.waita .fsq p ra (BitVec.ofNat 2 a.val) dir qd) s fun t =>
        t.seq.fsq.wait = some (.axis a.val (((s.eng .fsq).rd ra.toNat).toNat % 2 ^ 24) dir.toNat qd.toNat)
          ∧ t.mayIssue .fsq = false ∧ t.eng .fsq = s.eng .fsq ∧ t.emi = s.emi))
    ∧ (∀ (p : Pred) (ra : BitVec 6) (a : Fin 4) (dir : BitVec 2) (qd : BitVec 3) (c : Nat) (s : State), ra.toNat < 32 →
      dir.toNat ≠ 3 → s.runs .fsq p 1 ((s.eng .fsq).genNos [ra.toNat]) → s.axisOut a.val = false → s.seq.fsq.stopping = false →
      s.crossing a.val (((s.eng .fsq).rd ra.toNat).toNat % 2 ^ 24) dir.toNat (16 * s.seq.fsq.tc + s.seq.fsq.sub) = some c →
      Completes (.waita .fsq p ra (BitVec.ofNat 2 a.val) dir qd) s fun t =>
        t.seq.fsq.wait = none ∧ t.seq.fsq.tc = c ∧ t.seq.fsq.sub = 0 ∧ t.eng .fsq = ((s.eng .fsq).setQ qd.toNat true).next 1
          ∧ t.emi = s.emi)
    ∧ (∀ (p : Pred) (qd : BitVec 3) (m : Nat) (s : State), s.runs .fsq p 1 [] → s.seq.fsq.stopping = false → s.markerTime = some m →
      Completes (.syncw .fsq p qd) s fun t =>
        t.seq.fsq.wait = none ∧ t.seq.fsq.tc = m ∧ t.seq.fsq.sub = 0 ∧ t.eng .fsq = ((s.eng .fsq).setQ qd.toNat true).next 1
          ∧ t.emi = s.emi)
    ∧ (∀ (p : Pred) (qd : BitVec 3) (s : State), s.runs .fsq p 1 [] → s.markerTime = none →
      Completes (.syncw .fsq p qd) s fun t =>
        t.seq.fsq.wait = some (.sync qd.toNat) ∧ t.mayIssue .fsq = false ∧ t.eng .fsq = s.eng .fsq ∧ t.emi = s.emi)
    ∧ (∀ (qd m : Nat) (s : State), s.inReset = false → s.seq.fsq.wait = some (.sync qd) → s.seq.fsq.stopping = false →
      s.markerTime = some m →
      Completes .waitaResume s fun t =>
        t.seq.fsq.wait = none ∧ t.seq.fsq.tc = m ∧ t.seq.fsq.sub = 0 ∧ t.eng .fsq = ((s.eng .fsq).setQ qd true).next 1
          ∧ t.emi = s.emi ∧ t.mem = s.mem)
    ∧ (∀ (a target dir qd c : Nat) (s : State), s.inReset = false → s.seq.fsq.wait = some (.axis a target dir qd) →
      s.seq.fsq.stopping = false → s.axisOut a = false →
      s.crossing a target dir (16 * s.seq.fsq.tc + s.seq.fsq.sub) = some c →
      Completes .waitaResume s fun t =>
        t.seq.fsq.wait = none ∧ t.seq.fsq.tc = c ∧ t.seq.fsq.sub = 0 ∧ t.eng .fsq = ((s.eng .fsq).setQ qd true).next 1
          ∧ t.emi = s.emi ∧ t.mem = s.mem)
    ∧ ∀ (w : FWait) (qd u : Nat) (s : State), s.inReset = false → s.seq.fsq.wait = some w →
      (w = .sync qd ∨ ∃ a v d, w = .axis a v d qd) → s.seq.fsq.stopping = false →
      16 * (s.seq.fsq.tc + s.get F.SEQ_WTMO_WTMO) + s.seq.fsq.sub ≤ 16 * u →
      Completes (.waitTimeout u) s fun t =>
        t.seq.fsq.wait = none ∧ t.seq.fsq.tc = s.seq.fsq.tc + s.get F.SEQ_WTMO_WTMO ∧ t.seq.fsq.sub = s.seq.fsq.sub
          ∧ t.eng .fsq = ((s.eng .fsq).setQ qd false).next 1 ∧ CountsOne (F.SEQ_CNT_COUNT 2) s t ∧ t.emi = s.emi

/-- The ALU instructions: ADD and SUB wrap, ADDS and SUBS limit the exact result to 32 bits, the logic is bitwise; the second operand is a
register, a sign-extended IMM6 or the extension (R397). -/
def Obligations.AluResults : Prop :=
  ∀ (n : Fin 16) (p : Pred) (rd ra : BitVec 6) (b : AluSrc) (s : State),
    s.runs (.pe n) p (aluLen b) ((s.eng (.pe n)).genNos (ra.toNat :: aluReads b)) →
    ∀ x y : Word, x = (s.eng (.pe n)).rd ra.toNat → y = (s.eng (.pe n)).aluVal b →
    exec (.add (.pe n) p rd ra b) s = .next (s.after (.pe n) (aluLen b) fun g => g.wr rd.toNat (BitVec.ofNat 32 (x.toNat + y.toNat)))
      ∧ exec (.sub (.pe n) p rd ra b) s
        = .next (s.after (.pe n) (aluLen b) fun g => g.wr rd.toNat (BitVec.ofInt 32 (x.toInt - y.toInt)))
      ∧ exec (.adds (.pe n) p rd ra b) s = .next (s.after (.pe n) (aluLen b) fun g =>
          g.wr rd.toNat (BitVec.ofInt 32 (max (-2147483648) (min 2147483647 (x.toInt + y.toInt)))))
      ∧ exec (.subs (.pe n) p rd ra b) s = .next (s.after (.pe n) (aluLen b) fun g =>
          g.wr rd.toNat (BitVec.ofInt 32 (max (-2147483648) (min 2147483647 (x.toInt - y.toInt)))))
      ∧ (∀ (v : Word) (i : Instr),
          ((i = .iAnd (.pe n) p rd ra b ∧ ∀ k, v.getLsbD k = (x.getLsbD k && y.getLsbD k))
            ∨ (i = .iOr (.pe n) p rd ra b ∧ ∀ k, v.getLsbD k = (x.getLsbD k || y.getLsbD k))
            ∨ (i = .iXor (.pe n) p rd ra b ∧ ∀ k, v.getLsbD k = (x.getLsbD k != y.getLsbD k))) →
          exec i s = .next (s.after (.pe n) (aluLen b) fun g => g.wr rd.toNat v))

/-- Shifts: zeros or copies of the sign bit fill, whatever the amount up to 63; SHLS limits the exact product to 32 bits; no ALU, shift or
multiply instruction sets a status bit (R398). -/
def Obligations.ShiftResults : Prop :=
  (∀ (n : Fin 16) (p : Pred) (rd ra : BitVec 6) (b : ShSrc) (s : State),
    s.runs (.pe n) p 1 ((s.eng (.pe n)).genNos (ra.toNat :: shiftReads b)) →
    ∀ (x : Word) (k : Nat), x = (s.eng (.pe n)).rd ra.toNat → k = (s.eng (.pe n)).shiftVal b →
    (∃ v : Word, exec (.shl (.pe n) p rd ra b) s = .next (s.after (.pe n) 1 fun g => g.wr rd.toNat v)
        ∧ (∀ i, i < 32 → v.getLsbD i = (decide (k ≤ i) && x.getLsbD (i - k))) ∧ (32 ≤ k → v = 0#32))
      ∧ (∃ v : Word, exec (.shr (.pe n) p rd ra b) s = .next (s.after (.pe n) 1 fun g => g.wr rd.toNat v)
        ∧ (∀ i, i < 32 → v.getLsbD i = x.getLsbD (i + k)) ∧ (32 ≤ k → v = 0#32))
      ∧ (∃ v : Word, exec (.shra (.pe n) p rd ra b) s = .next (s.after (.pe n) 1 fun g => g.wr rd.toNat v)
        ∧ (∀ i, i < 32 → v.getLsbD i = if i + k < 32 then x.getLsbD (i + k) else x.msb)
        ∧ (32 ≤ k → v = if x.msb then 0xFFFFFFFF#32 else 0#32))
      ∧ ∃ v : Word, exec (.shls (.pe n) p rd ra b) s = .next (s.after (.pe n) 1 fun g => g.wr rd.toNat v)
        ∧ v = BitVec.ofInt 32 (max (-2147483648) (min 2147483647 (x.toInt * 2 ^ k)))
        ∧ (32 ≤ k → x ≠ 0#32 → v = if x.msb then 0x80000000#32 else 0x7FFFFFFF#32))
    ∧ ∀ (n : Fin 16) (p : Pred) (rd ra rb : BitVec 6) (b : AluSrc) (h : ShSrc) (s t : State) (i : Instr),
      i ∈ [Instr.add (.pe n) p rd ra b, .sub (.pe n) p rd ra b, .adds (.pe n) p rd ra b, .subs (.pe n) p rd ra b,
        .iAnd (.pe n) p rd ra b, .iOr (.pe n) p rd ra b, .iXor (.pe n) p rd ra b, .shl (.pe n) p rd ra h, .shr (.pe n) p rd ra h,
        .shra (.pe n) p rd ra h, .shls (.pe n) p rd ra h, .mul (.pe n) p rd ra rb, .muls (.pe n) p rd ra rb,
        .mulhs (.pe n) p rd ra rb] →
      (s.eng (.pe n)).bad = [] → (∃ len, s.runs (.pe n) p len [] ∧ i.parts.map (fun q => extLen q.2.ext) = some len) → exec i s = .next t →
      (t.eng (.pe n)).aov = (s.eng (.pe n)).aov ∧ (t.eng (.pe n)).msat = (s.eng (.pe n)).msat ∧ (t.eng (.pe n)).dsat = (s.eng (.pe n)).dsat

/-- NORM counts the bits below the sign bit that equal it, of a register or an accumulator; EXPB takes the least count of a block, and with
N = 0 only counts; an EXPB whose block runs past D63 takes the ILLEGAL trap (R400). -/
def Obligations.NormAndExpb : Prop :=
  (∀ (n : Fin 16) (p : Pred) (rd ra : BitVec 6) (s : State), s.runs (.pe n) p 1 ((s.eng (.pe n)).genNos [ra.toNat]) →
    exec (.norm (.pe n) p rd (.reg ra)) s
      = .next (s.after (.pe n) 1 fun g => g.wr rd.toNat (BitVec.ofNat 32 (normOf (g.rd ra.toNat)))))
    ∧ (∀ (n : Fin 16) (p : Pred) (rd : BitVec 6) (an : BitVec 3) (s : State), s.runs (.pe n) p 1 [64 + an.toNat] →
      exec (.norm (.pe n) p rd (.acc an)) s
        = .next (s.after (.pe n) 1 fun g => g.wr rd.toNat (BitVec.ofNat 32 (normOf (g.a.getD an.toNat 0#72)))))
    ∧ (∀ (w : Nat) (v : BitVec w), 0 < w → normOf v ≤ w - 1
        ∧ (∀ i, i < normOf v → v.getLsbD (w - 2 - i) = v.msb) ∧ (normOf v < w - 1 → v.getLsbD (w - 2 - normOf v) ≠ v.msb))
    ∧ (∀ (n : Fin 16) (p : Pred) (rd ra k : BitVec 6) (s : State), 0 < k.toNat → ra.toNat + k.toNat ≤ 64 →
      s.runs (.pe n) p 1 ((s.eng (.pe n)).genNos (span ra.toNat k.toNat)) →
      ∃ m, exec (.expb (.pe n) p rd ra k) s = .next (s.after (.pe n) 1 fun g => g.wr rd.toNat (BitVec.ofNat 32 m))
        ∧ (∀ i, i < k.toNat → m ≤ normOf ((s.eng (.pe n)).rd (ra.toNat + i)))
        ∧ ∃ i, i < k.toNat ∧ m = normOf ((s.eng (.pe n)).rd (ra.toNat + i)))
    ∧ (∀ (n : Fin 16) (p : Pred) (rd ra : BitVec 6) (s : State), s.runs (.pe n) p 1 [] →
      Completes (.expb (.pe n) p rd ra 0#6) s fun t =>
        t.eng (.pe n) = ((s.fetched (.pe n) 1).eng (.pe n)).next 1 ∧ CountsOne (F.SEQ_CNT_COUNT 7) s t ∧ t.emi = s.emi)
    ∧ ∀ (n : Fin 16) (p : Pred) (rd ra k : BitVec 6) (s : State), 64 < ra.toNat + k.toNat → 0 < k.toNat → s.fetches (.pe n) 1 →
      Answers (.expb (.pe n) p rd ra k) s ((s.fetched (.pe n) 1).trapAt (.pe n) 1 3)

/-- CMP writes a predicate from two words, SEL selects one of two registers by a predicate (R378, R397). -/
def Obligations.CompareAndSelect : Prop :=
  (∀ (n : Fin 16) (p : Pred) (qd : BitVec 3) (c : Cond) (ra : BitVec 6) (b : CmpSrc) (s : State),
    s.runs (.pe n) p (cmpLen b) ((s.eng (.pe n)).genNos (ra.toNat :: cmpReads b)) →
    exec (.cmp (.pe n) p qd c ra b) s
      = .next (s.after (.pe n) (cmpLen b) fun g => g.setQ qd.toNat (condHolds c (g.rd ra.toNat) (g.cmpVal b))))
    ∧ ∀ (n : Fin 16) (p : Pred) (rd ra rb : BitVec 6) (qp : BitVec 3) (s : State),
      s.runs (.pe n) p 1 ((s.eng (.pe n)).genNos [ra.toNat, rb.toNat]) →
      exec (.sel (.pe n) p rd ra rb qp) s
        = .next (s.after (.pe n) 1 fun g => g.wr rd.toNat (g.rd (if (s.eng (.pe n)).qBit qp.toNat then ra else rb).toNat))

/-- Products of 64 bits, signed: their low half, the limited value, the high half; divisions truncate towards zero, with the results that the
spec gives division by 0 and −2^31 by −1 (R397, R399). -/
def Obligations.MultiplyAndDivide : Prop :=
  ∀ (n : Fin 16) (p : Pred) (rd ra rb : BitVec 6) (s : State), s.runs (.pe n) p 1 ((s.eng (.pe n)).genNos [ra.toNat, rb.toNat]) →
    ∀ x y : Word, x = (s.eng (.pe n)).rd ra.toNat → y = (s.eng (.pe n)).rd rb.toNat →
    exec (.mul (.pe n) p rd ra rb) s = .next (s.after (.pe n) 1 fun g => g.wr rd.toNat (BitVec.ofInt 32 (x.toInt * y.toInt)))
      ∧ exec (.muls (.pe n) p rd ra rb) s = .next (s.after (.pe n) 1 fun g =>
          g.wr rd.toNat (BitVec.ofInt 32 (max (-2147483648) (min 2147483647 (x.toInt * y.toInt)))))
      ∧ exec (.mulhs (.pe n) p rd ra rb) s
        = .next (s.after (.pe n) 1 fun g => g.wr rd.toNat ((BitVec.ofInt 64 (x.toInt * y.toInt)).extractLsb' 32 32))
      ∧ (∃ v : Word, exec (.div (.pe n) p rd ra rb) s = .next (s.after (.pe n) 1 fun g => g.wr rd.toNat v)
        ∧ (y = 0#32 → v = if x.msb then 0x80000000#32 else 0x7FFFFFFF#32)
        ∧ (x = 0x80000000#32 → y = 0xFFFFFFFF#32 → v = 0x7FFFFFFF#32)
        ∧ (y ≠ 0#32 → ¬(x = 0x80000000#32 ∧ y = 0xFFFFFFFF#32) → v.toInt = x.toInt.tdiv y.toInt))
      ∧ ∃ v : Word, exec (.divu (.pe n) p rd ra rb) s = .next (s.after (.pe n) 1 fun g => g.wr rd.toNat v)
        ∧ (y = 0#32 → v = 0xFFFFFFFF#32) ∧ (y ≠ 0#32 → v.toNat = x.toNat / y.toNat)

/-- MAC and MACS with RED add or subtract the sum of the lane products, limited to 72 bits with AOV and DSAT where the limit acts, and take
one AOV trap then where AOVT is 1; without RED each lane has its accumulator. MTA loads a shifted register or 0; MOVA scales an accumulator by
SCALE and RND, limits it to 32 bits with MSAT, and leaves the accumulator (R347, R401 to R403). -/
def Obligations.MultiplyAccumulate : Prop :=
  ((∀ (n : Fin 16) (p : Pred) (an : BitVec 3) (ra rb : BitVec 6) (w : BitVec 2) (red u : Bool) (k : Int) (i : Instr) (s : State),
    ((i = .mac (.pe n) p an ra rb w red u ∧ k = 1) ∨ (i = .macs (.pe n) p an ra rb w red u ∧ k = -1)) →
    lanesOk an ra rb w = true →
    s.runs (.pe n) p 1 ((s.eng (.pe n)).maccReads an.toNat ra rb (w.toNat + 1) red) →
    ((s.eng (.pe n)).aovt = false ∨ (s.eng (.pe n)).maccOver an.toNat ra rb (w.toNat + 1) red u k = false) →
    exec i s = .next (s.after (.pe n) 1 fun g => g.macc an.toNat ra rb (w.toNat + 1) red u k))
    ∧ (∀ (n : Fin 16) (p : Pred) (an : BitVec 3) (ra rb : BitVec 6) (w : BitVec 2) (red u : Bool) (k : Int) (i : Instr) (s : State),
      ((i = .mac (.pe n) p an ra rb w red u ∧ k = 1) ∨ (i = .macs (.pe n) p an ra rb w red u ∧ k = -1)) →
      lanesOk an ra rb w = true →
      s.runs (.pe n) p 1 ((s.eng (.pe n)).maccReads an.toNat ra rb (w.toNat + 1) red) → (s.eng (.pe n)).aovt = true →
      (s.eng (.pe n)).intrap = false → (s.eng (.pe n)).maccOver an.toNat ra rb (w.toNat + 1) red u k = true →
      Completes i s fun t =>
        (t.eng (.pe n)).tcause = 1 ∧ (t.eng (.pe n)).pc = 12
          ∧ (t.eng (.pe n)).a = ((s.eng (.pe n)).macc an.toNat ra rb (w.toNat + 1) red u k).a ∧ t.flt = s.flt ∧ t.emi = s.emi)
    ∧ (∀ (g : Engine) (an : Nat) (ra rb : BitVec 6) (n : Nat) (u : Bool) (k : Int), an < 8 → n ≤ 4 →
      ∀ x : Int, x = g.rdA an + k * ((List.range n).map (g.product ra rb u)).sum →
      (g.macc an ra rb n true u k).rdA an = max (-(2 ^ 71)) (min (2 ^ 71 - 1) x)
        ∧ ((g.macc an ra rb n true u k).aov = true ↔ g.aov = true ∨ x < -(2 ^ 71) ∨ 2 ^ 71 ≤ x)
        ∧ ((g.macc an ra rb n true u k).dsat = true ↔ g.dsat = true ∨ x < -(2 ^ 71) ∨ 2 ^ 71 ≤ x)
        ∧ (∀ j, j < 8 → j ≠ an → (g.macc an ra rb n true u k).rdA j = g.rdA j) ∧ (g.macc an ra rb n true u k).d = g.d)
    ∧ ∀ (g : Engine) (an : Nat) (ra rb : BitVec 6) (n : Nat) (u : Bool) (k : Int), an + n ≤ 8 →
      ∀ i, i < n →
        (g.macc an ra rb n false u k).rdA (an + i) = max (-(2 ^ 71)) (min (2 ^ 71 - 1) (g.rdA (an + i) + k * g.product ra rb u i))
          ∧ (∀ j, j < 8 → (j < an ∨ an + n ≤ j) → (g.macc an ra rb n false u k).rdA j = g.rdA j)
          ∧ (g.macc an ra rb n false u k).d = g.d)
    ∧ ((∀ (n : Fin 16) (p : Pred) (an : BitVec 3) (ra sh : BitVec 6) (s : State), sh.toNat ≤ 40 →
    s.runs (.pe n) p 1 ((s.eng (.pe n)).genNos [ra.toNat]) →
    ∃ f, exec (.mta (.pe n) p an ra sh false) s = .next (s.after (.pe n) 1 f)
      ∧ ∀ g : Engine, (f g).rdA an.toNat = (g.rd ra.toNat).toInt * 2 ^ sh.toNat ∧ (f g).aov = g.aov ∧ (f g).d = g.d)
    ∧ (∀ (n : Fin 16) (p : Pred) (an : BitVec 3) (ra sh : BitVec 6) (s : State), sh.toNat ≤ 40 → s.runs (.pe n) p 1 [] →
      ∃ f, exec (.mta (.pe n) p an ra sh true) s = .next (s.after (.pe n) 1 f)
        ∧ ∀ g : Engine, (f g).rdA an.toNat = 0 ∧ (f g).aov = g.aov ∧ (f g).d = g.d)
    ∧ ∀ (n : Fin 16) (p : Pred) (rd : BitVec 6) (an : BitVec 3) (s : State), s.runs (.pe n) p 1 [64 + an.toNat] →
      ∃ f, exec (.mova (.pe n) p rd an) s = .next (s.after (.pe n) 1 f)
        ∧ ∀ (g : Engine) (k : Nat) (v : Int), k = g.mode.toNat % 64 →
          v = (if k = 0 then g.rdA an.toNat
            else (g.rdA an.toNat + if g.mode.getLsbD 6 then 0 else 2 ^ (k - 1)).fdiv (2 ^ k)) →
          (f g).rd rd.toNat = BitVec.ofInt 32 (max (-2147483648) (min 2147483647 v))
            ∧ ((f g).msat = true ↔ g.msat = true ∨ v < -2147483648 ∨ 2147483647 < v) ∧ (f g).a = g.a ∧ (f g).aov = g.aov
            ∧ (f g).dsat = g.dsat)

/-- LD and ST in an engine's own data memory: the address of their mode, a value extended as SX says, the address register updated by its
mode; ST stores its size of bytes and no other; PMOV moves and adjusts address registers (R354, R404 to R407).
Points that the spec leaves open follow the model's choices (log 68, 69, 73). -/
def Obligations.LoadsAndStores : Prop :=
  (∀ (n : Fin 16) (p : Pred) (rd : BitVec 6) (pa : BitVec 4) (sz am : BitVec 2) (sx : Bool) (off : Imm 6) (s : State),
    modeOk pa sz am = true → s.runs (.pe n) p (immLen off) (addrReads pa am) → (s.eng (.pe n)).badCompanion pa am = false →
    ∀ a u, a = (s.eng (.pe n)).accessAt pa sz am off → u = s.fetched (.pe n) (immLen off) → a % 2 ^ sz.toNat = 0 → a < 0x20000 →
    u.errors ((peBase n.val + a) / 32) = 0#32 →
    exec (.ld (.pe n) p rd pa sz am sx off) s = .next (s.after (.pe n) (immLen off) fun g =>
      (g.wr rd.toNat (if sx then BitVec.ofInt 32 (sint (8 * 2 ^ sz.toNat) (u.num (peBase n.val + a) (2 ^ sz.toNat)))
        else BitVec.ofNat 32 (u.num (peBase n.val + a) (2 ^ sz.toNat)))).addrNext pa sz am off))
    ∧ (∀ (n : Fin 16) (p : Pred) (r : BitVec 6) (pa : BitVec 4) (sz am : BitVec 2) (off : Imm 6) (s : State),
      modeOk pa sz am = true → s.runs (.pe n) p (immLen off) ((s.eng (.pe n)).genNos [r.toNat] ++ addrReads pa am) →
      (s.eng (.pe n)).badCompanion pa am = false →
      ∀ a u, a = (s.eng (.pe n)).accessAt pa sz am off → u = s.fetched (.pe n) (immLen off) → a % 2 ^ sz.toNat = 0 →
      0x10000 ≤ a → a < 0x20000 → u.errors ((peBase n.val + a) / 32) = 0#32 →
      Completes (.iSt (.pe n) p r pa sz am off) s fun t =>
        t.num (peBase n.val + a) (2 ^ sz.toNat) = ((s.eng (.pe n)).rd r.toNat).toNat % 2 ^ (8 * 2 ^ sz.toNat)
          ∧ (∀ b, (b < peBase n.val + a ∨ peBase n.val + a + 2 ^ sz.toNat ≤ b) → t.byte b = u.byte b)
          ∧ t.eng (.pe n) = ((u.eng (.pe n)).addrNext pa sz am off).next (immLen off) ∧ t.emi = s.emi ∧ t.pool = s.pool)
    ∧ (∀ (n : Fin 16) (p : Pred) (pd : BitVec 4) (ra : BitVec 6) (fn : BitVec 2) (imm : Imm 9) (s : State),
      s.runs (.pe n) p (immLen imm) ((s.eng (.pe n)).pmovReads pd ra fn) →
      exec (.pmov (.pe n) p pd ra fn imm) s = .next (s.after (.pe n) (immLen imm) fun g => match fn.toNat with
        | 0 => g.wrP pd.toNat (immVal imm)
        | 1 => g.wrP pd.toNat (g.rd ra.toNat)
        | 2 => g.wr ra.toNat (g.rdP pd.toNat)
        | _ => g.wrP pd.toNat (g.rdP pd.toNat + immVal imm)))
    ∧ ∀ (g : Engine) (pa : BitVec 4) (sz : BitVec 2) (v : BitVec 6) (x : Word), x = g.rdP pa.toNat →
        g.accessAt pa sz 0#2 (.short v) = (x + BitVec.ofNat 32 (v.toNat * 2 ^ sz.toNat)).toNat
          ∧ g.addrNext pa sz 0#2 (.short v) = g ∧ g.accessAt pa sz 1#2 (.short v) = x.toNat
          ∧ g.addrNext pa sz 1#2 (.short v) = g.wrP pa.toNat (x + BitVec.ofNat 32 (v.toNat * 2 ^ sz.toNat))
          ∧ ∀ l, l = (g.rdP (pa.toNat + 8)).toNat % 65536 → l ≠ 0 →
            ∃ y : Nat, g.addrNext pa sz 2#2 (.short v) = g.wrP pa.toNat (BitVec.ofNat 32 y) ∧ y / l = x.toNat / l
              ∧ y % l = (x.toNat + v.toNat * 2 ^ sz.toNat) % l

/-- HLD loads consecutive bins of the dispatch's context, of an early dispatch those of its partial copy, 0 outside the region and for fine
windows of an early dispatch, and advances P where PI is set; in background and management work it takes the ADDRESS trap. EMIT of a POINT
in a pixel or replay holds its record until the work ends, and only counts the ninth; of an EARLY record in an early dispatch releases it
with the next SPEC, once for a candidate of its block and before its pixel is resolved, and only counts another; of a notice in background
or management work hands its image to the notice unit; of a type that the work does not accept only counts it; an image outside the engine's
data memory takes the ADDRESS trap (R207, R217, R219, R351 to R353, R408 to R410, R570). Points that the spec leaves open follow the model's
choices (log 45, 69, 71). -/
def Obligations.BinsAndRecords : Prop :=
  (∀ (n : Fin 16) (p : Pred) (rd : BitVec 6) (pa : BitVec 4) (r : BitVec 3) (k : BitVec 2) (pi : Bool) (d : Disp) (s : State),
    r.toNat ≤ 4 → rd.toNat + k.toNat ≤ 63 → s.runs (.pe n) p 1 [80 + pa.toNat] → (s.pe n.val).work = some d →
    (((d.kind = 1 ∨ d.kind = 4) ∧ d.part = none) ∨ d.kind = 2 ∧ ∃ q, d.part = some q ∧ q.errs = []) →
    ∀ u b, u = s.fetched (.pe n) 1 → b = ((s.eng (.pe n)).rdP pa.toNat).toInt → u.synd = [] →
    ∃ t, exec (.hld (.pe n) p rd pa r k pi) s = .next t
      ∧ (t.eng (.pe n)).d = ((u.eng (.pe n)).wrSpan rd.toNat ((List.range (k.toNat + 1)).map fun (i : Nat) => u.binOf d r.toNat (b + i))).d
      ∧ (pi = true → (t.eng (.pe n)).p = ((u.eng (.pe n)).wrP pa.toNat
          ((s.eng (.pe n)).rdP pa.toNat + BitVec.ofNat 32 (k.toNat + 1))).p)
      ∧ (pi = false → (t.eng (.pe n)).p = (s.eng (.pe n)).p) ∧ t.mem = u.mem ∧ t.pool = s.pool ∧ t.emi = s.emi)
    ∧ (∀ (s : State) (d : Disp) (r : Nat) (b : Int),
      (b < 0 ∨ (r = 0 ∧ 2047 < b) ∨ (r ≠ 0 ∧ (d.kind = 2 ∨ 127 < b ∨ d.placed ≤ r - 1)) → s.binOf d r b = 0)
        ∧ (0 ≤ b → b ≤ 2047 → d.part = none → s.binOf d 0 b = s.coarse d.slot b.toNat)
        ∧ (∀ q, 0 ≤ b → b ≤ 2047 → d.part = some q → s.binOf d 0 b = q.bin b.toNat)
        ∧ (0 ≤ b → b ≤ 127 → r ≠ 0 → r - 1 < d.placed → d.kind ≠ 2 → d.part = none → s.binOf d r b = s.fine d.slot (r - 1) b.toNat))
    ∧ (∀ (n : Fin 16) (p : Pred) (rd : BitVec 6) (pa : BitVec 4) (r : BitVec 3) (k : BitVec 2) (pi : Bool) (d : Disp) (s : State),
      r.toNat ≤ 4 → rd.toNat + k.toNat ≤ 63 → s.runs (.pe n) p 1 [80 + pa.toNat] → (s.pe n.val).work = some d →
      (d.kind = 3 ∨ d.kind = 5) →
      Answers (.hld (.pe n) p rd pa r k pi) s ((s.fetched (.pe n) 1).trapAt (.pe n) 1 4))
    ∧ (∀ (n : Fin 16) (p : Pred) (pa : BitVec 4) (ang : Bool) (ty : BitVec 8) (d : Disp) (s : State),
      s.runs (.pe n) p 1 [80 + pa.toNat] → (s.pe n.val).work = some d →
      (((s.eng (.pe n)).rdP pa.toNat).toNat % 32 ≠ 0 ∨ ((s.eng (.pe n)).rdP pa.toNat).toNat < 0x10000
        ∨ 0x20000 ≤ ((s.eng (.pe n)).rdP pa.toNat).toNat) →
      Answers (.emit (.pe n) p ty pa ang) s ((s.fetched (.pe n) 1).trapAt (.pe n) 1 4))
    ∧ (∀ (n : Fin 16) (p : Pred) (pa : BitVec 4) (ang : Bool) (ty : BitVec 8) (d : Disp) (s : State),
      s.runs (.pe n) p 1 [80 + pa.toNat] → (s.pe n.val).work = some d → accepts d.kind ty.toNat = false →
      ((s.eng (.pe n)).rdP pa.toNat).toNat % 32 = 0 → 0x10000 ≤ ((s.eng (.pe n)).rdP pa.toNat).toNat →
      ((s.eng (.pe n)).rdP pa.toNat).toNat < 0x20000 →
      Completes (.emit (.pe n) p ty pa ang) s fun t =>
        CountsOne (F.SEQ_CNT_COUNT 9) s t ∧ t.eng (.pe n) = ((s.fetched (.pe n) 1).eng (.pe n)).next 1 ∧ t.pnt = s.pnt
          ∧ t.stl = s.stl ∧ t.fle = s.fle ∧ t.emi = s.emi)
    ∧ (∀ kind type : Nat, accepts kind type = true ↔
        (type = 1 ∧ (kind = 1 ∨ kind = 4)) ∨ (type = 2 ∧ kind = 2) ∨ (type = 11 ∧ (kind = 3 ∨ kind = 5)))
    ∧ ∀ (n : Fin 16) (p : Pred) (pa : BitVec 4) (ang : Bool) (d : Disp) (s u : State) (img : List Byte),
      s.runs (.pe n) p 1 [80 + pa.toNat] → (s.pe n.val).work = some d → ((s.eng (.pe n)).rdP pa.toNat).toNat % 32 = 0 →
      0x10000 ≤ ((s.eng (.pe n)).rdP pa.toNat).toNat → ((s.eng (.pe n)).rdP pa.toNat).toNat < 0x20000 →
      u = s.fetched (.pe n) 1 → u.synd = [] → img = u.bytes (peBase n.val + ((s.eng (.pe n)).rdP pa.toNat).toNat) 32 →
      (∀ (c : Ctx) (h v : Nat), (d.kind = 1 ∨ d.kind = 4) → d.points.length < 8 → (d.ctx.bind s.ctx?) = some c →
        h = (if ang then u.num (journalBase c.jidx + 16 + 3 * s.get F.PNT_CFG_HAX) 3 else field img 20 3) →
        v = (if ang then u.num (journalBase c.jidx + 16 + 3 * s.get F.PNT_CFG_VAX) 3 else field img 23 3) →
        Completes (.emit (.pe n) p 1#8 pa ang) s fun t =>
          (t.pe n.val).work = some { d with points := d.points ++ [c.point d.points.length (field img 12 3) (field img 16 2)
              (c.pointFlags + 8 * b01 (satOf (s.eng (.pe n)) d img)) h v] }
            ∧ t.eng (.pe n) = (u.eng (.pe n)).next 1 ∧ t.stl = s.stl ∧ t.emi = s.emi ∧ t.pool = s.pool)
        ∧ ((d.kind = 1 ∨ d.kind = 4) → 8 ≤ d.points.length →
          Completes (.emit (.pe n) p 1#8 pa ang) s fun t =>
            (t.pe n.val).work = some d ∧ CountsOne (F.PNT_CNT_COUNT 7) s t ∧ t.eng (.pe n) = (u.eng (.pe n)).next 1
              ∧ t.pool = s.pool ∧ t.emi = s.emi)
        ∧ (∀ (c : Ctx) (q : Partial) (cand : Nat), d.kind = 2 → (d.ctx.bind s.ctx?) = some c → d.part = some q →
          (s.eng (.pe n)).doomed = false → cand = field img 1 1 % 8 →
          (cand < field d.block 2 1 → c.earlyDone.contains cand = false → c.resolved = false →
            (s.pnt.outstanding.filter fun x => !x.resolved).length < 16384 →
            Completes (.emit (.pe n) p 2#8 pa ang) s fun t =>
              t.pnt.outstanding = s.pnt.outstanding ++ [⟨s.get F.PNT_SPEC_NEXT, c.id, cand, field img 12 3, field img 20 2, q.ctx.frame,
                  q.ctx.column, q.ctx.pixrow, q.ctx.t0 % 2 ^ 32, [], false, false⟩]
                ∧ t.get F.PNT_SPEC_NEXT = (s.get F.PNT_SPEC_NEXT + 1) % 65536 ∧ CountsOne (F.PNT_CNT_COUNT 1) s t
                ∧ t.pnt.zoneQ.length + t.pnt.recsHeld.length = s.pnt.zoneQ.length + s.pnt.recsHeld.length + 1
                ∧ t.eng (.pe n) = (u.eng (.pe n)).next 1 ∧ t.emi = s.emi)
          ∧ ((field d.block 2 1 ≤ cand ∨ c.earlyDone.contains cand = true ∨ c.resolved = true) →
            Completes (.emit (.pe n) p 2#8 pa ang) s fun t =>
              t.pnt = s.pnt ∧ CountsOne (F.PNT_CNT_COUNT 5) s t ∧ t.eng (.pe n) = (u.eng (.pe n)).next 1 ∧ t.emi = s.emi))
        ∧ ((d.kind = 3 ∨ d.kind = 5) →
          Completes (.emit (.pe n) p 11#8 pa ang) s fun t =>
            t.fle = (u.candidate img).fle ∧ t.eng (.pe n) = (u.eng (.pe n)).next 1 ∧ t.pnt = s.pnt ∧ t.pool = s.pool ∧ t.emi = s.emi)

/-! ### Emission -/

/-- Edges on PERMIT_IN: one that follows the last valid edge by 2 µs or more, or that none precedes, is valid, is echoed 1,600 ticks later,
restarts the watchdog, and is a stamp for the meters of that source; a sooner one is counted and does neither; the echo toggles PERMIT_ACK;
16,160 ticks without a valid edge trip the permit, and slots after that are skipped with reason PERMIT where no hard inhibit holds (R78, R79,
R81, R82, R88, R328).
Points that the spec leaves open follow the model's choices (log 32). -/
def Obligations.Permit : Prop :=
  (∀ (s : State) (level : Bool) (t l : Nat), s.inReset = false → s.is F.SYS_STAT_TBLOCK = true → level ≠ s.emi.permit →
    s.emi.lastEdge = some l → l + 3200 ≤ t →
    Completes (.permitEdge level t) s fun u =>
      u.emi = { s.emi with permit := level, lastEdge := some t, echoes := s.emi.echoes ++ [t + 1600],
                           watch := s.emi.watch || decide (t ≤ l + 16000) }
        ∧ u.is F.EMI_STAT_PERMOK = (decide (t ≤ l + 16000) || s.is F.EMI_STAT_PERMOK) ∧ u.is F.EMI_STAT_PTRIP = s.is F.EMI_STAT_PTRIP
        ∧ u.sns = (s.feed 2 0 (1024 * t + 512)).sns ∧ KeepsRegs (fun a => a == F.EMI_STAT_PERMOK.off) s u
        ∧ { u with regs := s.regs, emi := s.emi, dt := s.dt, sns := s.sns } = s)
    ∧ (∀ (s : State) (level : Bool) (t : Nat), s.inReset = false → s.is F.SYS_STAT_TBLOCK = true → level ≠ s.emi.permit →
      s.emi.lastEdge = none →
      Completes (.permitEdge level t) s fun u =>
        u.emi = { s.emi with permit := level, lastEdge := some t, echoes := s.emi.echoes ++ [t + 1600] } ∧ u.regs = s.regs
          ∧ u.sns = (s.feed 2 0 (1024 * t + 512)).sns ∧ { u with emi := s.emi, dt := s.dt, sns := s.sns } = s)
    ∧ (∀ (s : State) (level : Bool) (t l : Nat), s.inReset = false → s.is F.SYS_STAT_TBLOCK = true → level ≠ s.emi.permit →
      s.emi.lastEdge = some l → t < l + 3200 →
      Completes (.permitEdge level t) s fun u =>
        u.emi = { s.emi with permit := level } ∧ CountsOne F.EMI_IGNORED_PFAST s u
          ∧ KeepsRegs (fun a => a == F.EMI_IGNORED_PFAST.off) s u ∧ { u with regs := s.regs, emi := s.emi, dt := s.dt } = s)
    ∧ (∀ (s : State) (t e : Nat) (es : List Nat), s.inReset = false → s.is F.SYS_STAT_TBLOCK = true → s.emi.echoes = e :: es →
      e ≤ t + 1 →
      Completes (.permitAckToggle t) s fun u =>
        u.emi = { s.emi with ack := !s.emi.ack, echoes := es } ∧ { u with emi := s.emi, dt := s.dt } = s)
    ∧ ∀ (s : State) (t l : Nat), s.inReset = false → s.is F.SYS_STAT_TBLOCK = true → s.emi.lastEdge = some l → s.emi.watch = true →
      l + 16160 ≤ t →
      Completes (.permitWatchdogExpire t) s fun u =>
        u.is F.EMI_STAT_PTRIP = true ∧ u.is F.EMI_STAT_PERMOK = false ∧ Detects Cause.permit 0 s u
          ∧ u.emi = { s.emi with lastEdge := none, past := u.emi.past }
          ∧ (∀ n e row tf, u.follows s tf → u.hardInh tf = false → u.skipReason n e row tf = 2)
          ∧ KeepsRegs (fun a => a == F.EMI_STAT_PTRIP.off || messageReg a || faultReg a) s u
          ∧ { u with regs := s.regs, emi := s.emi, dt := s.dt, flt := s.flt, outs := s.outs, hifx := s.hifx } = s

/-- The second of two valid edges that are no more than 10 µs apart sets PERMOK (R82). -/
def Obligations.PermitOkAfterTwoEdges : Prop :=
  ∀ (s u v : State) (a b : Bool) (t1 t2 : Nat), s.is F.SYS_STAT_TBLOCK = true → s.inReset = false →
    (s.emi.lastEdge = none ∨ ∃ l, s.emi.lastEdge = some l ∧ l + 3200 ≤ t1) → a ≠ s.emi.permit → b ≠ a →
    t1 + 3200 ≤ t2 → t2 ≤ t1 + 16000 → exec (.permitEdge a t1) s = .next u → exec (.permitEdge b t2) u = .next v →
    v.is F.EMI_STAT_PERMOK = true

/-- ARM takes effect under the conditions of R91 and fills the budget of a block that was not armed; DISARM clears it and lets pulses complete;
REARM clears the latched inhibits under the conditions of R84, and with ARM = 1 arms too where nothing but those stood in the way; slots with a
t_fire after the write are judged by what it leaves; else the write is ignored (R47, R84, R91, R92).
That one write may do both, that a slot is judged by its t_fire, and that ARM is refused while the test port selects EXTEST are the model's
choices (log 29, 105, 99). -/
def Obligations.Arming : Prop :=
  (∀ (s : State) (src : Src), s.inReset = false → s.hears src = true → s.mayArm = true →
    Completes (.arm src) s fun u =>
      u.is F.EMI_CTRL_ARM = true ∧ u.is F.EMI_STAT_ARMED = true
        ∧ u.emi = { s.emi with tokens := if s.is F.EMI_STAT_ARMED then s.emi.tokens else 64
                               tokenLog := if s.is F.EMI_STAT_ARMED then s.emi.tokenLog else []
                               past := u.emi.past }
        ∧ (s.is F.EMI_STAT_ARMED = false → Raised 16 u) ∧ (∀ tf, u.follows s tf → u.isAt F.EMI_STAT_ARMED tf = true)
        ∧ KeepsRegs (fun a => a == F.EMI_CTRL_ARM.off || a == F.EMI_STAT_ARMED.off || messageReg a) s u
        ∧ { u with regs := s.regs, emi := s.emi, outs := s.outs, hifx := s.hifx } = s)
    ∧ (∀ (s : State) (src : Src), s.inReset = false → s.hears src = true → s.mayArm = false →
      Completes (.arm src) s fun u => Ignored s u)
    ∧ (∀ (s : State) (src : Src), s.inReset = false → s.hears src = true →
      Completes (.disarm src) s fun u =>
        u.is F.EMI_CTRL_ARM = false ∧ u.is F.EMI_STAT_ARMED = false ∧ u.emi = { s.emi with past := u.emi.past }
          ∧ (∀ tf, u.follows s tf → u.isAt F.EMI_STAT_ARMED tf = false)
          ∧ KeepsRegs (fun a => a == F.EMI_CTRL_ARM.off || a == F.EMI_STAT_ARMED.off || messageReg a) s u
          ∧ { u with regs := s.regs, emi := s.emi, outs := s.outs, hifx := s.hifx } = s)
    ∧ (∀ (s : State) (src : Src) (arm : Bool), s.inReset = false → s.hears src = true → s.is F.EMI_STAT_PERMOK = true →
      s.is F.EMI_STAT_TFLT = false → s.chainOk = true →
      (arm = true → s.is F.SYS_STAT_TBLOCK = true ∧ s.tap.instr ≠ .extest) →
      Completes (.rearm src arm) s fun u =>
        u.is F.EMI_STAT_PTRIP = false ∧ u.is F.EMI_STAT_TFLATCH = false ∧ u.is F.EMI_STAT_CHFLT = false
          ∧ u.is F.EMI_CTRL_ARM = arm ∧ u.is F.EMI_STAT_ARMED = arm ∧ u.is F.EMI_STAT_INH = s.is F.EMI_STAT_INH
          ∧ (∀ tf, u.follows s tf → u.isAt F.EMI_STAT_PTRIP tf = false ∧ u.isAt F.EMI_STAT_TFLATCH tf = false
              ∧ u.isAt F.EMI_STAT_CHFLT tf = false ∧ u.isAt F.EMI_STAT_ARMED tf = arm)
          ∧ { u.emi with tokens := s.emi.tokens, tokenLog := s.emi.tokenLog, past := s.emi.past } = s.emi
          ∧ KeepsRegs (fun a => a == F.EMI_CTRL_ARM.off || a == F.EMI_STAT_ARMED.off || messageReg a) s u
          ∧ { u with regs := s.regs, emi := s.emi, outs := s.outs, hifx := s.hifx } = s)
    ∧ (∀ (s : State) (src : Src) (arm : Bool), s.inReset = false → s.hears src = true →
      (s.is F.EMI_STAT_PERMOK = false ∨ s.is F.EMI_STAT_TFLT = true ∨ s.chainOk = false) →
      Completes (.rearm src arm) s fun u => Ignored s u)
    ∧ (∀ s : State, s.chainOk = true ↔ s.get F.EMI_CHSTAT_RESULT = 1 ∨ s.get F.EMI_CHCFG_LEN = 0)
    ∧ ∀ s : State, s.mayArm = true ↔
        s.tap.instr ≠ .extest ∧ s.is F.SYS_STAT_TBLOCK = true ∧ s.is F.EMI_STAT_PERMOK = true ∧ s.chainOk = true
          ∧ s.is F.EMI_STAT_PTRIP = false ∧ s.is F.EMI_STAT_TFLATCH = false ∧ s.is F.EMI_STAT_CHFLT = false

/-- EMI_INH_N low cuts every pulse and skips slots with reason HARDINH, and so does the first microsecond after its rise; the thermal line
raises a record, latches under TFACT 2, and under TFACT 1 holds fires, as its delay after the release does; a write of TFACT acts at once
(R69, R85, R607). The reason of the first microsecond after the rise, the judging by t_fire and points of the two lines are the model's choices
(log 106, 105, 28, 32). -/
def Obligations.Inhibits : Prop :=
  (∀ s : State, s.inReset = false → s.emi.rowWait = none →
    Completes .hardInhibitAssert s fun u =>
      u.is F.EMI_STAT_INH = true ∧ u.emi = { s.emi with inhN := false, inhRise := none, pulses := [], past := u.emi.past }
        ∧ (∀ n e row tf, u.follows s tf → u.skipReason n e row tf = 1) ∧ KeepsRegs (fun a => a == F.EMI_STAT_INH.off) s u
        ∧ { u with regs := s.regs, emi := s.emi } = s)
    ∧ (∀ (s : State) (t : Nat), s.inReset = false → s.is F.EMI_STAT_INH = true →
      Completes (.hardInhibitRelease t) s fun u =>
        u.is F.EMI_STAT_INH = false ∧ u.emi = { s.emi with inhN := true, inhRise := some t, past := u.emi.past }
          ∧ (∀ n e row tf, u.follows s tf → tf < 16 * (t + 1600) → u.skipReason n e row tf = 1)
          ∧ (∀ tf, u.follows s tf → 16 * (t + 1600) ≤ tf → u.hardInh tf = false)
          ∧ KeepsRegs (fun a => a == F.EMI_STAT_INH.off) s u ∧ { u with regs := s.regs, emi := s.emi, dt := s.dt } = s)
    ∧ (∀ s : State, s.inReset = false → s.is F.EMI_STAT_TFLT = false →
      Completes .tfltAssert s fun u =>
        u.is F.EMI_STAT_TFLT = true ∧ Detects Cause.thermal 0 s u ∧ u.emi = { s.emi with resuming := false, past := u.emi.past }
          ∧ (s.get F.EMI_CFG_TFACT = 2 → u.is F.EMI_STAT_TFLATCH = true)
          ∧ (s.get F.EMI_CFG_TFACT ≠ 2 → u.is F.EMI_STAT_TFLATCH = s.is F.EMI_STAT_TFLATCH)
          ∧ (s.get F.EMI_CFG_TFACT = 1 ∨ s.get F.EMI_CFG_TFACT = 2 → u.thermal = true ∧ ∀ tf, u.follows s tf → u.thermalAt tf = true)
          ∧ KeepsRegs (fun a => a == F.EMI_STAT_TFLT.off || messageReg a || faultReg a) s u
          ∧ { u with regs := s.regs, emi := s.emi, flt := s.flt, outs := s.outs, hifx := s.hifx } = s)
    ∧ (∀ s : State, s.inReset = false → s.is F.EMI_STAT_TFLT = true →
      Completes .tfltRelease s fun u =>
        u.is F.EMI_STAT_TFLT = false
          ∧ u.emi = { s.emi with resuming := decide (s.get F.EMI_CFG_TFACT = 1), past := u.emi.past }
          ∧ (s.get F.EMI_CFG_TFACT = 1 → u.thermal = true ∧ ∀ tf, u.follows s tf → u.thermalAt tf = true)
          ∧ u.is F.EMI_STAT_TFLATCH = s.is F.EMI_STAT_TFLATCH ∧ KeepsRegs (fun a => a == F.EMI_STAT_TFLT.off) s u
          ∧ { u with regs := s.regs, emi := s.emi } = s)
    ∧ (∀ s : State, s.inReset = false → s.is F.EMI_STAT_TFLT = false → s.is F.EMI_STAT_TFLATCH = false →
      Completes .thermalResume s fun u =>
        u.thermal = false ∧ (∀ tf, u.follows s tf → u.thermalAt tf = false)
          ∧ u = { s with emi := { s.emi with resuming := false, past := u.emi.past } })
    ∧ (∀ (s : State) (src : Src) (v : Word), s.inReset = false → s.hears src = true → F.EMI_CFG_TFACT.of v ≠ 3 →
      4 ≤ F.EMI_CFG_BLANK.of v → F.EMI_CFG_BLANK.of v ≤ 256 → F.EMI_CFG_MODE.of v = s.get F.EMI_CFG_MODE →
      Completes (.tfactWrite src v) s fun u =>
        u.get F.EMI_CFG_TFACT = F.EMI_CFG_TFACT.of v ∧ u.get F.EMI_CFG_AMP = F.EMI_CFG_AMP.of v
          ∧ u.get F.EMI_CFG_BLANK = F.EMI_CFG_BLANK.of v
          ∧ (F.EMI_CFG_TFACT.of v = 2 → s.is F.EMI_STAT_TFLT = true → u.is F.EMI_STAT_TFLATCH = true ∧ u.thermal = true)
          ∧ (F.EMI_CFG_TFACT.of v = 1 → s.is F.EMI_STAT_TFLT = true → u.thermal = true)
          ∧ (F.EMI_CFG_TFACT.of v = 0 → s.is F.EMI_STAT_TFLATCH = false → u.thermal = false)
          ∧ (∀ tf, u.follows s tf → u.thermalAt tf = u.thermal)
          ∧ (F.EMI_CFG_TFACT.of v ≠ 2 ∨ s.is F.EMI_STAT_TFLT = false → u.is F.EMI_STAT_TFLATCH = s.is F.EMI_STAT_TFLATCH)
          ∧ u.emi = { s.emi with resuming := s.emi.resuming && decide (F.EMI_CFG_TFACT.of v ≠ 0), past := u.emi.past }
          ∧ KeepsRegs (fun a => a == F.EMI_CFG_TFACT.off || a == F.EMI_STAT_TFLATCH.off || messageReg a) s u
          ∧ { u with regs := s.regs, emi := s.emi, outs := s.outs, hifx := s.hifx } = s)
    ∧ ∀ (s : State) (src : Src) (v : Word), s.inReset = false → s.hears src = true → F.EMI_CFG_TFACT.of v = 3 →
      Completes (.tfactWrite src v) s fun u => Ignored s u

/-- A pulse ends, and a row change that waits for it takes effect at its trailing edge; a ROW command in matrix mode lowers all rows and starts
blanking, and its row rises at the command ROW_SELECT_RISE; where a pulse is active it waits; one for the row already selected starts a new
blanking while one runs, and has no effect otherwise; in direct mode it is counted and has no effect; a token is added up to 64 (R45, R47, R50
to R54). Which edges an added token serves, and when a row is selected, are the model's choices (log 105, 20). -/
def Obligations.PulsesAndRows : Prop :=
  (∀ (s : State) (n : Fin 64) (p : FirePulse), s.inReset = false → s.emi.pulses = [p] → p.output = n.val → s.emi.rowWait = none →
    Completes (.pulseTrailingEdge n) s fun u =>
      u.emi = { s.emi with pulses := [] } ∧ { u with emi := s.emi, dt := s.dt } = s)
    ∧ (∀ (s : State) (n : Fin 64) (p : FirePulse) (r t : Nat), s.inReset = false → s.emi.pulses = [p] → p.output = n.val →
      s.emi.rowWait = some (r, t) → p.lead ≤ t → t < p.trail →
      Completes (.pulseTrailingEdge n) s fun u =>
        u.emi.pulses = [] ∧ u.emi.rowHigh = none ∧ u.emi.rowNext = some r ∧ u.emi.blanking = true ∧ u.emi.rowWait = none
          ∧ u.emi.rows.head? = some ⟨p.trail, some r, p.trail + 1280 * s.get F.EMI_CFG_BLANK⟩ ∧ { u with emi := s.emi, dt := s.dt } = s)
    ∧ (∀ s : State, s.inReset = false →
      Completes .budgetTokenAdd s fun u =>
        (s.emi.tokenLog.Pairwise (fun x y => x.1 ≤ y.1) → (∀ x ∈ s.emi.tokenLog, x.1 ≤ 16 * s.dt) →
          ∀ tf, 16 * s.dt ≤ tf → u.tokensAt tf = min 64 (s.tokensAt tf + 1))
          ∧ { u with emi := { u.emi with tokens := s.emi.tokens, tokenLog := s.emi.tokenLog } } = s)
    ∧ (∀ (s : State) (r tc sub fr co : Nat), s.inReset = false → s.is F.SYS_STAT_TBLOCK = true →
      s.emi.tq = [⟨.row r, tc, sub, fr, co, false⟩] → s.matrix = true → s.emi.rowWait = none →
      (∀ e ∈ s.emi.rows.head?, e.row = some r → 16 * tc + sub < e.blankEnd) →
      (∀ p ∈ s.emi.pulses, ¬(p.lead ≤ 16 * tc + sub ∧ 16 * tc + sub < p.trail)) →
      Completes .rowChange s fun u =>
        u.emi.tq = [] ∧ u.emi.rowHigh = none ∧ u.emi.rowNext = some r ∧ u.emi.blanking = true ∧ u.emi.rowWait = none
          ∧ u.emi.rows.head? = some ⟨16 * tc + sub, some r, 16 * tc + sub + 1280 * s.get F.EMI_CFG_BLANK⟩ ∧ u.emi.pulses = s.emi.pulses
          ∧ (∀ n e tf, (∀ x ∈ s.emi.past, 16 * x.t < tf) → 16 * tc + sub ≤ tf → tf < 16 * tc + sub + 1280 * s.get F.EMI_CFG_BLANK →
              u.skipReason n e r tf ≠ 0)
          ∧ { u with regs := s.regs, emi := s.emi, dt := s.dt } = s)
    ∧ (∀ (s : State) (r tc sub fr co : Nat) (x : RowEv), s.inReset = false → s.is F.SYS_STAT_TBLOCK = true →
      s.emi.tq = [⟨.row r, tc, sub, fr, co, false⟩] → s.matrix = true → s.emi.rowWait = none →
      s.emi.rows.head? = some x → x.row = some r → x.blankEnd ≤ 16 * tc + sub →
      Completes .rowChange s fun u =>
        u.emi = { s.emi with tq := [] } ∧ (∀ m, u.rowPin m = s.rowPin m) ∧ { u with regs := s.regs, emi := s.emi, dt := s.dt } = s)
    ∧ (∀ (s : State) (r tc sub fr co : Nat) (p : FirePulse), s.inReset = false → s.is F.SYS_STAT_TBLOCK = true →
      s.emi.tq = [⟨.row r, tc, sub, fr, co, false⟩] → s.matrix = true → s.emi.rowWait = none →
      (∀ e ∈ s.emi.rows.head?, e.row = some r → 16 * tc + sub < e.blankEnd) →
      p ∈ s.emi.pulses → p.lead ≤ 16 * tc + sub → 16 * tc + sub < p.trail →
      Completes .rowChange s fun u =>
        u.emi = { s.emi with tq := [], rowWait := some (r, 16 * tc + sub) } ∧ { u with regs := s.regs, emi := s.emi, dt := s.dt } = s)
    ∧ (∀ (s : State) (r tc sub fr co : Nat), s.inReset = false → s.is F.SYS_STAT_TBLOCK = true →
      s.emi.tq = [⟨.row r, tc, sub, fr, co, false⟩] → s.matrix = false →
      Completes .rowChange s fun u =>
        CountsOne F.EMI_IGNORED_CMD s u ∧ u.emi = { s.emi with tq := [] } ∧ (∀ m, u.rowPin m = s.rowPin m)
          ∧ { u with regs := s.regs, emi := s.emi, dt := s.dt } = s)
    ∧ (∀ (s : State) (r : Nat), s.inReset = false → s.emi.rowNext = some r →
      Completes .rowSelectRise s fun u => u = { s with emi := { s.emi with rowHigh := some r, rowNext := none } })
    ∧ ∀ s : State, s.inReset = false → Completes .blankingEnd s fun u => u = { s with emi := { s.emi with blanking := false } }

/-- GO copies the image of the chain and starts a frame with its trailer, or keeps it until 60 µs after the last falling edge, where
LATCH_GUARD_END starts it; a GO while a frame is in progress or pending, or without a chain, is ignored and counted; EDQ is high for a quarter or
three quarters of each bit and low between frames; the result is judged by the bits that EDR returns, sampled 320 ticks after each rises, and one
that is not OK raises a record and under FACT inhibits; the guard skips fires of its span (R60 to R63, R65 to R68, R606).
Points that the spec leaves open follow the model's choices (log 21, 28, 105). -/
def Obligations.DriverChain : Prop :=
  (∀ (s : State) (src : Src) (img : Fin 8) (t : Nat) (ws : List Word), s.inReset = false → s.hears src = true →
    s.is F.EMI_STAT_CHBUSY = false → s.get F.EMI_CHCFG_LEN ≠ 0 → s.chainImage img.val = some ws →
    (∀ w ∈ wordsOf (0x840000 + 256 * img.val) (4 * s.get F.EMI_CHCFG_LEN), s.errors w = 0#32) →
    ∃ u, exec (.chainGo src img t) s = .next u
      ∧ u.get F.EMI_CHCTRL_IMAGE = img.val ∧ u.is F.EMI_STAT_CHBUSY = true
      ∧ KeepsRegs (fun a => a == F.EMI_CHCTRL_IMAGE.off || a == F.EMI_CHSTAT_SEQ.off || a == F.EMI_STAT_CHBUSY.off) s u
      ∧ { u with regs := s.regs, emi := s.emi, outs := s.outs, dt := s.dt } = s
      ∧ (s.chainHeld t = true → u.emi = { s.emi with chainPend := some ws } ∧ u.outs = s.outs)
      ∧ (s.chainHeld t = false →
        u.emi = { s.emi with chainBuf := ws ++ [chainTrailer ((s.get F.EMI_CHSTAT_SEQ + 1) % 256)], chainBusy := true
                             chainAt := some t
                             chainEdge := some (lastFall t (chainBits (ws ++ [chainTrailer ((s.get F.EMI_CHSTAT_SEQ + 1) % 256)])))
                             chainPrev := s.emi.chainEdge, guard := false, chainPend := none }
          ∧ u.outs = s.outs ++ [.chainFrame (chainBits (ws ++ [chainTrailer ((s.get F.EMI_CHSTAT_SEQ + 1) % 256)]))]
          ∧ u.get F.EMI_CHSTAT_SEQ = (s.get F.EMI_CHSTAT_SEQ + 1) % 256))
    ∧ (∀ (s : State) (src : Src) (img : Fin 8) (t : Nat), s.inReset = false → s.hears src = true →
      (s.is F.EMI_STAT_CHBUSY = true ∨ s.get F.EMI_CHCFG_LEN = 0) → ∃ u, exec (.chainGo src img t) s = .next u ∧ Ignored s u)
    ∧ (∀ (s : State) (t0 k d : Nat) (b : Bool), s.emi.chainAt = some t0 → (chainBits s.emi.chainBuf)[k]? = some b → d < 640 →
      s.edqLevel (t0 + 640 * k + d) = decide (d < if b then 480 else 160))
    ∧ (∀ (s : State) (t0 t : Nat), s.emi.chainAt = some t0 → (t < t0 ∨ t0 + 20480 * s.emi.chainBuf.length ≤ t) → s.edqLevel t = false)
    ∧ (∀ (s : State) (edr : List (Nat × Nat)) (rx : List Bool) (r : Nat), s.inReset = false → s.emi.chainBusy = true →
      rx = s.edrBits edr →
      r = (if rx.length = 0 then 5 else if rx.length < 32 then 3 else if 32 < rx.length then 4
        else if rx = chainBits [s.emi.chainBuf.getLastD 0#32] then 1 else 2) →
      ∃ u, exec (.chainResult edr) s = .next u
        ∧ u.get F.EMI_CHSTAT_RESULT = r ∧ u.get F.EMI_CHSTAT_BITS = min rx.length 255
        ∧ u.emi = { s.emi with chainBusy := false, past := u.emi.past }
        ∧ (r ≠ 1 → Detects Cause.chain 0 s u ∧ (s.is F.EMI_CHCFG_FACT = true → u.is F.EMI_STAT_CHFLT = true))
        ∧ ((r = 1 ∨ s.is F.EMI_CHCFG_FACT = false) → u.is F.EMI_STAT_CHFLT = s.is F.EMI_STAT_CHFLT) ∧ Raised 16 u
        ∧ KeepsRegs (fun a => a == F.EMI_CHSTAT_RESULT.off || a == F.EMI_STAT_CHFLT.off || messageReg a || faultReg a) s u
        ∧ { u with regs := s.regs, emi := s.emi, dt := s.dt, flt := s.flt, outs := s.outs, hifx := s.hifx } = s)
    ∧ (∀ (s : State) (edr : List (Nat × Nat)), (∀ p ∈ edr, s.emi.chainAt.getD 0 ≤ p.1 ∧ p.1 ≤ s.edrEnd) →
      s.edrBits edr = edr.map fun p => decide (p.1 + 320 < p.2))
    ∧ (∀ (s : State) (e : Nat), s.inReset = false → s.emi.chainEdge = some e →
      ∃ u, exec .latchGuardStart s = .next u ∧ u.emi = { s.emi with guard := true } ∧ { u with emi := s.emi, dt := s.dt } = s)
    ∧ (∀ (s : State) (e : Nat), s.inReset = false → s.emi.chainEdge = some e → s.emi.chainPend = none →
      ∃ u, exec .latchGuardEnd s = .next u ∧ u.emi = { s.emi with guard := false } ∧ { u with emi := s.emi, dt := s.dt } = s)
    ∧ (∀ (s : State) (e : Nat) (ws : List Word), s.inReset = false → s.emi.chainEdge = some e → s.emi.chainPend = some ws →
      s.emi.chainBusy = false →
      ∃ u, exec .latchGuardEnd s = .next u ∧ u.emi.chainAt = some (e + 96000) ∧ u.emi.chainBusy = true ∧ u.emi.chainPend = none
        ∧ u.emi.chainPrev = some e ∧ u.emi.chainBuf = ws ++ [chainTrailer ((s.get F.EMI_CHSTAT_SEQ + 1) % 256)]
        ∧ { u with regs := s.regs, emi := s.emi, outs := s.outs, dt := s.dt } = s)
    ∧ ∀ (s : State) (n e row tf edge : Nat), (s.emi.chainEdge = some edge ∨ s.emi.chainPrev = some edge) →
      s.isAt F.EMI_CHCFG_LGUARD tf = true → 16 * (edge + 72000) ≤ tf → tf < 16 * (edge + 96000) →
      s.skipReason n e row tf ≠ 0 ∧ s.skipReason n e row tf ≤ 4

/-- DERATE_ENABLE takes the input for derating and brings entry 0 into force where the table of entries is in order and no other owner has the
input, and else is ignored and counted; the image that an entry names is sent once no frame, nor its 60 µs, holds it back, and not without a
chain (R71, R72, R74, R77, R315).
Points that the spec leaves open follow the model's choices (log 21, 31). -/
def Obligations.Derating : Prop :=
  (∀ (s : State) (t img : Nat) (ws : List Word), s.inReset = false → s.emi.derImage = some img → s.emi.chainBusy = false →
    s.emi.chainPend = none → s.chainHeld t = false → s.get F.EMI_CHCFG_LEN ≠ 0 → s.chainImage img = some ws →
    (∀ w ∈ wordsOf (0x840000 + 256 * img) (4 * s.get F.EMI_CHCFG_LEN), s.errors w = 0#32) →
    ∃ u, exec (.derateImageSend t) s = .next u
      ∧ u.emi.derImage = none ∧ u.emi.chainBusy = true ∧ u.emi.chainAt = some t
      ∧ u.emi.chainBuf = ws ++ [chainTrailer ((s.get F.EMI_CHSTAT_SEQ + 1) % 256)]
      ∧ u.outs = s.outs ++ [.chainFrame (chainBits (ws ++ [chainTrailer ((s.get F.EMI_CHSTAT_SEQ + 1) % 256)]))]
      ∧ { u with regs := s.regs, emi := s.emi, outs := s.outs, dt := s.dt } = s)
    ∧ (∀ (s : State) (t img : Nat), s.inReset = false → s.emi.derImage = some img →
      (s.emi.chainBusy = true ∨ s.emi.chainPend.isSome = true ∨ s.chainHeld t = true) → exec (.derateImageSend t) s = .next s)
    ∧ (∀ (s : State) (t img : Nat), s.inReset = false → s.emi.derImage = some img → s.emi.chainBusy = false →
      s.emi.chainPend = none → s.chainHeld t = false → s.get F.EMI_CHCFG_LEN = 0 →
      ∃ u, exec (.derateImageSend t) s = .next u ∧ u.emi = { s.emi with derImage := none } ∧ u.outs = s.outs)
    ∧ (∀ (s : State) (src : Src) (v : Word), s.inReset = false → s.hears src = true → s.is F.EMI_DRCFG_EN = false → s.derateOk = true →
      (∀ w ∈ wordsOf 0x840800 32 ++ wordsOf 0x840820 (16 * (s.derateCount - 1)), s.errors w = 0#32) →
      s.is (ownFld (F.EMI_DRCFG_CONV.of v) (F.EMI_DRCFG_INPUT.of v)) = false →
      ∃ u, exec (.derateEnable src v) s = .next u
        ∧ u.is F.EMI_DRCFG_EN = true ∧ u.get F.EMI_STAT_DRENT = 0 ∧ u.get F.EMI_DRCFG_CONV = F.EMI_DRCFG_CONV.of v
        ∧ u.get F.EMI_DRCFG_INPUT = F.EMI_DRCFG_INPUT.of v
        ∧ u.get (ownFld (F.EMI_DRCFG_CONV.of v) (F.EMI_DRCFG_INPUT.of v)) = 2
        ∧ u.emi = { s.emi with past := u.emi.past, drStop := bit (s.num (derateAt 0 + 9) 1) 0, drMin := s.num (derateAt 0 + 4) 4 }
        ∧ { u with regs := s.regs, emi := s.emi } = s)
    ∧ (∀ (s : State) (src : Src) (v : Word), s.inReset = false → s.hears src = true → s.is F.EMI_DRCFG_EN = false →
      (s.derateOk = false ∨ s.is (ownFld (F.EMI_DRCFG_CONV.of v) (F.EMI_DRCFG_INPUT.of v)) = true) →
      (∀ w ∈ wordsOf 0x840800 32 ++ wordsOf 0x840820 (16 * (s.derateCount - 1)), s.errors w = 0#32) →
      ∃ u, exec (.derateEnable src v) s = .next u ∧ Ignored s u)
    ∧ ∀ s : State, (∀ w ∈ wordsOf 0x840800 32 ++ wordsOf 0x840820 (16 * (s.derateCount - 1)), s.errors w = 0#32) →
      (s.derateOk = true ↔ 0 < s.num 0x840800 1 ∧ ∀ i, i + 1 < min 16 (s.num 0x840800 1) →
        s.num (derateAt i) 2 % 4096 < s.num (derateAt (i + 1)) 2 % 4096)

/-- A fire slot of one output in its command's time: it is numbered and journalled with its t_fire, emitter, dither, reason, and the FRAME and
COLUMN of its command, and the emitter's code index advances; it fires, with its edge, pulse and token, where no reason to skip it applies at its
t_fire, and else it is counted by its reason and no output fires; STCS takes over a start input at the fire. The reason is the lowest of R88's
that applies, and these say when some of them do (R44 to R47, R50, R56, R66, R86, R88, R112, R545, R564).
Points that the spec leaves open follow the model's choices (log 20, 28, 33, 105, 106). -/
def Obligations.FireSlots : Prop :=
  (∀ (s : State) (n row tc sub fr co : Nat) (code : Option Int), s.inReset = false → s.is F.SYS_STAT_TBLOCK = true → n < 64 →
    s.emi.tq = [⟨.fire (2 ^ n) row code, tc, sub, fr, co, false⟩] → s.emi.codeMarks = [] → s.emi.rowWait = none →
    (∀ c ∈ s.pool.ctxs, c.state ≠ .reacq) → (∀ g ∈ s.ret.gates, g.cut = false) →
    (∀ w ∈ wordsOf (0xA50020 + 8 * n) 5 ++ wordsOf (mapBase s.mapNow (s.emitterOf row n)) 128, s.errors w = 0#32) →
    ∀ (u : State) (e k : Nat) (d : Int) (tf r : Nat), u = (s.setQ []).at tc → e = s.emitterOf row n → k = FMap.nat s.emi.codeK e →
      d = s.dither k code → tf = (((16 * tc + sub : Nat) : Int) + 16 * d + sint 8 (s.get (F.EMI_FOUT_TRIM n))).toNat →
      r = u.skipReason n e row tf →
      ∃ t, exec .fireSlot s = .next t
        ∧ t.emi.tq = [] ∧ t.emi.slots = s.emi.slots + 1 ∧ FMap.nat t.emi.codeK e = k + 1
        ∧ (r = 0 →
          (FMap.get (fun _ => []) t.emi.lastFire n).head? = some tf
            ∧ t.emi.pulses = s.emi.pulses ++ [⟨n, tf, tf + 16 * s.get (F.EMI_FOUT_WIDTH n)⟩]
            ∧ t.outs = s.outs ++ [.fire n tf (s.get (F.EMI_FOUT_WIDTH n)) (s.get F.EMI_CFG_AMP)]
            ∧ (s.emi.tokenLog = [] → ∀ y, t.tokensAt y = if tf / 16 ≤ y / 16 then s.emi.tokens - 1 else s.emi.tokens)
            ∧ (s.ret.stcsNext = some (s.get (F.EMI_FOUT_STC n)) →
              t.ret.stcsNext = none ∧ t.is (F.RGP_STSTAT_SPARED (s.get (F.EMI_FOUT_STC n))) = true))
        ∧ (r ≠ 0 →
          t.emi.tokens = s.emi.tokens ∧ t.emi.tokenLog = s.emi.tokenLog ∧ t.emi.lastFire = s.emi.lastFire ∧ t.emi.pulses = s.emi.pulses
            ∧ t.outs = s.outs ∧ CountsOne (F.EMI_SKIP_COUNT r) s t)
        ∧ t.num (journalBase s.emi.slots) 8 = tf % 2 ^ 64 ∧ t.num (journalBase s.emi.slots + 8) 2 = e % 65536
        ∧ (t.byte (journalBase s.emi.slots + 11)).toNat = r ∧ t.num (journalBase s.emi.slots + 12) 2 = uint 11 d
        ∧ t.num (journalBase s.emi.slots + 28) 2 = fr % 65536 ∧ t.num (journalBase s.emi.slots + 30) 2 = co % 65536
        ∧ (t.ret.shots.getLast?).map (fun h => (h.slot, h.emitter, h.output, h.tFire, h.fired))
            = some (s.emi.slots, e, n, tf, decide (r = 0))
        ∧ t.seq = s.seq ∧ t.axs = s.axs ∧ t.stl = s.stl)
    ∧ (∀ (s : State) (n e row tf r : Nat),
      (s.skipReason n e row tf = 0 ↔ ∀ x ∈ s.skipConds n e row tf, x.2 = false)
        ∧ (r ≠ 0 → (s.skipReason n e row tf = r ↔
            (r, true) ∈ s.skipConds n e row tf ∧ ∀ x ∈ s.skipConds n e row tf, x.1 < r → x.2 = false)))
    ∧ ∀ (s : State) (n row tf : Nat),
      (s.tooSoon n tf 1600 = true ↔ ∃ l ∈ FMap.get (fun _ => []) s.emi.lastFire n, l ≤ tf ∧ tf < l + 25600)
        ∧ (s.blanked row tf = false ↔ s.isAt F.EMI_CFG_MODE tf = true → ∃ x, s.rowAt tf = some x ∧ x.row = some row ∧ x.blankEnd ≤ tf)
        ∧ (s.inGuard tf = true ↔ s.isAt F.EMI_CHCFG_LGUARD tf = true
            ∧ ∃ e, (s.emi.chainEdge = some e ∨ s.emi.chainPrev = some e) ∧ 16 * (e + 72000) ≤ tf ∧ tf < 16 * (e + 96000))
        ∧ (s.axisInhibit n tf = true ↔ ∃ a, a < 4 ∧ bit (s.axesAt n tf) a = true
            ∧ (s.isAt (F.AXS_STAT_FAULT a) tf = true ∨ s.isAt (F.AXS_CTRL_EN a) tf = false))

/-- A queued command that was late when it was issued, or that reaches the logic later than 64 ticks before its time, leaves the queue
unexecuted and is counted: the slots of a fire command are skipped with reason LATE, in ascending output; a CTXO opens nothing and emits a
SKIP mark for the contexts that it would have opened; a CTXC closes the open contexts of its emitter, and a GATE those of its emitters and
channels, with SKIP; a ROW, MAP, MARK or SETPT has no further effect. A command with a parity error is treated so whenever it is met.
Another stays. A freed entry lets the stalled instruction issue (R30, R31, R57, R535). Points that the spec leaves open follow the model's
choices (log 30, 94, 106). -/
def Obligations.LateCommands : Prop :=
  (∀ (s : State) (i t : Nat) (c : TCmd), s.inReset = false → s.is F.SYS_STAT_TBLOCK = true → s.emi.tq[i]? = some c →
    ((∃ r, c.kind = .row r) ∨ (∃ m, c.kind = .map m) ∨ (∃ b, c.kind = .mark b) ∨ ∃ a v, c.kind = .setpt a v) →
    (c.late = true ∨ c.tc < t + 64) →
    ∃ u, exec (.lateCommand i t) s = .next u
      ∧ u.emi = { s.emi with tq := s.emi.tq.eraseIdx i } ∧ CountsOne (F.SEQ_CNT_COUNT 0) s u
      ∧ { u with regs := s.regs, emi := s.emi, dt := s.dt } = s)
    ∧ (∀ (s : State) (i t : Nat) (c : TCmd), s.inReset = false → s.is F.SYS_STAT_TBLOCK = true → s.emi.tq[i]? = some c → c.late = false →
      t + 64 ≤ s.lateAt c →
      (∀ k, c.kind ≠ .parity k) → exec (.lateCommand i t) s = .next s)
    ∧ (∀ (s : State) (i t n row tc sub fr co : Nat) (code : Option Int) (late : Bool), s.inReset = false → s.is F.SYS_STAT_TBLOCK = true → n < 64 →
      s.emi.tq[i]? = some ⟨.fire (2 ^ n) row code, tc, sub, fr, co, late⟩ →
      (late = true ∨ tc - (s.get F.EMI_CFG_AMP + 8) < t + 64) → (∀ g ∈ s.ret.gates, g.cut = false) → (∀ w, s.errors w = 0#32) →
      ∃ u, exec (.lateCommand i t) s = .next u
        ∧ u.emi.tq = s.emi.tq.eraseIdx i ∧ u.emi.slots = s.emi.slots + 1 ∧ u.emi.tokens = s.emi.tokens
        ∧ u.emi.lastFire = s.emi.lastFire ∧ u.emi.pulses = s.emi.pulses ∧ u.outs = s.outs
        ∧ CountsOne (F.SEQ_CNT_COUNT 0) s u ∧ CountsOne (F.EMI_SKIP_COUNT 12) s u
        ∧ (u.byte (journalBase s.emi.slots + 11)).toNat = 12 ∧ u.num (journalBase s.emi.slots + 8) 2 = s.emitterOf row n % 65536)
    ∧ (∀ (s : State) (i t e nshot tc sub fr co : Nat) (late : Bool), s.inReset = false → s.is F.SYS_STAT_TBLOCK = true →
      s.emi.tq[i]? = some ⟨.ctxo e nshot, tc, sub, fr, co, late⟩ → (late = true ∨ tc < t + 64) → (∀ w, s.errors w = 0#32) →
      ∃ u, exec (.lateCommand i t) s = .next u
        ∧ u.emi = { s.emi with tq := s.emi.tq.eraseIdx i } ∧ CountsOne (F.SEQ_CNT_COUNT 0) s u ∧ u.pool = s.pool ∧ u.ret = s.ret
        ∧ ∀ m, m = (s.setQ (s.emi.tq.eraseIdx i)).mapAt (16 * tc + sub) i →
          EmitsSkip m fr co e (if nshot = 0 then 0 else s.wouldOpen m e) tc s u)
    ∧ (∀ (s : State) (i t tc sub fr co : Nat) (late : Bool) (k : TKind) (c : Ctx), s.inReset = false → s.is F.SYS_STAT_TBLOCK = true →
      s.emi.tq[i]? = some ⟨k, tc, sub, fr, co, late⟩ → (late = true ∨ tc < t + 64) →
      (k = .ctxc c.emitter ∨ ∃ n row len ch m, n < 64 ∧ k = .gate (2 ^ n) row len ∧ s.emitterOf row n = c.emitter ∧ ch ∈ c.chans
          ∧ m = (s.setQ (s.emi.tq.eraseIdx i)).mapAt (16 * tc + sub) i ∧ ch ∈ s.channelsOf m c.emitter) →
      s.pool.ctxs = [c] → c.live = true → c.closing = false → s.shotInProgress c.id = false → s.lossPending c = false →
      (∀ w, s.errors w = 0#32) →
      ∃ u, exec (.lateCommand i t) s = .next u
        ∧ u.emi = { s.emi with tq := s.emi.tq.eraseIdx i } ∧ CountsOne (F.SEQ_CNT_COUNT 0) s u ∧ u.pool.queue = s.pool.queue ++ [c.id]
        ∧ u.pool.ctxs = [{ c with state := .closed, closing := false, placing := false, skip := true, skipSeen := true }])
    ∧ (∀ (s : State) (i t r tc sub fr co : Nat) (late : Bool), s.inReset = false → s.is F.SYS_STAT_TBLOCK = true →
      s.emi.tq[i]? = some ⟨.parity (.row r), tc, sub, fr, co, late⟩ →
      ∃ u, exec (.lateCommand i t) s = .next u
        ∧ u.emi = { s.emi with tq := s.emi.tq.eraseIdx i } ∧ CountsOne (F.SEQ_CNT_COUNT 0) s u ∧ Detects Cause.parity 16 s u
        ∧ { u with regs := s.regs, emi := s.emi, dt := s.dt, flt := s.flt, outs := s.outs, hifx := s.hifx, stl := s.stl, pnt := s.pnt } = s)
    ∧ (∀ (s : State) (x : Stall), s.inReset = false → s.seq.fsq.stall = some x → s.emi.tq.length < 512 → s.seq.fsq.stopping = false →
      ∃ u, exec .timedQueueEntryFreed s = .next u ∧ ∃ c, u.emi.tq = s.emi.tq ++ [c] ∧ c.kind = x.kind
        ∧ c.tc = s.seq.fsq.tc + x.off / 16 + (s.seq.fsq.sub + x.off % 16) / 16
        ∧ c.sub = (s.seq.fsq.sub + x.off % 16) % 16 ∧ c.frame = s.get F.SEQ_FPOS_FRAME ∧ c.column = s.get F.SEQ_FPOS_COLUMN
        ∧ (c.late = true ↔ s.lateAt c < s.dt + 64)
        ∧ u.seq.fsq.stall = none ∧ u.seq.fsq.tc = s.seq.fsq.tc ∧ u.seq.fsq.sub = s.seq.fsq.sub ∧ u.pool = s.pool
        ∧ (x.kind ≠ .mark false ∨ s.is F.SEQ_BANK_FPENDV = false → u.eng .fsq = (s.eng .fsq).next x.len)
        ∧ (x.kind = .mark false → s.is F.SEQ_BANK_FPENDV = true →
          (u.eng .fsq).pc = 4 ∧ u.get F.SEQ_BANK_FCUR = s.get F.SEQ_BANK_FPEND ∧ u.is F.SEQ_BANK_FPENDV = false))
    ∧ ∀ s : State, s.inReset = false → (s.seq.fsq.stall = none ∨ 512 ≤ s.emi.tq.length) → exec .timedQueueEntryFreed s = .next s

/-- Queued commands at their device times: a MARK moves the contexts' frame or column; a MAP comes into force; a CTXO opens a context for
the block of its map entry with a free slot, and gives it the slots skipped ahead of it whose time follows it; under queue skip it opens
none, counts its blocks, and emits a SKIP mark; a CTXO of no shots, or in direct mode of an emitter above 63, and one whose entry is
invalid, open none and are counted; a CTXC closes the open contexts of its emitter that no shot holds (R129, R130, R133, R135, R138, R159,
R160, R172, R340, R393). Points that the spec leaves open follow the model's choices (log 39, 94). -/
def Obligations.QueuedCommands : Prop :=
  (∀ (s : State) (tc sub fr co : Nat), s.inReset = false → s.is F.SYS_STAT_TBLOCK = true → s.emi.tq = [⟨.mark true, tc, sub, fr, co, false⟩] →
    ∃ u, exec .markActs s = .next u
      ∧ u.pool = { s.pool with column := (s.pool.column + 1) % 65536 } ∧ u.emi = { s.emi with tq := [] }
      ∧ { u with regs := s.regs, emi := s.emi, pool := s.pool, dt := s.dt } = s)
    ∧ (∀ (s : State) (tc sub fr co : Nat), s.inReset = false → s.is F.SYS_STAT_TBLOCK = true → s.emi.tq = [⟨.mark false, tc, sub, fr, co, false⟩] →
      s.is F.PNT_ZSEL_PEND = false →
      ∃ u, exec .markActs s = .next u
        ∧ u.pool = { s.pool with frame := (s.pool.frame + 1) % 65536, column := 0 } ∧ u.emi = { s.emi with tq := [], codeK := [] }
        ∧ (s.is F.DEC_STAT_PEND = true → u.get F.DEC_STAT_CUR = s.get F.DEC_STAT_PSET ∧ u.is F.DEC_STAT_PEND = false)
        ∧ (s.is F.DEC_STAT_PEND = false → u.get F.DEC_STAT_CUR = s.get F.DEC_STAT_CUR)
        ∧ (s.is F.SEQ_BANK_PPENDV = true → u.get F.SEQ_BANK_PCUR = s.get F.SEQ_BANK_PPEND)
        ∧ (s.is F.SEQ_BANK_PPENDV = false → u.get F.SEQ_BANK_PCUR = s.get F.SEQ_BANK_PCUR) ∧ u.mem = s.mem ∧ u.seq = s.seq)
    ∧ (∀ (s : State) (m tc sub fr co : Nat), s.inReset = false → s.is F.SYS_STAT_TBLOCK = true → m < 8 →
      s.emi.tq = [⟨.map m, tc, sub, fr, co, false⟩] →
      ∃ u, exec .mapTakesEffect s = .next u
        ∧ u.get F.CTX_MAPSEL_CUR = m ∧ u.is F.CTX_MAPSEL_PENDV = false ∧ u.emi = { s.emi with tq := [] }
        ∧ { u with regs := s.regs, emi := s.emi, dt := s.dt } = s)
    ∧ (∀ (s : State) (e nshot tc sub fr co slot : Nat) (x : MapEntry) (chs : List Nat), s.inReset = false → s.is F.SYS_STAT_TBLOCK = true →
      s.emi.tq = [⟨.ctxo e nshot, tc, sub, fr, co, false⟩] → nshot ≠ 0 → (s.matrix = true ∨ e ≤ 63) → s.is F.CTX_STAT_QSKIP = false →
      (∀ w ∈ wordsOf (mapBase s.mapNow e) 128, s.errors w = 0#32) →
      s.mapEntry s.mapNow e = some x → x.blocks = [chs] → s.openOf e = [] → s.hasPosition chs = true → s.freeSlot = some slot →
      (∀ d ∈ s.pool.ctxs, d.id < s.pool.seq) →
      ∃ u, exec .contextOpen s = .next u
        ∧ ∃ c, u.pool.ctxs = s.pool.ctxs ++ [c] ∧ c.state = .open ∧ c.slot = slot ∧ c.emitter = e ∧ c.nshot = nshot ∧ c.chans = chs
          ∧ c.frame = s.pool.frame ∧ c.column = s.pool.column ∧ c.map = s.mapNow ∧ c.fired = 0 ∧ c.nbin = x.nbin
          ∧ c.origin = x.origin ∧ c.id = s.pool.seq ∧ u.pool.seq = s.pool.seq + 1 ∧ u.emi = { s.emi with tq := [] }
          ∧ (∀ b, b < 2048 → u.coarse slot b = 0) ∧ u.seq = s.seq ∧ u.stl = s.stl
          ∧ ((∀ h ∈ s.ret.shots, h.t ≤ 16 * tc + sub ∧ h.behind = false) → u.ret = s.ret ∧ c.given = 0 ∧ c.first = none)
          ∧ ∀ h, s.ret.shots = [h] → h.emitter = e → 16 * tc + sub < h.t →
            u.ret.shots = [{ h with members := h.members ++ [c.id], owners := h.owners ++ [c.id], behind := false }] ∧ c.given = 1
              ∧ c.first = some h.slot
              ∧ c.t0 = h.t / 16)
    ∧ (∀ (s : State) (e nshot tc sub fr co : Nat) (x : MapEntry), s.inReset = false → s.is F.SYS_STAT_TBLOCK = true →
      s.emi.tq = [⟨.ctxo e nshot, tc, sub, fr, co, false⟩] → nshot ≠ 0 → (s.matrix = true ∨ e ≤ 63) → s.is F.CTX_STAT_QSKIP = true →
      (∀ w ∈ wordsOf (mapBase s.mapNow e) 128, s.errors w = 0#32) → s.mapEntry s.mapNow e = some x →
      ∃ u, exec .contextOpen s = .next u
        ∧ u.pool.ctxs = s.pool.ctxs ∧ u.emi = { s.emi with tq := [] } ∧ u.ret = s.ret ∧ u.seq = s.seq
        ∧ u.get (F.CTX_CNT_COUNT 3) = min (s.get (F.CTX_CNT_COUNT 3) + x.blocks.length) (2 ^ (F.CTX_CNT_COUNT 3).w - 1)
        ∧ EmitsSkip s.mapNow s.pool.frame s.pool.column e x.blocks.length tc s u)
    ∧ (∀ (s : State) (e nshot tc sub fr co : Nat), s.inReset = false → s.is F.SYS_STAT_TBLOCK = true →
      s.emi.tq = [⟨.ctxo e nshot, tc, sub, fr, co, false⟩] →
      nshot ≠ 0 → (s.matrix = true ∨ e ≤ 63) → (∀ w ∈ wordsOf (mapBase s.mapNow e) 128, s.errors w = 0#32) →
      s.mapEntry s.mapNow e = none →
      ∃ u, exec .contextOpen s = .next u
        ∧ CountsOne (F.CTX_CNT_COUNT 7) s u ∧ u.pool.ctxs = s.pool.ctxs ∧ u.emi = { s.emi with tq := [] } ∧ u.ret = s.ret
        ∧ (s.is F.CTX_STAT_QSKIP = true → EmitsSkip s.mapNow s.pool.frame s.pool.column e 0 tc s u)
        ∧ (s.is F.CTX_STAT_QSKIP = false → u.stl = s.stl ∧ u.pool = s.pool))
    ∧ (∀ (s : State) (nshot e tc sub fr co : Nat), s.inReset = false → s.is F.SYS_STAT_TBLOCK = true →
      s.emi.tq = [⟨.ctxo e nshot, tc, sub, fr, co, false⟩] →
      (nshot = 0 ∨ s.matrix = false ∧ 63 < e) →
      ∃ u, exec .contextOpen s = .next u
        ∧ CountsOne (F.CTX_CNT_COUNT 9) s u ∧ u.pool = s.pool ∧ { u with regs := s.regs, emi := s.emi, dt := s.dt } = s)
    ∧ ∀ (s : State) (e tc sub fr co : Nat) (c : Ctx), s.inReset = false → s.is F.SYS_STAT_TBLOCK = true →
      s.emi.tq = [⟨.ctxc e, tc, sub, fr, co, false⟩] →
      s.pool.ctxs = [c] → c.live = true → c.emitter = e → c.closing = false → s.shotInProgress c.id = false → s.lossPending c = false →
      ∃ u, exec .contextCloseCommand s = .next u
        ∧ u.pool.queue = s.pool.queue ++ [c.id]
        ∧ u.pool.ctxs = [{ c with state := .closed, closing := false, placing := false, skip := c.skip || c.skipSeen || c.lost }]
        ∧ u.emi = { s.emi with tq := [] } ∧ u.ret = s.ret ∧ u.seq = s.seq

/-! ### Return timing -/

/-- Crossings of a timing path that stamps its channel: a rising one outside dead time is stamped, one inside is counted in RET_PILEUP; at the
fall a gated event with the pulse's stamp and length, and 255 for it where the pulse saturated, joins its group's queue, or is discarded with a
loss record at a full one; an ungated one, and one stamped out of the DLL's lock, does not join; TOT_TIMEOUT forms the word with TOT 255; a
saturated input marks its pulse and opens the group's NSAT window, which NSAT_WINDOW_END closes (R100 to R102, R105 to R107, R117, R118, R167,
R168).
Points that the spec leaves open follow the model's choices (log 36, 107). -/
def Obligations.ReturnWords : Prop :=
  (∀ (s : State) (ch : Fin 512) (via : Via) (t : Nat) (f : Fin 64) (hit ok : Bool), s.inReset = false → s.stamps ch via = true →
    s.slope ch ≠ 2 → (s.path (viaNum ch via)).dead (64 * t + f) = false → (∀ w, s.errors w = 0#32) →
    Completes (.returnCrossing ch via true t f hit ok) s fun u =>
      u.path (viaNum ch via) = ⟨some ⟨t, f, ok, false, false, (s.group (ch / 32)).nsat, s.stampNow ch via f⟩, 64 * t + f + 1⟩
        ∧ (∀ j, j ≠ viaNum ch via → u.path j = s.path j) ∧ (ok = true → u.regs = s.regs)
        ∧ (ok = false → CountsOne (F.FLT_CNT_COUNT 9) s u) ∧ u.ret.groups = s.ret.groups
        ∧ { u with regs := s.regs, ret := s.ret, dt := s.dt } = s)
    ∧ (∀ (s : State) (ch : Fin 512) (via : Via) (t : Nat) (f : Fin 64) (hit ok : Bool), s.inReset = false → s.stamps ch via = true →
      s.slope ch ≠ 2 → (s.path (viaNum ch via)).dead (64 * t + f) = true → s.carries ch via = true →
      Completes (.returnCrossing ch via true t f hit ok) s fun u =>
        CountsOne (F.RET_PILEUP_COUNT ch) s u ∧ (u.path (viaNum ch via)).last = (s.path (viaNum ch via)).last
          ∧ u.ret.groups = s.ret.groups ∧ u.emi = s.emi ∧ u.seq = s.seq)
    ∧ (∀ (s : State) (ch : Fin 512) (via : Via) (t : Nat) (f : Fin 64) (hit ok : Bool) (p : Pulse), s.inReset = false →
      s.stamps ch via = true → s.slope ch = 1 → (s.path (viaNum ch via)).pulse = some p → p.due = true →
      s.carries ch via = true → p.stamp.fine = true → s.gatesAt ch p.c ≠ [] →
      Completes (.returnCrossing ch via false t f hit ok) s fun u =>
        (((s.group (ch / 32)).queue.filter s.queued).length < 8192 →
          ∃ e : Ev, (u.group (ch / 32)).queue = (s.group (ch / 32)).queue ++ [.ev e] ∧ e.c = p.c ∧ e.f = p.f
            ∧ e.tot = (if p.satb then 255 else min (t - p.c) 255) ∧ e.satb = p.satb ∧ e.nsat = (p.nsat && !p.satb)
            ∧ e.chan = ch ∧ e.edge = false ∧ e.hit = hit ∧ e.path = viaNum ch via ∧ e.stamp = p.stamp
            ∧ e.gates = (s.gatesAt ch p.c).map (fun g => g.id))
        ∧ (8192 ≤ ((s.group (ch / 32)).queue.filter s.queued).length →
          (u.group (ch / 32)).queue = lossAdd ch (64 * p.c + p.f) (s.group (ch / 32)).queue
            ∧ CountsOne (F.CTX_EVDROP_COUNT (ch / 32)) s u)
        ∧ CountsOne (F.RET_EVENTS_COUNT ch) s u
        ∧ u.path (viaNum ch via) = ⟨none, (s.path (viaNum ch via)).last⟩ ∧ u.emi = s.emi ∧ u.pool = s.pool ∧ u.mem = s.mem)
    ∧ (∀ (s : State) (ch : Fin 512) (via : Via) (t : Nat) (f : Fin 64) (hit ok : Bool) (p : Pulse), s.inReset = false →
      s.stamps ch via = true → s.slope ch = 1 → (s.path (viaNum ch via)).pulse = some p → p.due = true → s.carries ch via = true →
      (s.gatesAt ch p.c = [] ∨ p.stamp.fine = false) →
      Completes (.returnCrossing ch via false t f hit ok) s fun u =>
        CountsOne (F.RET_EVENTS_COUNT ch) s u ∧ u.ret.groups = s.ret.groups ∧ u.pool = s.pool ∧ u.mem = s.mem)
    ∧ (∀ (s : State) (ch : Fin 512) (hit : Bool) (p : Pulse), s.inReset = false →
      (∀ via ∈ viasOf, via ≠ .own → (s.path (viaNum ch via)).pulse = none) → (s.path ch).pulse = some p → p.due = true →
      s.stamps ch .own = true → s.carries ch .own = true → p.stamp.fine = true → s.gatesAt ch p.c ≠ [] →
      ((s.group (ch / 32)).queue.filter s.queued).length < 8192 →
      Completes (.totTimeout ch hit) s fun u =>
        ∃ e : Ev, (u.group (ch / 32)).queue = (s.group (ch / 32)).queue ++ [.ev e] ∧ e.c = p.c ∧ e.f = p.f ∧ e.tot = 255 ∧ e.chan = ch
          ∧ CountsOne (F.RET_EVENTS_COUNT ch) s u ∧ u.pool = s.pool ∧ u.mem = s.mem)
    ∧ (∀ (s : State) (ch : Fin 512), s.inReset = false → s.is F.SYS_STAT_TBLOCK = true → s.is (F.RET_CFG_EN ch) = true →
      s.is (F.RET_STAT_OOS ch) = false →
      Completes (.saturationDetect ch) s fun u =>
        (u.group (ch / 32)).nsat = true ∧ (∀ i, i < 32 → u.is (F.RET_STAT_SATNOW (32 * (ch / 32) + i)) = true)
          ∧ (s.stamps ch .own = true → ∀ p, (s.path ch).pulse = some p → (u.path ch).pulse = some { p with satb := true })
          ∧ { u with regs := s.regs, ret := s.ret } = s)
    ∧ ∀ (s : State) (g : Fin 16), s.inReset = false →
      Completes (.nsatWindowEnd g) s fun u =>
        (u.group g).nsat = false ∧ (u.group g).queue = (s.group g).queue ∧ (∀ i, i < 32 → u.is (F.RET_STAT_SATNOW (32 * g + i)) = false)
          ∧ { u with regs := s.regs, ret := s.ret } = s

/-- A write of RET_THR that breaks HCODE > LCODE is ignored; under TAUTO only HCODE can change; a change waits while a gate of the channel is
open, and its shot boundary brings it into force with slope and coincidence (R96 to R99, R166).
Points that the spec leaves open follow the model's choices (log 35). -/
def Obligations.Thresholds : Prop :=
  (∀ (s : State) (src : Src) (ch : Fin 512) (v : Word), s.inReset = false → s.hears src = true → s.is (F.RET_CFG_TAUTO ch) = false →
    (F.RET_THR_LCODE ch).of v < (F.RET_THR_HCODE ch).of v →
    Completes (.retThrWrite src ch v) s fun u =>
      u.get (F.RET_THR_HCODE ch) = (F.RET_THR_HCODE ch).of v ∧ u.get (F.RET_THR_LCODE ch) = (F.RET_THR_LCODE ch).of v
        ∧ (s.noGate ch = true → FMap.nat s.ret.inForce (4 * ch + 1) = 0 → u.lcodeNow ch = (F.RET_THR_LCODE ch).of v)
        ∧ (s.noGate ch = false → u.lcodeNow ch = s.lcodeNow ch)
        ∧ KeepsRegs (fun a => a == (F.RET_THR_HCODE ch).off) s u ∧ { u with regs := s.regs, ret := s.ret } = s)
    ∧ (∀ (s : State) (src : Src) (ch : Fin 512) (v : Word), s.inReset = false → s.hears src = true → s.is (F.RET_CFG_TAUTO ch) = false →
      (F.RET_THR_HCODE ch).of v ≤ (F.RET_THR_LCODE ch).of v → Completes (.retThrWrite src ch v) s fun u => Ignored s u)
    ∧ (∀ (s : State) (src : Src) (ch : Fin 512) (v : Word), s.inReset = false → s.hears src = true → s.is (F.RET_CFG_TAUTO ch) = true →
      Completes (.retThrWrite src ch v) s fun u =>
        u.get (F.RET_THR_LCODE ch) = s.get (F.RET_THR_LCODE ch) ∧ CountsOne F.SYS_IGNORED_COUNT s u
          ∧ u.get (F.RET_THR_HCODE ch)
              = (if s.lcodeNow ch < (F.RET_THR_HCODE ch).of v then (F.RET_THR_HCODE ch).of v else s.get (F.RET_THR_HCODE ch)))
    ∧ (∀ (s : State) (ch : Fin 512), s.inReset = false → s.noGate ch = true → s.cal.pending = [] →
      Completes (.shotBoundaryApply ch) s fun u =>
        u.lcodeNow ch = s.get (F.RET_THR_LCODE ch) ∧ u.slope ch = s.get (F.RET_CFG_SLOPE ch)
          ∧ u.coinWord ch = (s.reg (0x34040 + 4 * (ch / 32))).toNat ∧ { u with ret := s.ret } = s)
    ∧ ∀ (s : State) (ch : Fin 512), s.inReset = false → s.noGate ch = false → Completes (.shotBoundaryApply ch) s fun u => u = s

/-- A start crossing is stamped outside dead time while the DLL is locked; its pairing gives it to the fire whose predicted start is
nearest, of equally near ones the earlier, paired or not: one that has its start takes no second, and the crossing is an orphan, as without
a fire; a window that closes without a crossing gives the predicted start and a miss, or where a crossing in its window went to another fire
a count of its own; 16 misses in a row of an input with a valid emission delay declare its start channel faulted, and STCS, where free, is
to take over at the next fire (R105, R107 to R114). Points that the spec leaves open follow the model's choices (log 34). -/
def Obligations.StartPairing : Prop :=
  (∀ (s : State) (st : Fin 4) (t : Nat) (f : Fin 64) (ok : Bool), s.inReset = false → s.is F.SYS_STAT_TBLOCK = true →
    s.startTimed st = true → s.is (F.RGP_STSTAT_SPARED st) = false → (∀ w, s.errors w = 0#32) →
    (FMap.nat s.ret.startLast st = 0 ∨ FMap.nat s.ret.startLast st - 1 + 256 ≤ 64 * t + f) →
    Completes (.startCrossing st t f ok) s fun u =>
      (s.ret.startDll = true → u.ret.starts = s.ret.starts
          ++ [⟨st, t, (1024 * t + s.tapPos (528 + st) f : Nat), (t % 2 ^ 26) * 64 + f, s.pathStale (528 + st)⟩])
        ∧ (s.ret.startDll = false → u.ret.starts = s.ret.starts) ∧ FMap.nat u.ret.startLast st = 64 * t + f + 1
        ∧ u.ret.shots = s.ret.shots ∧ { u with ret := s.ret, dt := s.dt } = s)
    ∧ (∀ (s : State) (st : Fin 4) (t : Nat) (a : StartX) (h : Shot), s.inReset = false → s.ret.starts = [a] → a.st = st →
      a.c + s.get (F.RGP_STCFG_PWIN st) ≤ t → nearest a.x (s.ret.shots.filter fun g => g.covers st a.x) = some h → h.start = none →
      Completes (.startPairing st t) s fun u =>
        u.ret.shots = s.ret.shots.map (fun g => if g.slot = h.slot then { g with start := some ⟨a.x, false, a.stale, a.pmk⟩ }
            else if g.covers st a.x then { g with other := true } else g) ∧ u.ret.starts = [] ∧ u.get (F.RGP_STSTAT_MISSRUN st) = 0
          ∧ u.get (F.RGP_STSTAT_DARK st) = 0 ∧ u.emi = s.emi ∧ u.pool = s.pool ∧ u.seq = s.seq)
    ∧ (∀ (s : State) (st : Fin 4) (t : Nat) (a : StartX) (h : Shot), s.inReset = false → s.ret.starts = [a] → a.st = st →
      a.c + s.get (F.RGP_STCFG_PWIN st) ≤ t → nearest a.x (s.ret.shots.filter fun g => g.covers st a.x) = some h → h.start ≠ none →
      Completes (.startPairing st t) s fun u =>
        u.ret = { s.ret with
            starts := []
            shots := s.ret.shots.map fun g => if g.covers st a.x && g.slot ≠ h.slot then { g with other := true } else g }
          ∧ CountsOne (F.RGP_STORPH_COUNT st) s u ∧ { u with regs := s.regs, ret := s.ret, dt := s.dt } = s)
    ∧ (∀ (x : Int) (l : List Shot) (h : Shot), nearest x l = some h → h ∈ l ∧ ∀ g ∈ l, (16 * x - h.p).natAbs ≤ (16 * x - g.p).natAbs
        ∧ ((16 * x - h.p).natAbs = (16 * x - g.p).natAbs → h.tFire ≤ g.tFire))
    ∧ (∀ (s : State) (st : Fin 4) (t : Nat) (a : StartX), s.inReset = false → s.ret.starts = [a] → a.st = st →
      a.c + s.get (F.RGP_STCFG_PWIN st) ≤ t → (∀ h ∈ s.ret.shots, h.covers st a.x = false) →
      Completes (.startPairing st t) s fun u =>
        CountsOne (F.RGP_STORPH_COUNT st) s u ∧ u.ret = { s.ret with starts := [] } ∧ { u with regs := s.regs, ret := s.ret, dt := s.dt } = s)
    ∧ (∀ (s : State) (h : Shot), s.inReset = false → s.ret.shots = [h] → h.fired = true → h.start = none → s.ret.starts = [] →
      s.is (F.RGP_STCFG_EN h.st) = true → h.eValid = false →
      Completes (.pairingWindowClose h.slot) s fun u =>
        u.ret.shots = [{ h with start := some (predicted h.p) }]
          ∧ (h.other = false → CountsOne (F.RGP_STMISS_COUNT h.st) s u ∧ u.get (F.RGP_STAMB_COUNT h.st) = s.get (F.RGP_STAMB_COUNT h.st))
          ∧ (h.other = true → CountsOne (F.RGP_STAMB_COUNT h.st) s u ∧ u.get (F.RGP_STMISS_COUNT h.st) = s.get (F.RGP_STMISS_COUNT h.st))
          ∧ { u with regs := s.regs, ret := s.ret } = s)
    ∧ ∀ (s : State) (h : Shot), s.inReset = false → s.ret.shots = [h] → h.fired = true → h.start = none → s.ret.starts = [] →
      h.st < 4 → s.startTimed h.st = true → h.eValid = true → h.other = false → s.is (F.RGP_STSTAT_DARK h.st) = false →
      s.is (F.RGP_STSTAT_SPARED h.st) = false → s.is (F.RGP_STSTAT_FAULT h.st) = false → s.get (F.RGP_STSTAT_MISSRUN h.st) = 15 →
      Completes (.pairingWindowClose h.slot) s fun u =>
        u.is (F.RGP_STSTAT_FAULT h.st) = true ∧ Detects Cause.start h.st s u ∧ u.ret.shots = [{ h with start := some (predicted h.p) }]
          ∧ (s.is F.RGP_STCS_FAIL = false → s.is F.RGP_STCS_ACTIVE = false → u.is F.RGP_STCS_ACTIVE = true
            ∧ u.get F.RGP_STCS_TARGET = h.st ∧ u.ret.stcsNext = some h.st ∧ u.is (F.RGP_STSTAT_SPARED h.st) = false)

/-- A DLL that unlocks is a fault and a root, one that locks ends it; a path with four failed self-checks is declared faulted once, its
channel is handed to a free spare and switched over at a shot boundary or by force; a retirement does the same on request; a trim's spare is
handed back at a boundary (R105, R121, R123, R127, R533, R540). Points that the spec leaves open follow the model's choices (log 37, 89). -/
def Obligations.PathFaults : Prop :=
  (∀ (s : State) (g : Fin 17), s.inReset = false → s.dllLocked g = true →
    (∀ c ∈ s.pool.ctxs, c.live = true → ∀ ch ∈ c.chans, ch / 32 ≠ g.val) →
    Completes (.dllUnlock g) s fun u =>
      u.dllLocked g = false ∧ u.is F.SYS_STAT_DLLOK = false ∧ Detects Cause.dll g s u ∧ u.pool = s.pool ∧ u.emi = s.emi ∧ u.mem = s.mem)
    ∧ (∀ (s : State) (g : Fin 17), s.inReset = false → s.dllLocked g = false → s.is F.SYS_STAT_TBLOCK = true →
      Completes (.dllLock g) s fun u =>
        u.dllLocked g = true ∧ (∀ r ∈ u.flt.roots, ¬(r.cause = Cause.dll ∧ r.inst = g.val)) ∧ u.emi = s.emi ∧ u.pool = s.pool
          ∧ u.mem = s.mem)
    ∧ (∀ (s : State) (ch : Fin 512), s.inReset = false → s.failing ch = true → s.is (F.RET_STAT_OOS ch) = false →
      s.is (F.RGP_SPC_FAIL (ch / 32)) = false → s.get (F.RGP_SPC_OWNER (ch / 32)) = 0 → s.noGate ch = true →
      Completes (.pathFaultDeclare (.ret ch)) s fun u =>
        u.get (F.RGP_SPC_OWNER (ch / 32)) = 2 ∧ u.get (F.RGP_SPC_TARGET (ch / 32)) = ch % 32 ∧ u.spare (ch / 32) = ⟨s.dt, false, false⟩
          ∧ u.ret.spans = s.ret.spans ++ [ch.val] ∧ Detects Cause.channel ch s u ∧ u.failing ch = false ∧ u.pool = s.pool ∧ u.emi = s.emi)
    ∧ (∀ (s : State) (k : Fin 16), s.inReset = false → s.failing (512 + k) = true → s.is (F.RGP_SPC_FAIL k) = false →
      s.get (F.RGP_SPC_OWNER k) = 0 →
      Completes (.pathFaultDeclare (.spare k)) s fun u =>
        u.is (F.RGP_SPC_FAIL k) = true ∧ Detects Cause.spare k s u ∧ u.pool = s.pool ∧ u.emi = s.emi)
    ∧ (∀ (s : State) (p : Path), s.inReset = false → s.failing (pathNum p) = false → Completes (.pathFaultDeclare p) s fun u => u = s)
    ∧ (∀ (s : State) (k : Fin 16) (t ch : Nat), s.inReset = false → ch = 32 * k + s.get (F.RGP_SPC_TARGET k) →
      s.get (F.RGP_SPC_OWNER k) ≠ 0 → (s.spare k).serving = false → (s.spare k).handback = false → (s.spare k).t0 + 256 ≤ t →
      s.noGate ch = true →
      Completes (.spareSwitchover k t) s fun u =>
        (u.spare k).serving = true ∧ u.is (F.RET_STAT_SPARED ch) = true ∧ (∀ c ∈ u.ret.spans, c ≠ ch) ∧ u.pool = s.pool ∧ u.emi = s.emi)
    ∧ (∀ (s : State) (k : Fin 16) (t ch : Nat), s.inReset = false → ch = 32 * k + s.get (F.RGP_SPC_TARGET k) →
      s.get (F.RGP_SPC_OWNER k) = 2 → (s.spare k).serving = false → (s.spare k).t0 + 25600 ≤ t →
      Completes (.spareForcedHandover k t) s fun u =>
        (u.spare k).serving = true ∧ u.is (F.RET_STAT_SPARED ch) = true ∧ (∀ c ∈ u.ret.spans, c ≠ ch))
    ∧ (∀ (s : State) (src : Src) (k : Fin 16) (v : Word) (r : Nat), s.inReset = false → s.hears src = true → r = (F.RGP_SPC_RCHAN k).of v →
      s.replaced (32 * k + r) = true → Completes (.spareRetire src k v) s fun u => Ignored s u)
    ∧ (∀ (s : State) (src : Src) (k : Fin 16) (v : Word) (r : Nat), s.inReset = false → s.hears src = true → r = (F.RGP_SPC_RCHAN k).of v →
      s.replaced (32 * k + r) = false → s.is (F.RGP_SPC_FAIL k) = false → s.get (F.RGP_SPC_OWNER k) = 0 →
      s.noGate (32 * k + r) = true →
      Completes (.spareRetire src k v) s fun u =>
        u.get (F.RGP_SPC_OWNER k) = 2 ∧ u.get (F.RGP_SPC_TARGET k) = r ∧ Detects Cause.channel (32 * k + r) s u ∧ u.pool = s.pool)
    ∧ ∀ (s : State) (k : Fin 16) (ch : Nat), s.inReset = false → ch = 32 * k + s.get (F.RGP_SPC_TARGET k) →
      s.get (F.RGP_SPC_OWNER k) = 1 → (s.spare k).handback = true → s.noGate ch = true →
      Completes (.calibrationHandback k) s fun u =>
        u.get (F.RGP_SPC_OWNER k) = 0 ∧ u.is (F.RET_STAT_SPARED ch) = false ∧ u.spare k = ⟨0, false, false⟩
          ∧ ((∃ c ∈ s.cal.trimming, c.ch = ch ∧ c.adopted = true) → CountsOne (F.CAL_CNT_COUNT 4) s u)
          ∧ (∀ c ∈ u.cal.trimming, c.ch ≠ ch) ∧ u.pool = s.pool ∧ u.emi = s.emi

/-! ### Contexts and histograms -/

/-- A gate command opens a gate on each channel that the map names; a gate at its end is closed and no other is; the filter passes or drops an
event once every event that can agree with it was delivered, by the setting in force for its shot, and not before; an event of a fired shot adds
one to its coarse bin of the context, and to its bin of a placed window that its shot reaches, up to their largest counts, and one out of the
range or before the start is counted as such; one without a shot is counted; a loss record, once the gates that it overlaps have their slots,
leaves its queue and marks the contexts it overlaps (R115, R142 to R145, R150, R162 to R166, R168, R169, R392, R611).
Points that the spec leaves open follow the model's choices (log 35, 38, 42). -/
def Obligations.GatesAndBins : Prop :=
  (∀ (s : State) (n row len tc sub fr co ch e : Nat), s.inReset = false → s.is F.SYS_STAT_TBLOCK = true → n < 64 →
      e = s.emitterOf row n →
    s.emi.tq = [⟨.gate (2 ^ n) row len, tc, sub, fr, co, false⟩] →
    (∀ w ∈ wordsOf (mapBase s.mapNow e) 128, s.errors w = 0#32) → s.channelsOf s.mapNow e = [ch] → s.cal.pending = [] →
    (∀ h ∈ s.ret.shots, h.emitter = e → h.t < 16 * tc) →
    ∃ u, exec .gateOpen s = .next u
      ∧ u.ret.gates = s.ret.gates ++ [⟨s.ret.gateSeq, ch, e, tc, tc + len, none, false, s.ret.spans.contains ch, 0⟩]
      ∧ u.ret.gateSeq = s.ret.gateSeq + 1 ∧ u.emi = { s.emi with tq := [] } ∧ u.ret.shots = s.ret.shots
      ∧ { u with regs := s.regs, emi := s.emi, ret := s.ret, dt := s.dt } = s)
    ∧ (∀ (s : State) (n row len tc sub fr co ch e : Nat) (h : Shot), s.inReset = false → s.is F.SYS_STAT_TBLOCK = true → n < 64 →
      e = s.emitterOf row n →
      s.emi.tq = [⟨.gate (2 ^ n) row len, tc, sub, fr, co, false⟩] →
      (∀ w ∈ wordsOf (mapBase s.mapNow e) 128, s.errors w = 0#32) → s.channelsOf s.mapNow e = [ch] →
      s.ret.spans.contains ch = false → s.ret.shots = [h] → h.emitter = e → 16 * tc ≤ h.t → h.t < 16 * (tc + len) →
      ∃ u, exec .gateOpen s = .next u ∧ (u.ret.gates.getLast?).map (fun g => g.slot) = some (some h.slot))
    ∧ (∀ (s : State) (ch : Fin 512) (t : Nat), s.inReset = false → s.cal.pending = [] →
      ∃ u, exec (.gateClose ch t) s = .next u
        ∧ (∀ g ∈ u.ret.gates, g.ch = ch → g.closes ≤ t → g.closed = true)
        ∧ (∀ g ∈ s.ret.gates, g.closed = false → (g.ch ≠ ch ∨ t < g.closes) → g ∈ u.ret.gates)
        ∧ u.ret.shots = s.ret.shots ∧ u.ret.groups = s.ret.groups ∧ { u with ret := s.ret, dt := s.dt } = s)
    ∧ (∀ (s : State) (g : Fin 16) (e : Ev), s.inReset = false → (s.group g).queue = [.ev e] → e.passed = false →
      (s.decidable e = false → exec (.coincidenceDecision g) s = .next s)
      ∧ (s.decidable e = true → ∃ u, exec (.coincidenceDecision g) s = .next u
        ∧ (agrees e.stamp.coin (s.group g).recent e = true →
          (u.group g).queue = [.ev { e with passed := true }] ∧ u.regs = s.regs)
        ∧ (agrees e.stamp.coin (s.group g).recent e = false →
          (u.group g).queue = [] ∧ CountsOne (F.CTX_COINDROP_COUNT g) s u)
        ∧ u.pool = s.pool ∧ u.mem = s.mem ∧ u.emi = s.emi))
    ∧ (∀ (s : State) (g : Fin 16) (e : Ev) (h : Shot) (st : Start) (c : Ctx) (b : Int), s.inReset = false →
      s.takesEvent g e h st c → -16 < delta e st →
      b = (max (delta e st) 0 - (1024 * c.origin : Nat)).fdiv (16 * 2 ^ (8 + c.binw) : Nat) → c.nbin ≤ 2048 →
      ∃ u, exec (.eventAccumulate g) s = .next u
        ∧ (u.group g).queue = [] ∧ u.emi = s.emi ∧ u.seq = s.seq
        ∧ (0 ≤ b → b < c.nbin → s.coarse c.slot b.toNat < 4095 →
          u.coarse c.slot b.toNat = s.coarse c.slot b.toNat + 1
            ∧ (∀ k, k < 2048 → k ≠ b.toNat → u.coarse c.slot k = s.coarse c.slot k)
            ∧ (u.ctx? c.id).map (fun x => x.evtot) = some (c.evtot + 1))
        ∧ (0 ≤ b → b < c.nbin → 4095 ≤ s.coarse c.slot b.toNat →
          (∀ k, k < 2048 → u.coarse c.slot k = s.coarse c.slot k)
            ∧ (u.ctx? c.id).map (fun x => (x.evtot, x.binsat)) = some (c.evtot + 1, true))
        ∧ (∀ w j, 0 ≤ b → b < c.nbin → c.reached h = true → c.windowsAt (max (delta e st) 0) = [(w, j)] → w < 4 →
          s.fine c.slot w j < 1023 → u.fine c.slot w j = s.fine c.slot w j + 1)
        ∧ (c.nplaced ≤ 4 → ∀ a, (a < slotBase c.slot ∨ slotBase c.slot + 0xEC0 ≤ a) → u.byte a = s.byte a)
        ∧ (b < 0 ∨ (c.nbin : Int) ≤ b →
          (∀ a, (a < slotBase c.slot ∨ slotBase c.slot + 64 ≤ a) → u.byte a = s.byte a) ∧ CountsOne (F.CTX_CNT_COUNT 1) s u
            ∧ (u.ctx? c.id).map (fun x => (x.evtot, x.evout)) = some (c.evtot, min (c.evout + 1) 65535)))
    ∧ (∀ (s : State) (g : Fin 16) (e : Ev) (h : Shot) (st : Start) (c : Ctx), s.inReset = false →
      s.takesEvent g e h st c → delta e st ≤ -16 →
      ∃ u, exec (.eventAccumulate g) s = .next u
        ∧ CountsOne (F.RET_PREC_COUNT e.chan) s u ∧ (u.group g).queue = [] ∧ u.emi = s.emi ∧ u.seq = s.seq
        ∧ (∀ a, (a < slotBase c.slot ∨ slotBase c.slot + 64 ≤ a) → u.byte a = s.byte a)
        ∧ (u.ctx? c.id).map (fun x => (x.evtot, x.prec)) = some (c.evtot, min (c.prec + 1) 65535))
    ∧ (∀ (s : State) (g : Fin 16) (e : Ev), s.inReset = false → (s.group g).queue = [.ev e] → e.bad = false → s.ready e = true →
      s.shotsOf e = [] →
      ∃ u, exec (.eventAccumulate g) s = .next u
        ∧ CountsOne (F.CTX_CNT_COUNT 11) s u ∧ (u.group g).queue = [] ∧ u.pool = s.pool ∧ u.mem = s.mem ∧ u.emi = s.emi)
    ∧ ∀ (s : State) (g : Fin 16) (ch f l : Nat) (q : List QItem), s.inReset = false → (s.group g).queue = .loss ch f l :: q →
      (s.lossGates ch f l).all s.settled = true →
      ∃ u, exec (.lossRecordReached g) s = .next u
        ∧ (u.group g).queue = q ∧ (∀ id ∈ s.lossMarks ch f l, ∀ c, u.ctx? id = some c → c.lost = true) ∧ u.emi = s.emi ∧ u.seq = s.seq

/-- A shot that is complete for a context counts for it: a fired one in FIRED; at K fired shots placement starts with the windows of that moment,
and its completion gives the context these; at NSHOT slots the context closes, and before it does not. A shot complete on every channel and for
every context, whose window no crossing and whose gates no loss record can reach any more, leaves the shots in flight, with its gates; one not
complete for its context stays. A replay that is not complete in time is given
up and its context closes with SKIP and REPLAYED (R134, R135, R138, R149, R151, R554).
Points that the spec leaves open follow the model's choices (log 19, 39, 43). -/
def Obligations.ShotsAndPlacement : Prop :=
  (∀ (s : State) (h : Shot) (c : Ctx), s.inReset = false → s.ret.shots = [h] → s.shotReady h c.chans = true →
    s.shotReady h (List.range 512) = true → h.fired = true → h.members = [c.id] → s.pool.ctxs = [c] → c.live = true → c.closing = false →
    h.hi < 16384 * (s.dt : Int) → s.ret.starts = [] → (∀ g ∈ s.ret.gates, g.slot = some h.slot → s.lossAhead g = false) →
    c.early = false → c.nwin = 0 → c.slots + 1 < c.nshot →
    ∃ u, exec (.shotComplete h.slot) s = .next u
      ∧ u.ret.shots = [] ∧ (∀ g ∈ u.ret.gates, g.slot ≠ some h.slot)
      ∧ u.pool.ctxs.map (fun x => (x.id, x.slots, x.fired, x.state)) = [(c.id, c.slots + 1, c.fired + 1, c.state)]
      ∧ u.pool.queue = s.pool.queue ∧ u.emi = s.emi ∧ u.seq = s.seq)
    ∧ (∀ (s : State) (h : Shot) (c : Ctx), s.inReset = false → s.ret.shots = [h] → s.shotReady h c.chans = true → h.fired = true →
      h.members = [c.id] → s.pool.ctxs = [c] → c.state = .open → c.closing = false → c.early = false → c.k = c.fired + 1 →
      1 ≤ c.nwin → c.prov = false → c.slots + 1 < c.nshot → s.synd = [] →
      ∃ u, exec (.shotComplete h.slot) s = .next u
        ∧ u.pool.ctxs.map (fun x => (x.id, x.slots, x.fired, x.state, x.placing, x.planned))
            = [(c.id, c.slots + 1, c.fired + 1, .zoom, true, s.windows c)]
        ∧ u.pool.queue = s.pool.queue ∧ u.emi = s.emi ∧ u.seq = s.seq)
    ∧ (∀ (s : State) (h : Shot) (c : Ctx), s.inReset = false → s.ret.shots = [h] → s.shotReady h c.chans = true →
      s.shotReady h (List.range 512) = true → h.fired = false →
      h.members = [c.id] → s.pool.ctxs = [c] → c.live = true → c.nshot ≤ c.slots + 1 → s.lossPending c = false →
      (∀ g ∈ s.ret.gates, g.slot = some h.slot → s.lossAhead g = false) →
      ∃ u, exec (.shotComplete h.slot) s = .next u
        ∧ u.ret.shots = [] ∧ u.pool.ctxs.map (fun x => (x.id, x.slots, x.fired, x.state)) = [(c.id, c.slots + 1, c.fired, .closed)]
        ∧ u.pool.queue = s.pool.queue ++ [c.id] ∧ u.emi = s.emi ∧ u.seq = s.seq)
    ∧ (∀ (s : State) (h : Shot) (c : Ctx), s.inReset = false → s.ret.shots = [h] → h.members = [c.id] → s.pool.ctxs = [c] →
      s.shotReady h c.chans = false →
      ∃ u, exec (.shotComplete h.slot) s = .next u ∧ u.ret = s.ret ∧ u.pool = s.pool ∧ u.emi = s.emi ∧ u.seq = s.seq ∧ u.mem = s.mem)
    ∧ (∀ (s : State) (c : Ctx) (t : Nat), s.inReset = false → s.pool.ctxs = [c] → c.placing = true → s.synd = [] →
      ∃ u, exec (.zoomPlacementComplete c.slot t) s = .next u
        ∧ u.pool.ctxs = [{ c with placing := false, placedAt := some t, wstart := c.planned, nplaced := c.planned.length, planned := [] }]
        ∧ u.pool.queue = s.pool.queue ∧ u.emi = s.emi ∧ u.ret = s.ret ∧ u.seq = s.seq)
    ∧ ∀ (s : State) (c : Ctx) (t : Nat), s.inReset = false → s.pool.ctxs = [c] → c.state = .reacq →
      (∃ r ∈ c.replay, r.found = none) → c.reacqAt + 1600000 * s.get F.FLT_RWAIT_RMAX ≤ t → s.ret.shots = [] →
      s.lossPending c = false →
      ∃ u, exec (.replayTimeout c.slot t) s = .next u
        ∧ u.pool.ctxs.map (fun x => (x.id, x.state, x.skip, x.replayed)) = [(c.id, .closed, true, true)]
        ∧ u.pool.queue = s.pool.queue ++ [c.id] ∧ CountsOne (F.FLT_CNT_COUNT 6) s u ∧ u.emi = s.emi ∧ u.ret = s.ret ∧ u.seq = s.seq

/-! ### Calibration -/

/-- A candidate of 640,000 events is adopted into the record, or rejected where a tap is too wide; a sweep dwells on each code in turn,
succeeds past the code where its counts fall to a 256th of the peak, with MU, NU0 and LCODE of what it counted, and fails at HCODE; a rate
window latches its count and the temperature, and its servo steps LCODE; a channel without a table becomes uncalibrated; a range zero enters
its record; LOAD acts once, and its epoch follows that of the accepted records (R239 to R241, R244, R245, R250, R257, R260). Points that the
spec leaves open follow the model's choices (log 51, 52, 54, 56). -/
def Obligations.CalibrationTables : Prop :=
  (∀ (s : State) (ch : Fin 512), s.inReset = false → 640000 ≤ FMap.nat s.cal.total ch → s.synd = [] → s.cal.pending = [] →
    s.noGate ch = true → (candidate fun f => FMap.nat s.cal.taps (64 * ch + f)).2 ≤ 64 →
    Completes (.fineTableCandidate (.ret ch)) s fun u =>
      (∀ f, f < 64 → u.num (recBase ch + 32 + 2 * f) 2 = (candidate fun f => FMap.nat s.cal.taps (64 * ch + f)).1.getD f 0)
        ∧ u.hasFine ch = true ∧ u.get (F.RET_STAT_CALST ch) = 1 ∧ CountsOne (F.CAL_CNT_COUNT 2) s u ∧ FMap.nat u.cal.total ch = 0
        ∧ u.emi = s.emi ∧ u.pool = s.pool ∧ u.seq = s.seq)
    ∧ (∀ (s : State) (p : Path), s.inReset = false → 640000 ≤ FMap.nat s.cal.total (pathNum p) →
      64 < (candidate fun f => FMap.nat s.cal.taps (64 * pathNum p + f)).2 →
      Completes (.fineTableCandidate p) s fun u =>
        CountsOne (F.CAL_CNT_COUNT 3) s u ∧ FMap.nat u.cal.total (pathNum p) = 0 ∧ u.mem = s.mem ∧ u.ret = s.ret ∧ u.emi = s.emi)
    ∧ (∀ (s : State) (ch : Fin 512) (w v : Sweep), s.inReset = false → FMap.get (fun _ => none) s.cal.sweeps ch = some w →
      v = (if w.pk < w.r then { w with pk := w.r, mu := w.code } else w) → ¬(v.mu < w.code ∧ 256 * w.r < v.pk) →
      Completes (.sweepDwellEnd ch) s fun u =>
        (s.get (F.RET_THR_HCODE ch) ≤ w.code + s.get F.CAL_THR_SSTEP →
          FMap.get (fun _ => none) u.cal.sweeps ch = none ∧ CountsOne (F.CAL_CNT_COUNT 10) s u)
        ∧ (w.code + s.get F.CAL_THR_SSTEP < s.get (F.RET_THR_HCODE ch) →
          FMap.get (fun _ => none) u.cal.sweeps ch
              = some { v with counts := w.counts ++ [(w.code, w.r)], code := w.code + s.get F.CAL_THR_SSTEP, r := 0 }
            ∧ u.get (F.RET_THR_LCODE ch) = w.code + s.get F.CAL_THR_SSTEP)
        ∧ u.mem = s.mem ∧ u.emi = s.emi ∧ u.pool = s.pool)
    ∧ (∀ (s : State) (ch : Fin 512) (w v : Sweep) (a b : Nat × Nat), s.inReset = false →
      FMap.get (fun _ => none) s.cal.sweeps ch = some w → v = (if w.pk < w.r then { w with pk := w.r, mu := w.code } else w) →
      v.mu < w.code → 256 * w.r < v.pk → oneSigma v.mu v.pk (w.counts ++ [(w.code, w.r)]) = some (a, b) → s.synd = [] →
      Completes (.sweepDwellEnd ch) s fun u =>
        FMap.get (fun _ => none) u.cal.sweeps ch = none ∧ u.hasThr ch = true ∧ u.num (recBase ch + 432) 2 = 16 * v.mu % 65536
          ∧ u.num (recBase ch + 434) 2 = min (sweepSigma v.mu v.pk a.1 a.2 b.1 b.2) 65535
          ∧ u.num (recBase ch + 436) 3 = min (10 * v.pk) (2 ^ 24 - 1)
          ∧ u.get (F.RET_THR_LCODE ch)
              = s.boundLcode ch (v.mu + roundDiv (s.get F.CAL_THR_KSIG * sweepSigma v.mu v.pk a.1 a.2 b.1 b.2 : Nat) 256)
          ∧ u.emi = s.emi ∧ u.pool = s.pool)
    ∧ (∀ (s : State) (ch : Fin 512) (v : Int), s.boundLcode ch v = (min (max v (s.get F.CAL_THR_LMIN)) (s.get (F.RET_THR_HCODE ch) - 1)).toNat)
    ∧ (∀ (s : State) (ch : Fin 512), s.inReset = false → s.is (F.RET_CFG_TAUTO ch) = true →
      bit (s.get F.RGP_DLL_LOCK) (ch / 32) = true → s.hasThr ch = false → FMap.get (fun _ => none) s.cal.sweeps ch = none →
      Completes (.sweepRetry ch) s fun u =>
        FMap.get (fun _ => none) u.cal.sweeps ch = some ⟨0, 0, 0, 0, []⟩ ∧ u.get (F.RET_THR_LCODE ch) = 0
          ∧ u.get (F.RET_THR_HCODE ch) = s.get (F.RET_THR_HCODE ch) ∧ u.mem = s.mem ∧ u.emi = s.emi)
    ∧ (∀ (s : State) (ch : Fin 512) (temp : BitVec 16), s.inReset = false → s.is (F.RET_CFG_TAUTO ch) = false →
      s.is F.FLT_CFG_STUCK = false →
      Completes (.rateWindowEnd (.ret ch) temp) s fun u =>
        u.get (F.RET_RATE_COUNT ch) = min (FMap.nat s.cal.rate ch) (2 ^ 24 - 1) ∧ FMap.nat u.cal.rate ch = 0
          ∧ u.get F.CAL_TEMP_TEMP = temp.toNat ∧ u.is F.CAL_TEMP_VALID = true ∧ u.emi = s.emi ∧ u.pool = s.pool ∧ u.seq = s.seq)
    ∧ (∀ (s : State) (ch : Fin 512) (temp : BitVec 16), s.inReset = false → s.is (F.RET_CFG_TAUTO ch) = true → s.hasThr ch = true →
      s.is F.FLT_CFG_STUCK = false → s.synd = [] →
      Completes (.rateWindowEnd (.ret ch) temp) s fun u =>
        u.get (F.RET_RATE_COUNT ch) = min (FMap.nat s.cal.rate ch) (2 ^ 24 - 1) ∧ FMap.nat u.cal.cross ch = 0
          ∧ u.get (F.RET_THR_LCODE ch) = s.boundLcode ch (s.get (F.RET_THR_LCODE ch)
              + (servoStep (s.get (F.RET_THR_LCODE ch)) (s.num (recBase ch + 432) 2) (s.num (recBase ch + 436) 3)
                (FMap.nat s.cal.cross ch) (s.get F.CAL_THR_KSIG) (s.get F.CAL_THR_SLEW)).1))
    ∧ (∀ (s : State) (p : Path) (temp : BitVec 16), s.inReset = false → (∀ ch, p ≠ .ret ch) → s.synd = [] →
      Completes (.rateWindowEnd p temp) s fun u =>
        u.get F.CAL_TEMP_TEMP = temp.toNat ∧ u.is F.CAL_TEMP_VALID = true ∧ u.mem = s.mem ∧ u.ret = s.ret ∧ u.emi = s.emi)
    ∧ (∀ (s : State) (ch : Fin 512), s.inReset = false → s.get (F.RET_STAT_CALST ch) = 0 → s.hasFine ch = false →
      Completes (.uncalibratedTimeout ch) s fun u =>
        u.get (F.RET_STAT_CALST ch) = 2 ∧ CountsOne (F.CAL_CNT_COUNT 8) s u ∧ Raised 15 u
          ∧ { u with regs := s.regs, outs := s.outs, hifx := s.hifx } = s)
    ∧ (∀ (s : State) (src : Src) (v : Word) (ch : Nat), s.inReset = false → s.hears src = true → ch = F.CAL_ZWR_CHAN.of v → ch < 512 → s.synd = [] →
      s.cal.pending = [] → s.noGate ch = true →
      Completes (.zeroWrite src v) s fun u =>
        u.num (recBase ch + 416) 4 = s.get F.CAL_ZVAL_Z0 ∧ u.num (recBase ch + 428) 4 = s.get F.CAL_ZVAL_Z0
          ∧ u.num (recBase ch + 424) 2 = s.get F.CAL_TEMP_TEMP ∧ bit (u.recValid ch) 3 = true ∧ u.emi = s.emi ∧ u.pool = s.pool)
    ∧ (∀ (s : State) (src : Src), s.inReset = false → s.hears src = true → s.is F.CAL_STAT_LOADED = true →
      Completes (.calLoad src) s fun u => Ignored s u)
    ∧ (∀ (s : State) (src : Src), s.inReset = false → s.hears src = true → s.is F.CAL_STAT_LOADED = false → s.cal.touched = [] →
      Completes (.calLoad src) s fun u =>
        u.is F.CAL_STAT_LOADED = true ∧ u.get F.CAL_EPOCH_EPOCH = 1 ∧ Raised 15 u
          ∧ { u with regs := s.regs, outs := s.outs, hifx := s.hifx } = s)
    ∧ ∀ (s : State) (src : Src), s.inReset = false → s.hears src = true → s.is F.CAL_STAT_LOADED = false →
      Completes (.calLoad src) s fun u =>
        u.is F.CAL_STAT_LOADED = true ∧ Raised 15 u
          ∧ u.get F.CAL_EPOCH_EPOCH = ((((List.range 533).filter fun i => s.cal.touched.contains i && s.accepts i).foldl
              (fun m i => max m (s.stagedNum (recBase i) 4)) 0) + 1) % 2 ^ 32

/-- A recalibration starts where its path is free; a start input's switches it to STCS in a moment without an open window, or by force 16 µs
after its start, is handed back after adoption, and gives up with its old table stale; a request that cannot start is counted, and one of
both kinds ignored; a trim's passes, once the spare serves, move the taps and count themselves, and one that gives up restores them (R127,
R262, R263, R265 to R267). Points that the spec leaves open follow the model's choices (log 8, 55). -/
def Obligations.Recalibrations : Prop :=
  (∀ (s : State) (t : Nat), s.inReset = false → s.cal.queue.contains 532 = true → s.stcsFree = true →
    (∀ q ∈ s.cal.shadow, q.1 ≠ 532) →
    Completes (.recalStart .stcs t) s fun u =>
      (532, s.get F.CAL_STDON_DONOR) ∈ u.cal.shadow ∧ u.cal.queue = s.cal.queue.filter (fun i => decide (i ≠ 532))
        ∧ FMap.nat u.cal.total 532 = 0 ∧ u.mem = s.mem ∧ u.ret = s.ret ∧ u.emi = s.emi)
    ∧ (∀ (s : State) (k : Fin 16) (t d : Nat), s.inReset = false → s.cal.queue.contains (512 + k.val) = true → s.spareIdle k = true →
      s.spareDonor k = some d → (∀ q ∈ s.cal.shadow, q.1 ≠ 512 + k.val) →
      Completes (.recalStart (.spare k) t) s fun u =>
        (512 + k.val, d) ∈ u.cal.shadow ∧ 512 + k.val ∉ u.cal.queue ∧ u.mem = s.mem ∧ u.ret = s.ret ∧ u.emi = s.emi)
    ∧ (∀ (s : State) (ch : Fin 512) (t : Nat), s.inReset = false → s.cal.trims = [ch.val] → s.mayTrim ch = true →
      Completes (.recalStart (.ret ch) t) s fun u =>
        u.get (F.RGP_SPC_OWNER (ch / 32)) = 1 ∧ u.get (F.RGP_SPC_TARGET (ch / 32)) = ch % 32 ∧ u.cal.trims = []
          ∧ (u.cal.trimming.getLast?).map (fun c => (c.ch, c.passes, c.adopted)) = some (ch.val, 0, false) ∧ u.is F.CAL_STAT_TRIM = true
          ∧ u.mem = s.mem ∧ u.emi = s.emi)
    ∧ (∀ (s : State) (st : Fin 4) (t : Nat), s.inReset = false → s.cal.queue.contains (528 + st.val) = true →
      (∀ j, j < st.val → s.cal.queue.contains (528 + j) = false) → s.cal.queue.contains 532 = false → (∀ q ∈ s.cal.shadow, q.1 ≠ 532) →
      s.stcsReady = true → s.synd = [] →
      Completes (.recalStart (.start st) t) s fun u =>
        u.cal.stcal = some ⟨st, t, false, false, false⟩ ∧ u.is F.CAL_STAT_STCAL = true ∧ 528 + st.val ∉ u.cal.queue ∧ u.mem = s.mem
          ∧ u.ret = s.ret ∧ u.emi = s.emi)
    ∧ (∀ (s : State) (src : Src) (v : Word) (t : Nat), s.inReset = false → s.hears src = true →
      (F.CAL_REQ_TRIM.isOf v = true → Completes (.startRecalRequest src v t) s fun u => Ignored s u)
        ∧ (F.CAL_REQ_START.isOf v = true → Completes (.trimRecalRequest src v t) s fun u => Ignored s u))
    ∧ (∀ (s : State) (src : Src) (v : Word) (t : Nat), s.inReset = false → s.hears src = true → F.CAL_REQ_TRIM.isOf v = false →
      4 ≤ F.CAL_REQ_SIDX.of v →
      Completes (.startRecalRequest src v t) s fun u =>
        (F.CAL_REQ_SIDX.of v = 4 → s.stcsFree = true → (532, s.get F.CAL_STDON_DONOR) ∈ u.cal.shadow)
          ∧ ((F.CAL_REQ_SIDX.of v ≠ 4 ∨ s.stcsFree = false) → CountsOne (F.CAL_CNT_COUNT 7) s u ∧ u.cal = s.cal) ∧ u.mem = s.mem
          ∧ u.ret = s.ret ∧ u.emi = s.emi)
    ∧ (∀ (s : State) (src : Src) (v : Word) (t : Nat), s.inReset = false → s.hears src = true → F.CAL_REQ_TRIM.isOf v = false →
      F.CAL_REQ_SIDX.of v < 4 →
      s.synd = [] →
      Completes (.startRecalRequest src v t) s fun u =>
        (s.stcsReady = true → u.cal.stcal = some ⟨F.CAL_REQ_SIDX.of v, t, false, false, false⟩ ∧ u.is F.CAL_STAT_STCAL = true)
          ∧ (s.stcsReady = false → CountsOne (F.CAL_CNT_COUNT 7) s u ∧ u.cal = s.cal) ∧ u.mem = s.mem ∧ u.ret = s.ret ∧ u.emi = s.emi)
    ∧ (∀ (s : State) (src : Src) (v : Word) (t : Nat), s.inReset = false → s.hears src = true → F.CAL_REQ_START.isOf v = false →
      s.mayTrim (F.CAL_REQ_CHAN.of v) = true → F.CAL_REQ_CHAN.of v < 512 →
      Completes (.trimRecalRequest src v t) s fun u =>
        u.get (F.RGP_SPC_OWNER (F.CAL_REQ_CHAN.of v / 32)) = 1
          ∧ (u.cal.trimming.getLast?).map (fun c => (c.ch, c.passes)) = some (F.CAL_REQ_CHAN.of v, 0) ∧ u.mem = s.mem ∧ u.emi = s.emi)
    ∧ (∀ (s : State) (src : Src) (v : Word) (t : Nat), s.inReset = false → s.hears src = true → F.CAL_REQ_START.isOf v = false →
      s.mayTrim (F.CAL_REQ_CHAN.of v) = false →
      Completes (.trimRecalRequest src v t) s fun u =>
        CountsOne (F.CAL_CNT_COUNT 7) s u ∧ u.cal = s.cal ∧ { u with regs := s.regs } = s)
    ∧ (∀ (s : State) (c : StCal) (t : Nat), s.inReset = false → s.cal.stcal = some c → c.switched = false → c.st < 4 →
      s.is F.RGP_STCS_ACTIVE = false → c.t0 + 256 ≤ t → (s.noWindow c.st t = true ∨ c.t0 + 25600 ≤ t) →
      Completes (.startRecalSwitch t) s fun u =>
        u.is F.RGP_STCS_ACTIVE = true ∧ u.get F.RGP_STCS_TARGET = c.st ∧ u.is (F.RGP_STSTAT_SPARED c.st) = true
          ∧ u.cal.stcal.map (fun x => (x.st, x.switched)) = some (c.st, true) ∧ u.mem = s.mem ∧ u.emi = s.emi ∧ u.pool = s.pool
          ∧ (s.noWindow c.st t = true → u.ret = s.ret))
    ∧ (∀ (s : State) (c : StCal) (t : Nat), s.inReset = false → s.cal.stcal = some c → c.adopted = true → c.st < 4 →
      s.noWindow c.st t = true →
      Completes (.startRecalHandback t) s fun u =>
        u.cal.stcal = none ∧ CountsOne (F.CAL_CNT_COUNT 6) s u ∧ u.is F.CAL_STAT_STCAL = false
          ∧ (c.switched = true → u.is F.RGP_STCS_ACTIVE = false ∧ u.is (F.RGP_STSTAT_SPARED c.st) = false) ∧ u.mem = s.mem ∧ u.ret = s.ret)
    ∧ (∀ (s : State) (c : StCal) (st : Fin 4), s.inReset = false → s.cal.stcal = some c → c.st = st → c.adopted = false →
      (c.switched = false ∨ s.noWindow c.st s.dt = true) →
      Completes (.recalTimeout (.start st)) s fun u =>
        u.cal.stcal = none ∧ CountsOne (F.CAL_CNT_COUNT 5) s u ∧ 528 + st.val ∈ u.cal.stale ∧ u.mem = s.mem ∧ u.ret = s.ret)
    ∧ (∀ (s : State) (ch : Fin 512) (c : TrimCal), s.inReset = false → s.cal.trimming = [c] → c.ch = ch → c.adopted = false →
      Completes (.recalTimeout (.ret ch)) s fun u =>
        u.cal.trimming = [] ∧ CountsOne (F.CAL_CNT_COUNT 5) s u ∧ (u.spare (ch / 32)).handback = true ∧ u.is F.CAL_STAT_TRIM = false
          ∧ (∀ f, f < 64 → FMap.get (fun _ => (0 : Int)) u.cal.trim (64 * ch + f) = c.saved.getD f 0) ∧ u.mem = s.mem ∧ u.emi = s.emi)
    ∧ (∀ (s : State) (st : Fin 4), s.inReset = false →
      Completes (.recalRequeue st) s fun u =>
        528 + st.val ∈ u.cal.queue ∧ (∀ i ∈ s.cal.queue, i ∈ u.cal.queue) ∧ { u with cal := { u.cal with queue := s.cal.queue } } = s)
    ∧ ∀ (s : State) (ch : Fin 512) (c : TrimCal), s.inReset = false → s.cal.trimming = [c] → c.ch = ch → c.final = false →
      160000 ≤ FMap.nat s.cal.total ch → (s.spare (ch / 32)).serving = true →
      Completes (.trimPassEnd ch) s fun u =>
        u.cal.trimming.map (fun x => (x.ch, x.passes)) = [(ch.val, c.passes + 1)] ∧ FMap.nat u.cal.total ch = 0
          ∧ (∀ f, f < 64 → FMap.get (fun _ => (0 : Int)) u.cal.trim (64 * ch + f)
              = trimStep (FMap.nat s.cal.taps (64 * ch + f)) (FMap.get (fun _ => (0 : Int)) s.cal.trim (64 * ch + f)))
          ∧ { u with cal := s.cal } = s

/-! ### The Decanter and dispatch -/

/-- An idle lane takes the head of the context queue, else the oldest early partial; a pass that completes hands its candidate block on; an early
pass hands one on where it is confident and found something; a lane that fails its check is retired and the pixel of its close pass processed
again; CHECK and SEL act on a set (R42, R154, R176, R188, R190, R192, R193, R196, R197, R203, R547).
Points that the spec leaves open follow the model's choices (log 44). -/
def Obligations.DecanterPasses : Prop :=
  (∀ (s : State) (l : Fin 16) (c : Ctx), s.inReset = false → s.laneFailed l = false → s.dec.lanes[l] = none → s.synd = [] →
    s.pool.queue = [c.id] → s.pool.ctxs = [c] → c.state = .closed →
    Completes (.lanePassStart l) s fun u =>
      u.dec.lanes[l] = some ⟨if c.reprocess then .replay else .close, c.id, none⟩
        ∧ (∀ k : Fin 16, k ≠ l → u.dec.lanes[k] = s.dec.lanes[k]) ∧ u.dec.blocks = s.dec.blocks ∧ u.pool.queue = []
        ∧ u.pool.ctxs = [{ c with state := .work, reprocess := false }] ∧ bit (u.get F.DEC_LANE_BUSY) l = true
        ∧ { u with regs := s.regs, mem := s.mem, dec := s.dec, pool := s.pool } = s)
    ∧ (∀ (s : State) (l : Fin 16) (c : Ctx) (p : Partial), s.inReset = false → s.laneFailed l = false → s.dec.lanes[l] = none →
      s.synd = [] → s.pool.queue = [] → s.pool.parts = [p] → p.errs = [] → p.ctx.id = c.id → s.pool.ctxs = [c] →
      Completes (.lanePassStart l) s fun u =>
        u.dec.lanes[l] = some ⟨.early, c.id, some p⟩ ∧ u.pool.parts = [] ∧ u.pool.ctxs = [{ c with earlyRun := true }]
          ∧ u.dec.blocks = s.dec.blocks ∧ u.seq = s.seq ∧ u.emi = s.emi)
    ∧ (∀ (s : State) (l : Fin 16) (c : Ctx) (k : PassKind) (q : Option Partial) (x : Nat) (r : PassResult), s.inReset = false →
      s.dec.lanes[l] = some ⟨k, c.id, q⟩ → k ≠ .early → s.pool.ctxs = [c] → c.set = some x → s.synd = [] →
      r = runPass x (s.readSet x) k c.slot ((List.range c.nbin).map fun b => s.coarse c.slot b) →
      Completes (.closePassComplete l) s fun u =>
        u.dec.lanes[l] = none ∧ u.dec.blocks = s.dec.blocks ++ [⟨k, c.id, c.slot, c.bank, r.data, none, false⟩]
          ∧ CountsOne (F.DEC_CNT_COUNT (if k = .replay then 8 else 0)) s u
          ∧ u.get (F.DEC_CNT_COUNT 3) = min (s.get (F.DEC_CNT_COUNT 3) + r.ndrop) (2 ^ 32 - 1)
          ∧ u.get (F.DEC_CNT_COUNT 4) = min (s.get (F.DEC_CNT_COUNT 4) + r.sats) (2 ^ 32 - 1)
          ∧ { u with regs := s.regs, dec := s.dec } = s)
    ∧ (∀ (s : State) (l : Fin 16) (c : Ctx) (k : PassKind) (q : Option Partial), s.inReset = false →
      s.dec.lanes[l] = some ⟨k, c.id, q⟩ → k ≠ .early → s.pool.ctxs = [c] → c.set = none → s.synd = [] →
      Completes (.closePassComplete l) s fun u =>
        u.dec.lanes[l] = none ∧ u.dec.blocks = s.dec.blocks ++ [⟨k, c.id, c.slot, c.bank, (noSetPass k c.slot).data, none, false⟩]
          ∧ CountsOne (F.DEC_CNT_COUNT 9) s u ∧ { u with regs := s.regs, dec := s.dec } = s)
    ∧ (∀ (s : State) (l : Fin 16) (c : Ctx) (p : Partial) (x : Nat) (r : PassResult), s.inReset = false →
      s.dec.lanes[l] = some ⟨.early, c.id, some p⟩ → s.pool.ctxs = [c] → p.ctx.set = some x → x < 2 → s.synd = [] →
      r = runPass x (s.readSet x) .early p.ctx.slot ((List.range p.ctx.nbin).map p.bin) →
      Completes (.earlyPassComplete l) s fun u =>
        u.dec.lanes[l] = none ∧ CountsOne (F.DEC_CNT_COUNT 1) s u
          ∧ (confident p.ctx r = true → r.nfound ≠ 0 →
            u.dec.blocks = s.dec.blocks ++ [⟨.early, p.ctx.id, p.ctx.slot, p.ctx.bank, r.data, some p, false⟩])
          ∧ (confident p.ctx r = true → r.nfound = 0 → u.dec.blocks = s.dec.blocks)
          ∧ (confident p.ctx r = false → u.dec.blocks = s.dec.blocks ∧ CountsOne (F.DEC_CNT_COUNT 6) s u)
          ∧ u.pool.ctxs = [{ c with earlyRun := false }] ∧ u.seq = s.seq ∧ u.emi = s.emi)
    ∧ (∀ (s : State) (l : Fin 16) (c : Ctx) (p : Partial), s.inReset = false → s.dec.lanes[l] = some ⟨.early, c.id, some p⟩ →
      s.pool.ctxs = [c] → p.ctx.set = none →
      Completes (.earlyPassComplete l) s fun u =>
        u.dec.lanes[l] = none ∧ CountsOne (F.DEC_CNT_COUNT 1) s u ∧ CountsOne (F.DEC_CNT_COUNT 9) s u ∧ u.dec.blocks = s.dec.blocks
          ∧ u.pool.ctxs = [{ c with earlyRun := false }])
    ∧ (∀ (s : State) (l : Fin 16) (c : Ctx) (k : PassKind) (q : Option Partial), s.inReset = false →
      s.dec.lanes[l] = some ⟨k, c.id, q⟩ → k ≠ .early → s.pool.ctxs = [c] → c.state = .work →
      Completes (.laneCheckFail l) s fun u =>
        u.dec.lanes[l] = none ∧ u.laneFailed l = true ∧ u.get F.DEC_STAT_LANES = s.get F.DEC_STAT_LANES - 1
          ∧ CountsOne (F.DEC_CNT_COUNT 5) s u ∧ Detects 0x0A l s u ∧ u.pool.queue = s.pool.queue ++ [c.id]
          ∧ u.pool.ctxs = [{ c with state := .closed, reprocess := true }] ∧ u.dec.blocks = s.dec.blocks ∧ u.emi = s.emi ∧ u.ret = s.ret)
    ∧ (∀ (s : State) (l : Fin 16) (c : Ctx) (q : Option Partial), s.inReset = false → s.dec.lanes[l] = some ⟨.early, c.id, q⟩ →
      s.pool.ctxs = [c] →
      Completes (.laneCheckFail l) s fun u =>
        u.dec.lanes[l] = none ∧ u.laneFailed l = true ∧ CountsOne (F.DEC_CNT_COUNT 5) s u ∧ Detects 0x0A l s u
          ∧ u.pool.queue = s.pool.queue ∧ u.pool.ctxs = [{ c with earlyRun := false }] ∧ u.dec.blocks = s.dec.blocks ∧ u.emi = s.emi)
    ∧ (∀ (s : State) (src : Src) (v : Word) (x : Nat), s.inReset = false → s.hears src = true → x = F.DEC_CHECK_SET.of v → s.setBusy x = true →
      Completes (.decCheck src v) s fun u => Ignored s u)
    ∧ (∀ (s : State) (src : Src) (v : Word) (x : Nat), s.inReset = false → s.hears src = true → x = F.DEC_CHECK_SET.of v → s.setBusy x = false →
      s.synd = [] →
      Completes (.decCheck src v) s fun u =>
        u.get F.DEC_CHKRES_SET = x ∧ u.get F.DEC_CHKRES_CODE = s.checkCode x ∧ u.is (validField x) = decide (s.checkCode x = 1)
          ∧ (s.checkCode x = 1 →
            u.get (F.DEC_GDLY_DIN x) = (s.readSet x).din ∧ u.is (F.DEC_GDLY_DEC2 x) = (s.readSet x).hb
              ∧ u.get (F.DEC_NGAIN_NG x) = (s.readSet x).ng)
          ∧ { u with regs := s.regs } = s)
    ∧ ∀ (s : State) (src : Src) (v : Word) (x : Nat), s.inReset = false → s.hears src = true → x = F.DEC_SEL_SET.of v →
      (s.is (validField x) = false → Completes (.decSel src v) s fun u => Ignored s u)
        ∧ (s.is (validField x) = true → s.get F.DEC_STAT_CUR = x → s.is F.DEC_STAT_PEND = false →
          Completes (.decSel src v) s fun u => u = s)
        ∧ (s.is (validField x) = true → s.get F.DEC_STAT_CUR ≠ x ∨ s.is F.DEC_STAT_PEND = true →
          Completes (.decSel src v) s fun u =>
            u.is F.DEC_STAT_PEND = true ∧ u.get F.DEC_STAT_PSET = x ∧ u.get F.DEC_STAT_CUR = s.get F.DEC_STAT_CUR
              ∧ KeepsRegs (fun a => a == F.DEC_STAT_PSET.off) s u ∧ { u with regs := s.regs } = s)

/-- The next block fills an empty staging slot with its budget; an idle engine starts its staged dispatch, or a background slice when nothing
waits; work that has issued its budget is cut; the role of a retired Postmaster passes to the highest engine in service (R212, R349 to R357,
R362, R371).
Points that the spec leaves open follow the model's choices (log 71). -/
def Obligations.EngineDispatch : Prop :=
  (∀ (s : State) (n : Nat) (b : Block) (budget : Nat), s.inReset = false → s.stageSlot = some n → s.seq.returned = [] →
    s.dec.blocks = [b] → s.blockHeld b = false → b.bad = false →
    budget = s.get (if b.kind = .early then F.PNT_BUDGET_EARLY else F.PNT_BUDGET_PIX) → budget ≠ 0 →
    Completes .dispatchStage s fun u =>
      (u.pe n).staged
          = some ⟨match b.kind with
              | .close => 1
              | .early => 2
              | .replay => 4, some b.ctx, b.slot, b.bank, some budget, b.data, s.headerOf b, b.part, []⟩
        ∧ (u.pe n).eng = (s.pe n).eng ∧ (u.pe n).work = (s.pe n).work ∧ (∀ m, m ≠ n → u.pe m = s.pe m) ∧ u.dec.blocks = []
        ∧ u.seq.fsq = s.seq.fsq ∧ { u with dec := s.dec, seq := s.seq } = s)
    ∧ (∀ (s : State) (n : Fin 16) (d : Disp) (m : Nat), s.inReset = false → (s.pe n).work = none → (s.pe n).staged = some d →
      s.isPost n = false → 1 ≤ d.kind → d.kind ≤ 5 → s.synd = [] → m = (s.byte (peBase n + 0x8000 * d.bank + 0x50)).toNat →
      Completes (.dispatchStart n) s fun u =>
        (u.pe n).work = some d ∧ (u.pe n).staged = none ∧ bit (u.get F.SEQ_STAT_PEBUSY) n = true
          ∧ u.get (F.SEQ_PESTAT_KIND n) = d.kind ∧ (∀ k, k ≠ n.val → u.pe k = s.pe k) ∧ u.mem = s.mem ∧ u.emi = s.emi ∧ u.pool = s.pool
          ∧ (m % 64 ≤ 40 →
            (u.pe n).eng = { (s.pe n).eng.dispatch d.bank (match d.kind with
              | 2 => 4
              | 3 => 8
              | 5 => 16
              | _ => 0) with mode := BitVec.ofNat 8 m })
          ∧ (40 < m % 64 →
            (u.pe n).eng.tcause = 3 ∧ (u.pe n).eng.intrap = true ∧ (u.pe n).eng.pc = 12 ∧ CountsOne (F.SEQ_CNT_COUNT 3) s u))
    ∧ (∀ (s : State) (n : Fin 16), s.inReset = false → s.peServes n = true → (s.pe n).work = none → s.anyWaiting = false →
      s.get F.SEQ_BGBUD_BG ≠ 0 → s.synd = [] →
      Completes (.backgroundSliceStart n) s fun u =>
        (u.pe n).work = some ⟨3, none, 0, s.get F.SEQ_BANK_PCUR, some (s.get F.SEQ_BGBUD_BG), [], [], none, []⟩
          ∧ u.get (F.SEQ_PESTAT_KIND n) = 3 ∧ (∀ k, k ≠ n.val → u.pe k = s.pe k) ∧ u.mem = s.mem ∧ u.emi = s.emi ∧ u.pool = s.pool)
    ∧ (∀ (s : State) (n : Fin 16) (d : Disp) (b : Nat), s.inReset = false → (s.pe n).work = some d → d.budget = some b →
      b ≤ (s.pe n).eng.count → (s.pe n).eng.doomed = false → (s.pe n).eng.retire = false → s.isPost n = false →
      (d.kind = 2 ∨ d.kind = 3) → (d.kind = 2 → s.pnt.recsHeld = [] ∧ s.seq.ended = []) →
      Completes (.budgetCut n) s fun u =>
        (u.pe n).work = none ∧ (u.pe n).eng = (s.pe n).eng ∧ (u.pe n).staged = (s.pe n).staged
          ∧ bit (u.get F.SEQ_STAT_PEBUSY) n = false ∧ u.get (F.SEQ_PESTAT_KIND n) = 0
          ∧ (d.kind = 3 → CountsOne (F.SEQ_CNT_COUNT 5) s u)
          ∧ (∀ k, k ≠ n.val → u.pe k = s.pe k) ∧ { u with regs := s.regs, seq := s.seq } = s)
    ∧ (∀ (s : State) (n : Fin 16) (d : Disp) (b : Nat), s.inReset = false → (s.pe n).work = some d → d.budget = some b →
      (s.pe n).eng.count < b → Completes (.budgetCut n) s fun u => u = s)
    ∧ ∀ (s : State) (old n : Fin 16), s.inReset = false → s.isPost old = true → s.is (F.SEQ_PESTAT_RETIRED old) = true →
      (∀ m : Fin 16, m ≠ old → s.isPost m = false) → s.is (F.SEQ_PESTAT_RETIRED n) = false →
      (∀ m : Fin 16, n < m → s.is (F.SEQ_PESTAT_RETIRED m) = true) → (s.pe n).staged = none → s.synd = [] →
      Completes .postmasterHandover s fun u =>
        u.isPost old = false ∧ u.isPost n = true
          ∧ (u.pe n).work = (match (s.pe n).work with
            | some d => some d
            | none => some ⟨5, none, 0, s.get F.SEQ_BANK_PCUR, none, [], [], none, []⟩)
          ∧ (∀ k, k ≠ n.val → u.pe k = s.pe k) ∧ u.mem = s.mem ∧ u.emi = s.emi ∧ u.pool = s.pool

/-- RUN = 1 starts the stopped FSQ 16,000 ticks ahead of device time with its registers zero, and has no effect on a running one; RUN = 0 stops
it, after a stalled or waiting instruction has ended; the contexts close once no queued command remains; GO brings a bank into force at once, or
at the next frame mark (R336, R342, R365 to R367).
Points that the spec leaves open follow the model's choices (log 70, 72). -/
def Obligations.SequencerControl : Prop :=
  (∀ (s : State) (src : Src) (v : Word) (t : Nat), s.inReset = false → s.hears src = true → s.running = false → s.is F.SYS_STAT_TBLOCK = true →
    Completes (.fsqRun src v t) s fun u =>
      u.dt = max s.dt t ∧ u.running = true ∧ u.is F.SEQ_STAT_HALT = false ∧ u.get F.SEQ_CTRL_PEEN = F.SEQ_CTRL_PEEN.of v
        ∧ u.seq.fsq = ⟨{ Engine.reset with tcause := s.seq.fsq.eng.tcause, tpc := s.seq.fsq.eng.tpc }, u.dt + 16000, 0, 0, none, none, false,
            false⟩
        ∧ u.get F.SEQ_FPOS_FRAME = 0 ∧ u.get F.SEQ_FPOS_COLUMN = 0 ∧ u.pool = { s.pool with frame := 0, column := 0 }
        ∧ u.emi = { s.emi with codeMarks := s.emi.codeMarks ++ [u.dt + 16000] } ∧ u.seq.pes = s.seq.pes
        ∧ { u with regs := s.regs, dt := s.dt, seq := s.seq, pool := s.pool, emi := s.emi } = s)
    ∧ (∀ (s : State) (src : Src) (v : Word) (t : Nat), s.inReset = false → s.hears src = true → s.running = false → s.is F.SYS_STAT_TBLOCK = false →
      Completes (.fsqRun src v t) s fun u => Ignored s u)
    ∧ (∀ (s : State) (src : Src) (v : Word) (t : Nat), s.inReset = false → s.hears src = true → s.running = true →
      Completes (.fsqRun src v t) s fun u =>
        u.get F.SEQ_CTRL_PEEN = F.SEQ_CTRL_PEEN.of v ∧ KeepsRegs (fun a => a == F.SEQ_CTRL_PEEN.off) s u ∧ { u with regs := s.regs } = s)
    ∧ (∀ (s : State) (src : Src) (v : Word), s.inReset = false → s.hears src = true → s.running = true → s.seq.fsq.stall = none →
      s.seq.fsq.wait = none →
      Completes (.fsqStop src v) s fun u =>
        u.running = false ∧ u.is F.SEQ_CTRL_RUN = false ∧ u.seq.fsq = { s.seq.fsq with stopping := false, flush := true }
          ∧ u.seq.pes = s.seq.pes ∧ { u with regs := s.regs, seq := s.seq } = s)
    ∧ (∀ (s : State) (src : Src) (v : Word), s.inReset = false → s.hears src = true → s.running = true →
      s.seq.fsq.stall.isSome = true ∨ s.seq.fsq.wait.isSome = true →
      Completes (.fsqStop src v) s fun u =>
        u.running = true ∧ u.is F.SEQ_CTRL_RUN = false ∧ u.seq.fsq = { s.seq.fsq with stopping := true }
          ∧ u.seq.pes = s.seq.pes ∧ { u with regs := s.regs, seq := s.seq } = s)
    ∧ (∀ (s : State) (t : Nat) (c : Ctx), s.inReset = false → s.seq.fsq.flush = true → s.emi.tq = [] → s.pool.ctxs = [c] → c.live = true →
      s.shotInProgress c.id = false → s.lossPending c = false →
      Completes (.fsqStopFlush t) s fun u =>
        u.seq.fsq = { s.seq.fsq with flush := false } ∧ u.pool.queue = s.pool.queue ++ [c.id]
          ∧ u.pool.ctxs = [{ c with state := .closed, closing := false, placing := false, skip := true, skipSeen := true }]
          ∧ u.emi = s.emi ∧ u.ret = s.ret)
    ∧ (∀ (s : State) (t : Nat), s.inReset = false → s.emi.tq ≠ [] → Completes (.fsqStopFlush t) s fun u => u = s)
    ∧ (∀ (s : State) (src : Src) (v : Word), s.inReset = false → s.hears src = true → F.SEQ_BANK_PGO.isOf v = false →
      Completes (.fsqBankGo src v) s fun u =>
        (s.is F.SEQ_BANK_FPENDV = true ∨ F.SEQ_BANK_FSEL.of v = s.get F.SEQ_BANK_FCUR →
          CountsOne F.SYS_IGNORED_COUNT s u ∧ u.get F.SEQ_BANK_FCUR = s.get F.SEQ_BANK_FCUR
            ∧ u.get F.SEQ_BANK_FPENDV = s.get F.SEQ_BANK_FPENDV ∧ u.get F.SEQ_BANK_FPEND = s.get F.SEQ_BANK_FPEND)
        ∧ (s.is F.SEQ_BANK_FPENDV = false → F.SEQ_BANK_FSEL.of v ≠ s.get F.SEQ_BANK_FCUR → s.running = true →
          u.is F.SEQ_BANK_FPENDV = true ∧ u.get F.SEQ_BANK_FPEND = F.SEQ_BANK_FSEL.of v
            ∧ u.get F.SEQ_BANK_FCUR = s.get F.SEQ_BANK_FCUR ∧ { u with regs := s.regs } = s)
        ∧ (s.is F.SEQ_BANK_FPENDV = false → F.SEQ_BANK_FSEL.of v ≠ s.get F.SEQ_BANK_FCUR → s.running = false →
          u.get F.SEQ_BANK_FCUR = F.SEQ_BANK_FSEL.of v ∧ { u with regs := s.regs } = s)
        ∧ u.get F.SEQ_BANK_PCUR = s.get F.SEQ_BANK_PCUR ∧ u.mem = s.mem ∧ u.seq = s.seq ∧ u.pool = s.pool)
    ∧ ∀ (s : State) (src : Src) (v : Word), s.inReset = false → s.hears src = true → F.SEQ_BANK_FGO.isOf v = false →
      Completes (.peBankGo src v) s fun u =>
        (s.is F.SEQ_BANK_PPENDV = true ∨ F.SEQ_BANK_PSEL.of v = s.get F.SEQ_BANK_PCUR →
          CountsOne F.SYS_IGNORED_COUNT s u ∧ u.get F.SEQ_BANK_PCUR = s.get F.SEQ_BANK_PCUR
            ∧ u.get F.SEQ_BANK_PPENDV = s.get F.SEQ_BANK_PPENDV ∧ u.get F.SEQ_BANK_PPEND = s.get F.SEQ_BANK_PPEND)
        ∧ (s.is F.SEQ_BANK_PPENDV = false → F.SEQ_BANK_PSEL.of v ≠ s.get F.SEQ_BANK_PCUR → s.peInUse = true →
          u.is F.SEQ_BANK_PPENDV = true ∧ u.get F.SEQ_BANK_PPEND = F.SEQ_BANK_PSEL.of v
            ∧ u.get F.SEQ_BANK_PCUR = s.get F.SEQ_BANK_PCUR ∧ { u with regs := s.regs } = s)
        ∧ (s.is F.SEQ_BANK_PPENDV = false → F.SEQ_BANK_PSEL.of v ≠ s.get F.SEQ_BANK_PCUR → s.peInUse = false →
          u.get F.SEQ_BANK_PCUR = F.SEQ_BANK_PSEL.of v ∧ { u with regs := s.regs } = s)
        ∧ u.get F.SEQ_BANK_FCUR = s.get F.SEQ_BANK_FCUR ∧ u.mem = s.mem ∧ u.seq = s.seq ∧ u.pool = s.pool

/-! ### Zones, scan axes -/

/-- A record that lies in zones of the map in force makes them FIRM; one that the map changed under trips none; a withdrawal clears a SPEC zone
that nothing else supports and a confirmation makes it FIRM while its hold time runs; when a hold time has run out its FIRM zones clear; a zone
map is selected for the next frame mark (R224, R230 to R236).
Points that the spec leaves open follow the model's choices (log 50). -/
def Obligations.Zones : Prop :=
  (∀ (s : State) (t n : Nat) (r : ZRec) (q : List ZRec), s.inReset = false → s.pnt.zoneQ = r :: q → r.kind = .point → r.item.ctx = none →
    s.seq.ended = [] → s.pnt.recsHeld = [] →
      (∀ z ∈ q, z.kind ≠ .mark) →
    s.synd = [] → n = s.zoneCount (s.get F.PNT_ZSEL_CUR) →
    Completes (.zoneRecord t) s fun u =>
      u.pnt.zoneQ = q
        ∧ (r.untested = false →
          ∀ i, FMap.nat u.pnt.zones i = if decide (i < n) && s.inZone r i then 2 else FMap.nat s.pnt.zones i)
        ∧ (r.untested = true → u.pnt.zones = s.pnt.zones ∧ u.pnt.zoneTrip = s.pnt.zoneTrip)
        ∧ u.pnt.outstanding = s.pnt.outstanding ∧ u.mem = s.mem ∧ u.emi = s.emi ∧ u.seq = s.seq ∧ u.pool = s.pool)
    ∧ (∀ (s : State) (t i : Nat) (r : ZRec) (q : List ZRec) (e : Early), s.inReset = false → s.pnt.zoneQ = r :: q → r.kind = .withdraw →
      r.item.ctx = none → s.seq.ended = [] → s.pnt.recsHeld = [] →
      (∀ z ∈ q, z.kind ≠ .mark) → s.pnt.outstanding = [e] → e.spec = r.spec → e.zones = [i] → FMap.nat s.pnt.zones i = 1 →
      Completes (.zoneRecord t) s fun u =>
        u.pnt.zoneQ = q ∧ FMap.nat u.pnt.zones i = 0 ∧ (∀ j, j ≠ i → FMap.nat u.pnt.zones j = FMap.nat s.pnt.zones j)
          ∧ CountsOne (F.PNT_CNT_COUNT 9) s u ∧ u.pnt.outstanding = [] ∧ u.mem = s.mem ∧ u.emi = s.emi ∧ u.seq = s.seq)
    ∧ (∀ (s : State) (t i : Nat) (r : ZRec) (q : List ZRec) (e : Early), s.inReset = false → s.pnt.zoneQ = r :: q → r.kind = .confirm →
      r.item.ctx = none → s.seq.ended = [] → s.pnt.recsHeld = [] →
      (∀ z ∈ q, z.kind ≠ .mark) → s.pnt.outstanding = [e] → e.spec = r.spec → e.zones = [i] → FMap.nat s.pnt.zones i = 1 →
      s.holdRuns (s.zoneOut i) (FMap.nat s.pnt.zoneTrip i) t = true →
      Completes (.zoneRecord t) s fun u =>
        u.pnt.zoneQ = q ∧ FMap.nat u.pnt.zones i = 2 ∧ (∀ j, j ≠ i → FMap.nat u.pnt.zones j = FMap.nat s.pnt.zones j)
          ∧ u.pnt.outstanding = [] ∧ u.mem = s.mem ∧ u.emi = s.emi ∧ u.seq = s.seq)
    ∧ (∀ (s : State) (n : Fin 4) (t : Nat), s.inReset = false →
      Completes (.zoneHoldExpire n t) s fun u =>
        (∀ i, FMap.nat u.pnt.zones i
            = if decide (i < 64) && decide (FMap.nat s.pnt.zones i = 2) && decide (s.zoneOut i = n)
                && !s.holdRuns n (FMap.nat s.pnt.zoneTrip i) t then 0 else FMap.nat s.pnt.zones i)
          ∧ (s.holdRuns n (FMap.nat s.pnt.outTrip n) t = false → bit (u.get F.PNT_ZOUT_HOLDING) n = false)
          ∧ (s.holdRuns n (FMap.nat s.pnt.outTrip n) t = true → u.get F.PNT_ZOUT_HOLDING = s.get F.PNT_ZOUT_HOLDING)
          ∧ u.mem = s.mem ∧ u.emi = s.emi ∧ u.seq = s.seq ∧ u.pool = s.pool)
    ∧ ∀ (s : State) (src : Src) (v : Word), s.inReset = false → s.hears src = true →
      Completes (.zoneMapSelect src v) s fun u =>
        u.pnt = { s.pnt with zpend := F.PNT_ZSEL_SEL.of v } ∧ u.is F.PNT_ZSEL_PEND = true ∧ u.get F.PNT_ZSEL_CUR = s.get F.PNT_ZSEL_CUR
          ∧ KeepsRegs (fun a => a == F.PNT_ZSEL_PEND.off) s u ∧ { u with regs := s.regs, pnt := s.pnt } = s

/-- The writes that act on an axis, each with what it refuses: an axis starts with its next sample instant and takes its input; stops, with
one SAFE frame due; a fault is to be cleared at the next sample instant; FTW restarts the phase count; set-points queue for the next
instant; a record becomes pending, or comes into force at once on a disabled axis; scheduling starts at region 0; a trace starts empty; and
the end of a resonant cycle, which forms I, Q and A of its samples once the last code is in (R269, R282 to R284, R286, R291, R293, R300,
R301, R310, R312, R315). Points that the spec leaves open follow the model's choices (log 58, 59, 60). -/
def Obligations.AxisCommands : Prop :=
  (∀ (s : State) (src : Src) (a : Fin 4) (v : Word), s.inReset = false → s.hears src = true → s.is (F.AXS_CTRL_EN a) = false →
    s.axisBarred a ((F.AXS_CTRL_MODE a).isOf v) = false → s.is (s.axisOwn a) = false → s.axisOn (s.get (F.AXS_SENS_CONV a)) = none →
    (F.AXS_CTRL_CLR a).isOf v = false → s.synd = [] →
    ∃ u, exec (.axisEnable src a v) s = .next u
      ∧ u.is (F.AXS_CTRL_EN a) = true ∧ u.reg (F.AXS_CTRL_EN a).off = (v ||| 1#32) &&& 0x1F#32 ∧ u.get (s.axisOwn a) = 1
      ∧ u.is (F.AXS_STAT_RUN a) = !s.is (F.AXS_STAT_FAULT a)
      ∧ u.axis a = { s.axis a with
          starting := true, ampNew := false, running := false, sums := (0, 0, 0, 0), cycleDue := false, since := s.dt, period := none
          law := .idle, feRun := 0, lateRun := 0, badRun := 0, ackRun := 0 }
      ∧ (∀ b : Fin 4, b ≠ a → u.axis b = s.axis b)
      ∧ { u with regs := s.regs, axs := s.axs, emi := { u.emi with past := s.emi.past } } = s)
    ∧ (∀ (s : State) (src : Src) (a : Fin 4) (v : Word), s.inReset = false → s.hears src = true → s.synd = [] →
      s.axisBarred a ((F.AXS_CTRL_MODE a).isOf v) = true
        ∨ (s.is (F.AXS_CTRL_EN a) = false ∧ (s.is (s.axisOwn a) = true ∨ (s.axisOn (s.get (F.AXS_SENS_CONV a))).isSome = true))
        ∨ (s.is (F.AXS_CTRL_EN a) = true ∧ (F.AXS_CTRL_MODE a).isOf v ≠ s.is (F.AXS_CTRL_MODE a)) →
      ∃ u, exec (.axisEnable src a v) s = .next u ∧ Ignored s u)
    ∧ (∀ (s : State) (src : Src) (a : Fin 4) (v : Word), s.inReset = false → s.hears src = true → s.is (F.AXS_CTRL_EN a) = true →
      (F.AXS_CTRL_MODE a).isOf v = s.is (F.AXS_CTRL_MODE a) → (F.AXS_CTRL_CLR a).isOf v = false →
      ∃ u, exec (.axisDisable src a v) s = .next u
        ∧ u.is (F.AXS_CTRL_EN a) = false ∧ u.get (s.axisOwn a) = 0 ∧ u.is (F.AXS_STAT_RUN a) = false ∧ (u.axis a).closing = true
        ∧ (u.axis a).period = none ∧ (u.axis a).running = false ∧ (u.axis a).law = .idle ∧ (u.axis a).plans = (s.axis a).plans
        ∧ (u.axis a).sums = (0, 0, 0, 0) ∧ (u.axis a).cycleDue = false
        ∧ (∀ n : Fin 4, u.sns.adcs[n] = (match (if s.get (F.AXS_SENS_CONV a) = n then s.convEdge n else none) with
          | some e => { s.sns.adcs[n] with free := max s.sns.adcs[n].free (min e s.dt) }
          | none => s.sns.adcs[n]))
        ∧ (∀ b : Fin 4, b ≠ a → u.axis b = s.axis b)
        ∧ { u with regs := s.regs, axs := s.axs, sns := { u.sns with adcs := s.sns.adcs }, emi := { u.emi with past := s.emi.past } } = s)
    ∧ (∀ (s : State) (src : Src) (a : Fin 4) (v : Word), s.inReset = false → s.hears src = true → s.is (F.AXS_CTRL_EN a) = true →
      (F.AXS_CTRL_MODE a).isOf v ≠ s.is (F.AXS_CTRL_MODE a) → ∃ u, exec (.axisDisable src a v) s = .next u ∧ Ignored s u)
    ∧ (∀ (s : State) (src : Src) (a : Fin 4) (v : Word), s.inReset = false → s.hears src = true → s.synd = [] →
      (s.is (F.AXS_STAT_FAULT a) = false → ∃ u, exec (.axisClear src a v) s = .next u ∧ Ignored s u)
        ∧ (s.is (F.AXS_STAT_FAULT a) = true → s.is (F.AXS_CTRL_EN a) = true → (F.AXS_CTRL_EN a).isOf v = true →
          (F.AXS_CTRL_MODE a).isOf v = s.is (F.AXS_CTRL_MODE a) → s.axisBarred a ((F.AXS_CTRL_MODE a).isOf v) = false →
          ∃ u, exec (.axisClear src a v) s = .next u
            ∧ u.axis a = { s.axis a with clr := true } ∧ (∀ b : Fin 4, b ≠ a → u.axis b = s.axis b)
            ∧ u.reg (F.AXS_CTRL_EN a).off = v &&& 0x1F#32 ∧ KeepsRegs (fun x => x == (F.AXS_CTRL_EN a).off) s u
            ∧ { u with regs := s.regs, axs := s.axs } = s))
    ∧ (∀ (s : State) (src : Src) (a : Fin 4) (v : Word), s.inReset = false → s.hears src = true →
      (s.is (F.AXS_CTRL_TRACK a) = true ∨ v = 0#32 ∨ 2 ^ 32 < v.toNat * 128 * s.get (F.AXS_TIME_PERIOD a) →
        ∃ u, exec (.ftwWrite src a v) s = .next u ∧ Ignored s u)
        ∧ (s.is (F.AXS_CTRL_TRACK a) = false → v ≠ 0#32 → v.toNat * 128 * s.get (F.AXS_TIME_PERIOD a) ≤ 2 ^ 32 →
          ∃ u, exec (.ftwWrite src a v) s = .next u
            ∧ u.reg (F.AXS_FTW_FTW a).off = v
            ∧ u.axis a = { s.axis a with
                phase := s.phaseAt a s.dt, phaseAt := s.dt, f0 := v.toNat, spans := (u.axis a).spans }
            ∧ ((s.axis a).running = true → (s.axis a).phaseAt < s.dt →
              (u.axis a).spans.head? = some ⟨(s.axis a).phaseAt, s.dt, (s.axis a).phase, s.get (F.AXS_FTW_FTW a)⟩)
            ∧ (∀ b : Fin 4, b ≠ a → u.axis b = s.axis b) ∧ KeepsRegs (fun x => x == (F.AXS_FTW_FTW a).off) s u
            ∧ { u with regs := s.regs, axs := s.axs } = s))
    ∧ (∀ (s : State) (src : Src) (a : Fin 4) (v : Word), s.inReset = false → s.hears src = true →
      (s.is (F.AXS_CTRL_SRC a) = true → ∃ u, exec (.setpointWrite src a v) s = .next u
        ∧ u.get (F.AXS_SET_SET a) = v.toNat % 2 ^ 24 ∧ u.axis a = { s.axis a with points := (s.axis a).points ++ [sint 24 v.toNat] }
        ∧ (∀ b : Fin 4, b ≠ a → u.axis b = s.axis b) ∧ KeepsRegs (fun x => x == (F.AXS_SET_SET a).off) s u
        ∧ { u with regs := s.regs, axs := s.axs } = s)
        ∧ (s.is (F.AXS_CTRL_SRC a) = false → ∃ u, exec (.setpointWrite src a v) s = .next u
          ∧ CountsOne (F.AXS_CNT_COUNT a 5) s u ∧ KeepsRegs (fun x => x == (F.AXS_CNT_COUNT a 5).off) s u ∧ { u with regs := s.regs } = s))
    ∧ (∀ (s : State) (src : Src) (a : Fin 4) (v : Word) (r : Nat), s.inReset = false → s.hears src = true → s.synd = [] →
      r = (F.AXS_REC_SEL a).of v →
      (1 < r ∨ r = s.get (F.AXS_REC_CUR a) ∨ s.recOk a r = false ∨ s.solo = true →
        ∃ u, exec (.axisRecordGo src a v) s = .next u ∧ Ignored s u)
        ∧ (r ≤ 1 → r ≠ s.get (F.AXS_REC_CUR a) → s.recOk a r = true → s.solo = false →
          ∃ u, exec (.axisRecordGo src a v) s = .next u
            ∧ (s.is (F.AXS_CTRL_EN a) = true →
              u.is (F.AXS_REC_PENDV a) = true ∧ u.get (F.AXS_REC_PEND a) = r ∧ u.get (F.AXS_REC_CUR a) = s.get (F.AXS_REC_CUR a)
                ∧ u.axis a = { s.axis a with recMark := false })
            ∧ (s.is (F.AXS_CTRL_EN a) = false →
              u.get (F.AXS_REC_CUR a) = r ∧ CountsOne (F.AXS_CNT_COUNT a 4) s u
                ∧ (u.axis a).recOld = (s.axis a).recOld ++ [s.get (F.AXS_REC_CUR a)])
            ∧ (∀ b : Fin 4, b ≠ a → u.axis b = s.axis b) ∧ { u with regs := s.regs, axs := s.axs } = s))
    ∧ (∀ (s : State) (src : Src) (a : Fin 4) (v : Word), s.inReset = false → s.hears src = true → s.synd = [] →
      (s.solo = false ∨ s.regionsOk a = false → ∃ u, exec (.scheduleEnable src a v) s = .next u ∧ Ignored s u)
        ∧ (s.solo = true → s.regionsOk a = true → ∃ u, exec (.scheduleEnable src a v) s = .next u
          ∧ u.reg (F.AXS_SCHED_EN a).off = (v ||| 1#32) &&& 0xFFFFFF07#32
          ∧ u.axis a = { s.axis a with region := if s.is (F.AXS_SCHED_EN a) then (s.axis a).region else 0 }
          ∧ (∀ b : Fin 4, b ≠ a → u.axis b = s.axis b) ∧ KeepsRegs (fun x => x == (F.AXS_SCHED_EN a).off) s u
          ∧ { u with regs := s.regs, axs := s.axs } = s))
    ∧ (∀ (s : State) (src : Src) (a : Fin 4) (v : Word) (mode len base : Nat), s.inReset = false → s.hears src = true →
      mode = (F.AXS_TRC_MODE a).of v → len = (F.AXS_TRC_LEN a).of v → base = (F.AXS_TRC_BASE a).of v →
      (mode = 3 ∨ (mode ≠ 0 ∧ (len = 0 ∨ 256 < base + len ∨ s.cellarTaken a base len = true)) →
        ∃ u, exec (.traceConfig src a v) s = .next u ∧ Ignored s u)
        ∧ (mode ≠ 3 → mode ≠ 0 → len ≠ 0 → base + len ≤ 256 → s.cellarTaken a base len = false →
          ∃ u, exec (.traceConfig src a v) s = .next u
            ∧ u.reg (F.AXS_TRC_MODE a).off = v &&& 0xFFFFFFF3#32 ∧ u.get (F.AXS_TRCS_WPTR a) = 0 ∧ u.is (F.AXS_TRCS_WRAP a) = false
            ∧ u.is (F.AXS_TRCS_DONE a) = false ∧ u.axis a = { s.axis a with skipped := 0, left := none }
            ∧ (∀ b : Fin 4, b ≠ a → u.axis b = s.axis b) ∧ { u with regs := s.regs, axs := s.axs } = s)
        ∧ (mode = 0 → ∃ u, exec (.traceConfig src a v) s = .next u
          ∧ u.reg (F.AXS_TRC_MODE a).off = v &&& 0xFFFFFFF3#32 ∧ { u with regs := s.regs } = s))
    ∧ ∀ (s : State) (a : Fin 4) (t n : Nat) (c q j : Int) (iq : Int × Int) (wait : Bool), s.inReset = false →
      s.is F.SYS_STAT_TBLOCK = true → s.is (F.AXS_CTRL_EN a) = true → s.is (F.AXS_CTRL_MODE a) = true → (s.axis a).running = true →
      2 ^ 32 ≤ s.phaseSum a t → s.phaseSum a t < 2 ^ 32 + s.get (F.AXS_FTW_FTW a) → s.is (F.AXS_CTRL_TRACK a) = false →
      (s.axis a).starting = false → (s.axis a).sums = (n, c, q, j) → wait = (s.axis a).period.any (fun p => decide (p.t < t) && p.reading.isNone) →
      iq = (roundDiv (2 * c * 65536) ((n : Int) * one60), roundDiv (2 * q * 65536) ((n : Int) * one60)) →
      ∃ u, exec (.resonantCycleEnd a t) s = .next u
        ∧ (u.axis a).phaseAt = t ∧ (u.axis a).phase = s.phaseAt a t
        ∧ (wait = true → (u.axis a).cycleDue = true ∧ (u.axis a).sums = (s.axis a).sums)
        ∧ (wait = false → (u.axis a).sums = (0, 0, 0, 0))
        ∧ (wait = false → 4 ≤ n →
          (u.axis a).iq = iq ∧ (u.axis a).amp = (((isqrt (iq.1 * iq.1 + iq.2 * iq.2).toNat + 32768) / 65536 : Nat) : Int))
        ∧ (wait = true ∨ n < 4 → (u.axis a).iq = (s.axis a).iq ∧ (u.axis a).amp = (s.axis a).amp)
        ∧ u.sns = (s.feed 4 a (coarseStamp t)).sns
        ∧ (∀ b : Fin 4, b ≠ a → u.axis b = s.axis b) ∧ { u with axs := s.axs, dt := s.dt, sns := s.sns } = s

/-- A sample instant requests the frame of the period, moves the plans up and starts the conversion; the SAFE frame of a stopped axis and the
clearing of a fault wait for it; the computation forms the law's value, judges the following error, and faults the axis after FETIME periods
over FELIM; a late computation is abandoned and counted, and the second one in a row faults the axis; a requested frame starts at the first edge
on which the link is free; its acknowledgement must match the oldest frame whose time has not run out, with STAT faults the axis, and a missing
one is counted and faults it the second time in a row (R270, R273, R274, R276, R288 to R290, R292, R298 to R301, R303 to R305, R307 to R309).
Points that the spec leaves open follow the model's choices (log 58, 59, 61, 62, 102). -/
def Obligations.AxisPeriod : Prop :=
  (∀ (s : State) (a : Fin 4) (t : Nat), s.inReset = false → s.is F.SYS_STAT_TBLOCK = true → s.isSample a t = true →
    s.is (F.AXS_CTRL_EN a) = true → s.get (F.AXS_TRC_MODE a) = 0 → s.is (F.AXS_REC_PENDV a) = false → s.emi.tq = [] →
    (∀ p, (s.axis a).period = some p → p.t < t) → s.synd = [] → (s.axis a).law ≠ .waiting → (s.axis a).law ≠ .abandoned →
    (s.axis a).clr = false → (s.axis a).closing = false → (s.axis a).starting = false → (s.axis a).points = [] →
    (s.axis a).recNext = none →
    ∃ u, exec (.axisSample a t) s = .next u
      ∧ u.drv.reqs = s.drv.reqs ++ (if s.is (F.AXS_STAT_FAULT a) then [⟨a, .safe, sint 18 (s.get (F.AXS_SAFE_WORD a)), false, t⟩]
        else match (s.axis a).law with
          | .idle => []
          | .done x => [if s.is (F.AXS_CTRL_MODE a) then ⟨a, .drive, max x 0, true, t⟩ else ⟨a, .drive, satInt 18 x, false, t⟩]
          | _ => [⟨a, .repeat, (s.axis a).word, false, t⟩])
      ∧ (u.axis a).law = .waiting ∧ (u.axis a).period.map (fun p => (p.t, p.reading)) = some (t, none)
      ∧ (u.axis a).plans = ((s.axis a).plans.2.1, (s.axis a).plans.2.2,
          nextPlan (s.get (F.AXS_VMAX_VMAX a)) (s.get (F.AXS_AMAX_AMAX a)) (s.axis a).raw (s.axis a).plans.2.2)
      ∧ u.get (F.AXS_TRAJ_X a) = uint 24 (whole (s.axis a).plans.2.1.x)
      ∧ (∀ n : Fin 4, s.get (F.AXS_SENS_CONV a) = n →
        u.sns.adcs[n].runs = s.sns.adcs[n].runs ++ [⟨.axis a, s.get (F.AXS_SENS_INPUT a), t⟩])
      ∧ (∀ b : Fin 4, b ≠ a → u.axis b = s.axis b) ∧ KeepsRegs (fun x => x == (F.AXS_TRAJ_X a).off) s u
      ∧ { u with regs := s.regs, axs := s.axs, drv := s.drv, sns := s.sns, dt := s.dt } = s)
    ∧ (∀ (s : State) (a : Fin 4) (t : Nat), s.inReset = false → s.isSample a t = false → exec (.axisSample a t) s = .next s)
    ∧ (∀ (s : State) (a : Fin 4) (t : Nat), s.inReset = false → s.is F.SYS_STAT_TBLOCK = true → s.isSample a t = true →
      s.is (F.AXS_CTRL_EN a) = false → s.emi.tq = [] → (s.axis a).period = none → (s.axis a).clr = false → (s.axis a).closing = true →
      ∃ u, exec (.axisSample a t) s = .next u
        ∧ u.drv.reqs = s.drv.reqs ++ [⟨a, .safe, sint 18 (s.get (F.AXS_SAFE_WORD a)), false, t⟩] ∧ (u.axis a).closing = false
        ∧ (∀ b : Fin 4, b ≠ a → u.axis b = s.axis b) ∧ { u with axs := s.axs, drv := s.drv, dt := s.dt } = s)
    ∧ (∀ (s : State) (a : Fin 4) (t : Nat), s.inReset = false → s.is F.SYS_STAT_TBLOCK = true → s.isSample a t = true →
      s.is (F.AXS_CTRL_EN a) = true → s.get (F.AXS_TRC_MODE a) = 0 → s.is (F.AXS_REC_PENDV a) = false → s.emi.tq = [] →
      (∀ p, (s.axis a).period = some p → p.t < t) → s.synd = [] → (s.axis a).clr = true → s.is (F.AXS_STAT_FAULT a) = true →
      (s.axis a).closing = false → (s.axis a).points = [] → (s.axis a).recNext = none →
      ∃ u, exec (.axisSample a t) s = .next u
        ∧ u.is (F.AXS_STAT_FAULT a) = false ∧ u.get (F.AXS_STAT_CAUSE a) = 0 ∧ u.is (F.AXS_STAT_RUN a) = true ∧ Raised 17 u
        ∧ (u.axis a).clr = false ∧ (u.axis a).starting = true ∧ u.drv.reqs = s.drv.reqs
        ∧ (∀ b : Fin 4, b ≠ a → u.axis b = s.axis b))
    ∧ (∀ (s : State) (a : Fin 4) (p : Period) (w : Axis × Int), s.inReset = false → (s.axis a).law = .waiting →
      (s.axis a).period = some p → p.reading.isSome = true → s.lawTurn a p.t = true → s.is (F.AXS_STAT_FAULT a) = false →
      s.dt + 64 ≤ p.t + 16 * s.get (F.AXS_TIME_PERIOD a) → (s.axis a).starting = false → s.synd = [] →
      w = s.law a (s.axis a) (whole (s.axis a).plans.1.x) (s.measure a) (whole (s.axis a).plans.1.v) (whole (s.axis a).plans.1.c) →
      ∃ u, exec (.lawCompute a) s = .next u
        ∧ (u.axis a).law = .done w.2 ∧ (u.axis a).ePrev = w.1.ePrev ∧ (u.axis a).lateRun = 0
        ∧ (s.is (F.AXS_CTRL_FEEN a) = false ∨ (s.followError a).natAbs ≤ s.get (F.AXS_FE_FELIM a) →
          (u.axis a).feRun = 0 ∧ (u.axis a).integ = w.1.integ ∧ (u.axis a).hist = w.1.hist ∧ { u with axs := s.axs } = s)
        ∧ (s.is (F.AXS_CTRL_FEEN a) = true → s.get (F.AXS_FE_FELIM a) < (s.followError a).natAbs →
          (u.axis a).feRun = (s.axis a).feRun + 1
            ∧ (u.is (F.AXS_STAT_FAULT a) = decide (s.get (F.AXS_FE_FETIME a) ≤ (s.axis a).feRun + 1))
            ∧ (s.get (F.AXS_FE_FETIME a) ≤ (s.axis a).feRun + 1 →
              u.get (F.AXS_STAT_CAUSE a) = 1 ∧ Detects Cause.axis a s u ∧ (u.axis a).integ = 0))
        ∧ (∀ b : Fin 4, b ≠ a → u.axis b = s.axis b) ∧ u.drv = s.drv ∧ u.mem = s.mem ∧ u.seq = s.seq)
    ∧ (∀ (s : State) (a : Fin 4) (t : Nat) (p : Period), s.inReset = false → (s.axis a).period = some p → (s.axis a).law = .waiting →
      s.is (F.AXS_STAT_FAULT a) = false → (s.axis a).cycleDue = false →
      ∀ c : Instr, ((c = .lawDeadline a t ∧ p.t + 16 * s.get (F.AXS_TIME_PERIOD a) ≤ t + 64)
          ∨ (c = .lawCompute a ∧ p.reading.isSome = true ∧ s.lawTurn a p.t = true
            ∧ p.t + 16 * s.get (F.AXS_TIME_PERIOD a) < s.dt + 64)) →
        ∃ u, exec c s = .next u
          ∧ CountsOne (F.AXS_CNT_COUNT a 0) s u ∧ (u.axis a).law = .missed ∧ (u.axis a).lateRun = (s.axis a).lateRun + 1
          ∧ (u.is (F.AXS_STAT_FAULT a) = decide (2 ≤ (s.axis a).lateRun + 1))
          ∧ (2 ≤ (s.axis a).lateRun + 1 → u.get (F.AXS_STAT_CAUSE a) = 2 ∧ Detects Cause.axis a s u ∧ Raised 17 u)
          ∧ u.drv = s.drv ∧ u.mem = s.mem ∧ u.seq = s.seq)
    ∧ (∀ (s : State) (a : Fin 4) (t : Nat) (p : Period), s.inReset = false → (s.axis a).period = some p →
      t + 64 < p.t + 16 * s.get (F.AXS_TIME_PERIOD a) → exec (.lawDeadline a t) s = .next s)
    ∧ (∀ (s : State) (t : Nat) (q : DReq), s.inReset = false → s.is F.SYS_STAT_TBLOCK = true → s.drv.reqs = [q] → q.axis < 4 →
      (s.firstEdge t = true ↔ max s.drv.free q.t ≤ t ∧ t < max s.drv.free q.t + 64 ∧ ∀ e, s.drv.edge = some e → t % 64 = e % 64)
      ∧ (s.firstEdge t = false → exec (.driveFrame t) s = .next s)
      ∧ (s.firstEdge t = true → ∃ u, exec (.driveFrame t) s = .next u
        ∧ (∃ w : Int, (q.resonant = false → w = q.word)
            ∧ (q.resonant = true → ∃ o : Int, -1 ≤ o ∧ o ≤ 1
              ∧ w = satInt 18 (roundDiv (q.word * sinPhase (s.phaseAt q.axis t + 65536 * s.get (F.AXS_RES_DPH q.axis))) one60 + o))
            ∧ (u.axis q.axis).word = w
            ∧ u.drv = ⟨[], t + 1024, s.drv.sent ++ [⟨q.axis, (s.axis q.axis).seq, t + 992 + 3200⟩], some t,
                driveBits q.axis (s.axis q.axis).seq q.kind w⟩
            ∧ u.outs = s.outs ++ [.driveFrame (driveBits q.axis (s.axis q.axis).seq q.kind w) t])
        ∧ (u.axis q.axis).seq = ((s.axis q.axis).seq + 1) % 4 ∧ u.is (F.AXS_STAT_REPEAT q.axis) = decide (q.kind = .repeat)
        ∧ u.mem = s.mem ∧ u.emi = s.emi ∧ u.seq = s.seq ∧ u.sns = s.sns))
    ∧ (∀ (s : State) (a : Fin 4) (n : BitVec 2) (stat : Bool) (t : Nat) (f : DSent) (l : List DSent), s.inReset = false →
      s.drv.sent = f :: l → (∀ g ∈ s.drv.sent, t ≤ g.until_) → f.axis = a → f.seq = n.toNat → s.is (F.AXS_STAT_FAULT a) = false →
      ∃ u, exec (.driveAck a n stat t) s = .next u
        ∧ u.drv = { s.drv with sent := l } ∧ (u.axis a).ackRun = 0 ∧ u.is (F.AXS_STAT_FAULT a) = stat
        ∧ (stat = true → u.get (F.AXS_STAT_CAUSE a) = 5 ∧ Detects Cause.axis a s u)
        ∧ (stat = false → (∀ b : Fin 4, b ≠ a → u.axis b = s.axis b) ∧ { u with drv := s.drv, axs := s.axs, dt := s.dt } = s))
    ∧ (∀ (s : State) (a : Fin 4) (n : BitVec 2) (stat : Bool) (t : Nat), s.inReset = false → s.drv.sent = [] →
      ∃ u, exec (.driveAck a n stat t) s = .next u ∧ CountsOne (F.AXS_CNT_COUNT a 6) s u ∧ { u with regs := s.regs, dt := s.dt } = s)
    ∧ (∀ (s : State) (a : Fin 4) (n : BitVec 2) (stat : Bool) (t : Nat) (f : DSent) (l : List DSent), s.inReset = false →
      s.drv.sent = f :: l → (∀ g ∈ s.drv.sent, t ≤ g.until_) → f.axis < 4 → (f.axis ≠ a ∨ f.seq ≠ n.toNat) → (s.axis f.axis).ackRun = 0 →
      ∃ u, exec (.driveAck a n stat t) s = .next u
        ∧ u.drv = { s.drv with sent := l } ∧ CountsOne (F.AXS_CNT_COUNT a 6) s u ∧ CountsOne (F.AXS_CNT_COUNT f.axis 2) s u
        ∧ (u.axis f.axis).ackRun = 1 ∧ { u with regs := s.regs, drv := s.drv, axs := s.axs, dt := s.dt } = s)
    ∧ (∀ (s : State) (a : Fin 4) (n : BitVec 2) (stat : Bool) (t : Nat) (f : DSent), s.inReset = false →
      s.drv.sent = [f] → f.until_ < t → f.axis < 4 → (s.axis f.axis).ackRun = 0 →
      ∃ u, exec (.driveAck a n stat t) s = .next u
        ∧ u.drv = { s.drv with sent := [] } ∧ CountsOne (F.AXS_CNT_COUNT a 6) s u ∧ CountsOne (F.AXS_CNT_COUNT f.axis 2) s u
        ∧ (u.axis f.axis).ackRun = 1)
    ∧ ∀ (s : State) (t : Nat) (f : DSent) (l : List DSent), s.inReset = false → s.drv.sent = f :: l → f.axis < 4 →
      (t ≤ f.until_ → exec (.ackTimeout t) s = .next s)
        ∧ (f.until_ < t → s.is (F.AXS_STAT_FAULT f.axis) = false →
          ∃ u, exec (.ackTimeout t) s = .next u
            ∧ u.drv = { s.drv with sent := l } ∧ CountsOne (F.AXS_CNT_COUNT f.axis 2) s u
            ∧ (u.axis f.axis).ackRun = (s.axis f.axis).ackRun + 1
            ∧ (u.is (F.AXS_STAT_FAULT f.axis) = decide (2 ≤ (s.axis f.axis).ackRun + 1))
            ∧ (2 ≤ (s.axis f.axis).ackRun + 1 → u.get (F.AXS_STAT_CAUSE f.axis) = 4 ∧ Detects Cause.axis f.axis s u)
            ∧ u.mem = s.mem ∧ u.seq = s.seq)

/-! ### Sense converters and frequency meters -/

/-- A step instant asks each converter for the derating reading and the next input of its mask; a free converter starts the request of the
highest rank at the first edge that leaves the gap of its axis free; a completed conversion gives the code of its voltage, fills its
register but for a check, and goes to what asked for it and to the input's owner: an axis, whose invalid samples in a row fault it,
derating, which selects its entry, or a check, which compares it; the writes of SNS_CONV, SNS_HKMASKn and SNS_CHK act or are counted or
refused. EN of a meter starts a gate with no stamps, or is refused; every DIV-th stamp that its source gives is accepted, one too soon after
the last is discarded and marks the loss; a posted Postmark is widened by device time, and one before the meter's previous stamp counted
only; at the end of a gate, with the time base in lock, the fitted period, its residual and the count are published and the next gate starts
(R75, R270, R272, R275, R289, R298, R313, R316 to R320, R322 to R327, R330 to R334). Points that the spec leaves open follow the model's
choices (log 31, 58, 59, 64, 65). -/
def Obligations.Converters : Prop :=
  ((∀ (s : State) (t : Nat), s.inReset = false → s.is F.SYS_STAT_TBLOCK = true → t % (1600 * s.sns.step) = 0 →
    (∀ b, s.sns.stepAt = some b → b < t) →
    ∃ u, exec (.housekeepingStep t) s = .next u
      ∧ (∀ n : Fin 4,
        u.sns.adcs[n].reqs = s.sns.adcs[n].reqs
            ++ (if s.is F.EMI_DRCFG_EN && decide (s.get F.EMI_DRCFG_CONV = n) then [⟨.derate, s.get F.EMI_DRCFG_INPUT, u.dt⟩] else [])
            ++ (match nextHost (s.get (F.SNS_HKMASK_MASK n)) s.sns.adcs[n].next with
              | some m => [⟨.host, m, u.dt⟩]
              | none => [])
          ∧ u.sns.adcs[n].runs = s.sns.adcs[n].runs)
      ∧ u.sns.step = s.get F.SNS_CFG_STEP ∧ u.sns.stepAt = some t ∧ u.sns.check = s.sns.check ∧ u.sns.meters = s.sns.meters
      ∧ { u with sns := s.sns, dt := s.dt } = s)
    ∧ (∀ (s : State) (t : Nat), s.inReset = false → t % (1600 * s.sns.step) ≠ 0 → exec (.housekeepingStep t) s = .next s)
    ∧ (∀ (s : State) (n : Fin 4) (t : Nat) (q : Conv), s.inReset = false → s.is F.SYS_STAT_TBLOCK = true →
      firstConv (s.sns.adcs[n].reqs.filter fun x => x.start ≤ t) = some q → s.convEdge n = some t →
      ∃ u, exec (.conversionStart n t) s = .next u
        ∧ u.sns.adcs[n] = { s.sns.adcs[n] with
            reqs := dropFirst (fun x => x = q) s.sns.adcs[n].reqs, runs := s.sns.adcs[n].runs ++ [{ q with start := t }], free := t + 1600 }
        ∧ (∀ m : Fin 4, m ≠ n → u.sns.adcs[m] = s.sns.adcs[m])
        ∧ u.outs = s.outs ++ (match q.kind with
          | .check code _ => [.chkdac (16 * n + q.input) code]
          | _ => [])
        ∧ u.sns.meters = s.sns.meters ∧ { u with sns := s.sns, outs := s.outs, dt := s.dt } = s)
    ∧ (∀ (l : List Conv) (q : Conv), firstConv l = some q → q ∈ l ∧ ∀ r ∈ l, q.kind.rank ≤ r.kind.rank)
    ∧ (∀ (s : State) (n : Fin 4) (q : Conv) (x : Nat), s.sns.adcs[n].reqs = [q] → x = max s.sns.adcs[n].free q.start →
      (s.axisOn n = none → s.convEdge n = some x)
        ∧ ∀ a, s.axisOn n = some a →
          s.convEdge n = some (if x < (s.axis a).since ∨ x + 4800 ≤ s.nextSample a x then x else s.nextSample a x + 1600))
    ∧ (∀ (s : State) (n : Fin 4) (t : Nat), s.inReset = false → s.convEdge n ≠ some t → exec (.conversionStart n t) s = .next s)
    ∧ (∀ (s : State) (n : Fin 4) (v : Int) (t : Nat) (q : Conv) (l : List Conv) (r : Reading), s.inReset = false →
      s.sns.adcs[n].runs = q :: l → q.start + 1600 ≤ t → q.input < 16 → (q.kind = .host ∨ q.kind = .demand) →
      s.get (ownFld n q.input) ≠ 2 →
      r = (if v < 0 then ⟨0, false, true⟩ else if 1600000000 ≤ v then ⟨0xFFF, true, false⟩ else ⟨v.toNat / 390625, false, false⟩) →
      ∃ u, exec (.conversionComplete n v t) s = .next u
        ∧ u.get (F.SNS_RES_CODE n q.input) = r.code ∧ u.is (F.SNS_RES_OVR n q.input) = r.ovr ∧ u.is (F.SNS_RES_UNDR n q.input) = r.undr
        ∧ u.is (F.SNS_RES_RCV n q.input) = s.sns.adcs[n].recover.any (fun e => decide (q.start < e + 3200))
        ∧ u.get (F.SNS_RES_SEQ n q.input) = (s.get (F.SNS_RES_SEQ n q.input) + 1) % 256
        ∧ (r.ovr = true → CountsOne (F.SNS_CNT_COUNT 1) s u) ∧ (r.undr = true → CountsOne (F.SNS_CNT_COUNT 2) s u)
        ∧ (q.kind = .demand → u.is F.SNS_CONV_BUSY = false) ∧ u.sns.adcs[n].runs = l
        ∧ (u.sns.adcs[n].recover = if r.ovr || r.undr then some (q.start + 1600) else s.sns.adcs[n].recover)
        ∧ (∀ m : Fin 4, m ≠ n → u.sns.adcs[m] = s.sns.adcs[m]) ∧ { u with regs := s.regs, sns := s.sns, dt := s.dt } = s)
    ∧ (∀ (s : State) (n : Fin 4) (v : Int) (t : Nat) (q : Conv) (l : List Conv), s.inReset = false →
      s.sns.adcs[n].runs = q :: l → q.start + 1600 ≤ t → q.input < 16 → (q.kind = .derate ∨ q.kind = .host ∨ q.kind = .demand) →
      s.get (ownFld n q.input) = 2 → s.synd = [] → s.derateCount ≠ 0 →
      ∃ u, exec (.conversionComplete n v t) s = .next u
        ∧ u.get F.EMI_STAT_DRENT = s.derateEntry (readingOf v) ∧ u.get (F.SNS_RES_CODE n q.input) = (readingOf v).code
        ∧ u.emi.drStop = bit (s.num (derateAt (s.derateEntry (readingOf v)) + 9) 1) 0
        ∧ u.emi.drMin = s.num (derateAt (s.derateEntry (readingOf v)) + 4) 4
        ∧ (s.derateEntry (readingOf v) ≠ s.get F.EMI_STAT_DRENT → s.num (derateAt (s.derateEntry (readingOf v)) + 8) 1 < 8 →
          u.emi.derImage = some (s.num (derateAt (s.derateEntry (readingOf v)) + 8) 1))
        ∧ (s.derateEntry (readingOf v) = s.get F.EMI_STAT_DRENT → u.emi.derImage = s.emi.derImage)
        ∧ u.mem = s.mem ∧ u.axs = s.axs ∧ u.seq = s.seq)
    ∧ (∀ (s : State) (x : Nat), s.get F.EMI_STAT_DRENT = 0 → s.is F.EMI_DRCFG_INV = false → s.synd = [] →
      s.derateEntry ⟨x, false, false⟩
        = ((List.range s.derateCount).filter fun i => s.num (derateAt i) 2 % 4096 ≤ x).getLastD 0)
    ∧ (∀ (s : State) (n a : Fin 4) (v : Int) (t : Nat) (q : Conv) (l : List Conv) (p : Period) (y : Int), s.inReset = false →
      s.sns.adcs[n].runs = q :: l → q.start + 1600 ≤ t → q.kind = .axis a → (s.axis a).period = some p → p.t = q.start →
      p.reading = none → 0 ≤ v → v < 1600000000 → s.is (F.AXS_CTRL_MODE a) = false → (s.axis a).cycleDue = false →
      s.is (F.AXS_SCHED_EN a) = false → y = s.sensed a (v.toNat / 390625) →
      ∃ u, exec (.conversionComplete n v t) s = .next u
        ∧ u.get (F.AXS_POS_Y a) = uint 24 y ∧ (u.axis a).badRun = 0
        ∧ (u.axis a).samples = (⟨p.t, y, p.t + 1600⟩ :: (s.axis a).samples).take 4
        ∧ ((u.axis a).period.bind fun p => p.reading) = some ⟨v.toNat / 390625, false, false⟩
        ∧ (u.axis a).law = (s.axis a).law ∧ (u.axis a).starting = false
        ∧ ((s.axis a).starting = true →
          (u.axis a).raw = sint 24 (uint 24 y) ∧ (u.axis a).plans = (⟨65536 * sint 24 (uint 24 y), 0, 0⟩, ⟨65536 * sint 24 (uint 24 y), 0, 0⟩,
            ⟨65536 * sint 24 (uint 24 y), 0, 0⟩))
        ∧ ((s.axis a).starting = false → (u.axis a).raw = (s.axis a).raw ∧ (u.axis a).plans = (s.axis a).plans)
        ∧ (∀ b : Fin 4, b ≠ a → u.axis b = s.axis b) ∧ u.sns.adcs[n].runs = l ∧ u.drv = s.drv ∧ u.mem = s.mem ∧ u.emi = s.emi)
    ∧ (∀ (s : State) (n a : Fin 4) (v : Int) (t : Nat) (q : Conv) (l : List Conv) (p : Period), s.inReset = false →
      s.sns.adcs[n].runs = q :: l → q.start + 1600 ≤ t → q.kind = .axis a → (s.axis a).period = some p → p.t = q.start →
      p.reading = none → (v < 0 ∨ 1600000000 ≤ v) → (s.axis a).cycleDue = false → s.is (F.AXS_STAT_FAULT a) = false →
      ∃ u, exec (.conversionComplete n v t) s = .next u
        ∧ CountsOne (F.AXS_CNT_COUNT a 1) s u ∧ (u.axis a).law = .missed ∧ (u.axis a).badRun = (s.axis a).badRun + 1
        ∧ (u.axis a).lateRun = 0 ∧ (u.is (F.AXS_STAT_FAULT a) = decide (2 ≤ (s.axis a).badRun + 1))
        ∧ (2 ≤ (s.axis a).badRun + 1 → u.get (F.AXS_STAT_CAUSE a) = 3 ∧ Detects Cause.axis a s u)
        ∧ u.get (F.AXS_POS_Y a) = s.get (F.AXS_POS_Y a) ∧ u.drv = s.drv ∧ u.mem = s.mem ∧ u.seq = s.seq)
    ∧ (∀ (s : State) (n : Fin 4) (v : Int) (t code tol : Nat) (q : Conv) (l : List Conv) (r : Nat), s.inReset = false →
      s.sns.adcs[n].runs = q :: l → q.start + 1600 ≤ t → q.kind = .check code tol → q.input < 16 → r = (readingOf v).code →
      ∃ u, exec (.conversionComplete n v t) s = .next u
        ∧ u.is F.SNS_CHK_BUSY = false ∧ u.is F.SNS_CHKRES_DONE = true ∧ u.get F.SNS_CHKRES_RESULT = r
        ∧ u.get F.SNS_CHKRES_CONV = n ∧ u.get F.SNS_CHKRES_INPUT = q.input ∧ Raised 19 u
        ∧ (((r : Int) - (4 * code + 2 : Nat)).natAbs ≤ tol → u.is F.SNS_CHKRES_FAIL = false ∧ CountsOne (F.SNS_CNT_COUNT 4) s u)
        ∧ (tol < ((r : Int) - (4 * code + 2 : Nat)).natAbs →
          u.is F.SNS_CHKRES_FAIL = true ∧ CountsOne (F.SNS_CNT_COUNT 3) s u ∧ Detects Cause.check (16 * n + q.input) s u)
        ∧ u.get (F.SNS_RES_CODE n q.input) = s.get (F.SNS_RES_CODE n q.input) ∧ u.mem = s.mem ∧ u.emi = s.emi ∧ u.axs = s.axs)
    ∧ (∀ (s : State) (src : Src) (v : Word) (n : Fin 4), s.inReset = false → s.hears src = true → F.SNS_CONV_CONV.of v = n →
      ∃ u, exec (.conversionRequest src v) s = .next u
        ∧ (s.is F.SNS_CONV_BUSY = false →
          u.is F.SNS_CONV_BUSY = true ∧ u.sns.adcs[n].reqs = s.sns.adcs[n].reqs ++ [⟨.demand, F.SNS_CONV_INPUT.of v, s.dt⟩]
            ∧ u.sns.adcs[n].runs = s.sns.adcs[n].runs)
        ∧ (s.is F.SNS_CONV_BUSY = true → CountsOne (F.SNS_CNT_COUNT 0) s u ∧ u.sns = s.sns)
        ∧ (∀ m : Fin 4, m ≠ n → u.sns.adcs[m] = s.sns.adcs[m]) ∧ { u with regs := s.regs, sns := s.sns } = s)
    ∧ (∀ (s : State) (src : Src) (n : Fin 4) (v : Word) (mask : Nat), s.inReset = false → s.hears src = true →
      mask = (F.SNS_HKMASK_MASK n).of v →
      ((∃ m : Fin 16, bit mask m = true ∧ s.is (ownFld n m) = true ∧ s.get (ownFld n m) ≠ 3) →
        ∃ u, exec (.hkmaskWrite src n v) s = .next u ∧ Ignored s u)
        ∧ ((∀ m : Fin 16, bit mask m = true → s.is (ownFld n m) = false ∨ s.get (ownFld n m) = 3) →
          ∃ u, exec (.hkmaskWrite src n v) s = .next u
            ∧ u.get (F.SNS_HKMASK_MASK n) = mask
            ∧ (∀ m : Fin 16, u.get (ownFld n m) = if bit mask m then 3 else if s.get (ownFld n m) = 3 then 0 else s.get (ownFld n m))
            ∧ KeepsRegs (fun x => x == (F.SNS_HKMASK_MASK n).off || x == (F.SNS_OWN_OWN n).off) s u ∧ { u with regs := s.regs } = s))
    ∧ (∀ (s : State) (src : Src) (v : Word) (t : Nat), s.inReset = false → s.hears src = true →
      ∃ u, exec (.checkStart src v t) s = .next u
        ∧ (s.is F.SNS_CHK_BUSY = false →
          u.is F.SNS_CHK_BUSY = true
            ∧ u.sns = { s.sns with check := some (F.SNS_CHK_CONV.of v, F.SNS_CHK_INPUT.of v, F.SNS_CHK_CODE.of v, F.SNS_CHK_TOL.of v, u.dt) })
        ∧ (s.is F.SNS_CHK_BUSY = true → CountsOne (F.SNS_CNT_COUNT 0) s u ∧ u.sns = s.sns)
        ∧ { u with regs := s.regs, sns := s.sns, dt := s.dt } = s)
    ∧ ∀ (s : State) (t code tol t0 : Nat) (n : Fin 4) (m : Nat), s.inReset = false → s.sns.check = some (n.val, m, code, tol, t0) →
      (t < t0 + 3200 → exec (.checkSettled t) s = .next s)
        ∧ (t0 + 3200 ≤ t → ∃ u, exec (.checkSettled t) s = .next u
          ∧ u.sns.check = none ∧ u.sns.adcs[n].reqs = s.sns.adcs[n].reqs ++ [⟨.check code tol, m, u.dt⟩]
          ∧ u.sns.adcs[n].runs = s.sns.adcs[n].runs ∧ (∀ k : Fin 4, k ≠ n → u.sns.adcs[k] = s.sns.adcs[k])
          ∧ { u with sns := s.sns, dt := s.dt } = s))
    ∧ (∀ (s : State) (src : Src) (i : Fin 8) (v : Word) (t : Nat), s.inReset = false → s.hears src = true →
    (s.is (F.SNS_FMCFG_EN i) = true ∨ s.meterBarred i v = true → ∃ u, exec (.meterEnable src i v t) s = .next u ∧ Ignored s u)
      ∧ (s.is (F.SNS_FMCFG_EN i) = false → s.meterBarred i v = false →
        ∃ u, exec (.meterEnable src i v t) s = .next u
          ∧ u.reg (F.SNS_FMCFG_EN i).off = (v ||| 0x80000000#32) &&& 0x8FFFFFFF#32 ∧ u.sns.meters[i] = ⟨u.dt, [], 0, none, [], none, false⟩
          ∧ (∀ j : Fin 8, j ≠ i → u.sns.meters[j] = s.sns.meters[j]) ∧ u.sns.adcs = s.sns.adcs
          ∧ KeepsRegs (fun x => x == (F.SNS_FMCFG_EN i).off) s u ∧ { u with regs := s.regs, sns := s.sns, dt := s.dt } = s))
    ∧ (∀ (s : State) (i : Fin 8) (x : Nat), s.inReset = false → s.sns.meters[i].given.head? ≠ some x → exec (.meterStamp i x) s = .next s)
    ∧ (∀ (s : State) (i : Fin 8) (y : Nat) (l : List Nat) (m : Meter), s.inReset = false → m = s.sns.meters[i] → m.given = y :: l →
      ∃ u, exec (.meterStamp i y) s = .next u
        ∧ (m.count % s.get (F.SNS_FMCFG_DIV i) ≠ 0 →
          u.sns.meters[i] = { m with given := l, count := m.count + 1, prev := some y } ∧ u.regs = s.regs)
        ∧ (m.count % s.get (F.SNS_FMCFG_DIV i) = 0 → (∀ k, m.last = some k → k + 409600 ≤ y) →
          u.sns.meters[i] = { m with given := l, count := m.count + 1, prev := some y, stamps := m.stamps ++ [y], last := some y }
            ∧ u.regs = s.regs)
        ∧ (m.count % s.get (F.SNS_FMCFG_DIV i) = 0 → (∃ k, m.last = some k ∧ y < k + 409600) →
          u.sns.meters[i] = { m with given := l, count := m.count + 1, prev := some y, loss := true } ∧ CountsOne (F.SNS_CNT_COUNT 5) s u)
        ∧ (∀ j : Fin 8, j ≠ i → u.sns.meters[j] = s.sns.meters[j]) ∧ u.sns.adcs = s.sns.adcs
        ∧ { u with regs := s.regs, sns := s.sns } = s)
    ∧ (∀ (s : State) (src : Src) (i : Fin 8) (v : Word) (t c x : Nat) (m : Meter), s.inReset = false → s.hears src = true →
      s.is (F.SNS_FMCFG_EN i) = true → s.get (F.SNS_FMCFG_SRC i) = 7 → m = s.sns.meters[i] →
      c = (s.at t).dt - ((s.at t).dt + 2 ^ 26 - v.toNat / 64) % 2 ^ 26 → x = 1024 * c + 16 * (v.toNat % 64) + 8 →
      ∃ u, exec (.stampPost src i v t) s = .next u
        ∧ ((∃ l, m.prev = some l ∧ x < l) → CountsOne (F.SNS_CNT_COUNT 6) s u ∧ u.sns = s.sns)
        ∧ ((∀ l, m.prev = some l → l ≤ x) → (∀ l, m.last = some l → l + 409600 ≤ x) → m.count % s.get (F.SNS_FMCFG_DIV i) = 0 →
          u.sns.meters[i] = { m with count := m.count + 1, prev := some x, stamps := m.stamps ++ [x], last := some x } ∧ u.regs = s.regs)
        ∧ u.dt = (s.at t).dt ∧ { u with regs := s.regs, sns := s.sns, dt := s.dt } = s)
    ∧ (∀ (s : State) (i : Fin 8), s.inReset = false → (s.is (F.SNS_FMCFG_EN i) = false ∨ s.is F.SYS_STAT_TBLOCK = false) →
      exec (.meterGateEnd i) s = .next s)
    ∧ ∀ (s : State) (i : Fin 8) (m : Meter) (p stop : Nat), s.inReset = false → s.is (F.SNS_FMCFG_EN i) = true →
      s.is F.SYS_STAT_TBLOCK = true → m = s.sns.meters[i] → stop = m.gate + 1600000 * s.get (F.SNS_FMGATE_GATE i) →
      (∀ y, m.given.head? = some y → 1024 * stop ≤ y) →
      m.stamps.length < 2 ^ 26 → p = (if m.stamps.length < 3 then 0 else fitPeriod m.stamps) →
      ∃ u, exec (.meterGateEnd i) s = .next u
        ∧ u.sns.meters[i] = { m with gate := stop, stamps := [], loss := false }
        ∧ u.get (F.SNS_FMPERLO_PER i) = p % 2 ^ 32 ∧ u.get (F.SNS_FMPERHI_PER i) = p / 2 ^ 32 % 2 ^ 32
        ∧ u.get (F.SNS_FMSTAT_N i) = m.stamps.length ∧ u.is (F.SNS_FMSTAT_VALID i) = decide (3 ≤ m.stamps.length)
        ∧ u.is (F.SNS_FMSTAT_LOSS i) = m.loss ∧ u.get (F.SNS_FMSTAT_GSEQ i) = (s.get (F.SNS_FMSTAT_GSEQ i) + 1) % 16
        ∧ (3 ≤ m.stamps.length → u.get (F.SNS_FMRES_RMS i) = min (fitRms m.stamps) (2 ^ 32 - 1))
        ∧ (m.stamps.length < 3 → u.get (F.SNS_FMRES_RMS i) = s.get (F.SNS_FMRES_RMS i))
        ∧ (∀ j : Fin 8, j ≠ i → u.sns.meters[j] = s.sns.meters[j]) ∧ { u with regs := s.regs, sns := s.sns, dt := s.dt } = s

/-! ### The Press -/

/-- A stream job closes at its flush time; an engine takes a closed stream job or the descriptor at the head of the ring, or finds the
descriptor in error; a finished stream job's output becomes a payload, goes as ordinary frames or is dropped; a finished host job writes its
destination and its descriptor's status; a fault retires the engine and abandons the job; PRS_HPROD and PRS_SCFGv are judged (R411 to R436).
Points that the spec leaves open follow the model's choices (log 74 to 77). -/
def Obligations.PressJobs : Prop :=
  (∀ (s : State) (vc : PVc) (t t0 v : Nat) (j : Job), s.inReset = false → v = (if vc = .vc0 then 0 else 3) → s.stl.jobs.getD v [] = [j] →
    j.state = .open t0 →
    Completes (.streamJobFlush vc t) s fun u =>
      (t0 + 1600 * bits j.cfg.toNat 24 8 ≤ t → u.stl.jobs.getD v [] = [{ j with state := .closed }])
        ∧ (t < t0 + 1600 * bits j.cfg.toNat 24 8 → u.stl = s.stl) ∧ { u with stl := s.stl, dt := s.dt } = s)
    ∧ (∀ (s : State) (e : Fin 4) (j : Job), s.inReset = false → s.prs[e] = none → s.pressRetired e = false → s.stl.jobs.getD 0 [] = [j] →
      j.state = .closed → (∀ i ∈ j.items, i.hole = false ∧ i.errs = 0#32) → j.items ≠ [] →
      Completes (.pressJobStart e) s fun u =>
        u.prs[e] = some ⟨.stream 0 j.id, s.dt, if j.cfg.getLsbD 3 then some (bits j.cfg.toNat 4 1) else none⟩
          ∧ u.stl.jobs.getD 0 [] = [{ j with state := .running e }] ∧ bit (u.get F.PRS_STAT_BUSY) e = true
          ∧ (∀ k : Fin 4, k ≠ e → u.prs[k] = s.prs[k]) ∧ u.mem = s.mem ∧ u.pool = s.pool ∧ u.seq = s.seq ∧ u.emi = s.emi)
    ∧ (∀ (s : State) (e : Fin 4) (a op ctl : Nat) (r : Region) (off : Nat), s.inReset = false → s.prs[e] = none → s.pressRetired e = false →
      s.stl.jobs.getD 0 [] = [] → s.stl.jobs.getD 3 [] = [] → s.ringWaiting = [a] → s.synd = [] → ctl = s.descField a 0 → op = bits ctl 0 2 →
      bit ctl 3 = false →
      (s.ignoreWhy a = 0 → progRegion (s.descField a 1) = some (r, off) → r ≠ .regs →
        Completes (.pressJobStart e) s fun u =>
          u.prs[e].map (fun w => (w.job, w.started))
              = some (.host ⟨a, op, ctl, s.descField a 1, s.descField a 2, s.descField a 3, s.descField a 4, s.bytes off (s.descField a 2)⟩,
                  s.dt)
            ∧ u.get F.PRS_HCONS_CONS = (s.get F.PRS_HCONS_CONS + 1) % s.get F.PRS_HSIZE_SIZE % 256
            ∧ bit (u.get F.PRS_STAT_BUSY) e = true ∧ (∀ k : Fin 4, k ≠ e → u.prs[k] = s.prs[k]) ∧ { u with regs := s.regs, prs := s.prs } = s)
        ∧ (s.ignoreWhy a ≠ 0 →
          Completes (.pressJobStart e) s fun u =>
            u.get F.PRS_IGNLAST_WHY = s.ignoreWhy a ∧ u.get F.PRS_IGNLAST_INDEX = s.get F.PRS_HCONS_CONS
              ∧ CountsOne (F.PRS_CNT_COUNT 7) s u ∧ u.get F.PRS_HCONS_CONS = (s.get F.PRS_HCONS_CONS + 1) % s.get F.PRS_HSIZE_SIZE % 256
              ∧ { u with regs := s.regs } = s))
    ∧ (∀ (s : State) (e : Fin 4) (vc : Nat) (j : Job) (t0 : Nat) (tab : Option Nat) (out : List Byte), s.inReset = false →
      s.prs[e] = some ⟨.stream vc j.id, t0, tab⟩ → (vc = 0 ∨ vc = 3) → s.stl.jobs.getD vc [] = [j] → j.cfg.getLsbD 3 = false →
      (∀ i ∈ j.items, i.hole = false ∧ i.ctx = none) →
      out = putJob ⟨j.cfg.getLsbD 2, none⟩ (if vc = 0 then 1 else 4) j.id t0 (j.items.flatMap fun i => i.data) →
      Completes (.pressJobComplete e) s fun u =>
        u.prs[e] = none ∧ bit (u.get F.PRS_STAT_BUSY) e = false
          ∧ (out.length ≤ 4096 → u.stl.jobs.getD vc [] = [{ j with state := .ready out, readyAt := s.dt }])
          ∧ (4096 < out.length → j.cfg.getLsbD 1 = true →
            u.stl.jobs.getD vc [] = [{ j with state := .plain, readyAt := s.dt }] ∧ CountsOne (F.PRS_CNT_COUNT 2) s u)
          ∧ (4096 < out.length → j.cfg.getLsbD 1 = false →
            u.stl.jobs.getD vc [] = [] ∧ CountsOne (F.PRS_CNT_COUNT 3) s u
              ∧ u.get (F.PRS_CNT_COUNT 4) = min (s.get (F.PRS_CNT_COUNT 4) + j.items.length) (2 ^ 32 - 1))
          ∧ u.mem = s.mem ∧ u.pool = s.pool ∧ u.seq = s.seq ∧ u.emi = s.emi)
    ∧ (∀ (s : State) (e : Fin 4) (h : PressHost) (t0 : Nat) (tab : Option Nat) (out : List Byte), s.inReset = false →
      s.prs[e] = some ⟨.host h, t0, tab⟩ → s.inputRead h = h.input → s.synd = [] →
      (h.desc + 32 ≤ h.dst ∨ h.dst + h.dstlen ≤ h.desc) →
      (h.op = 1 ∧ bit h.ctl 3 = false ∧ out = putJob ⟨bit h.ctl 2, none⟩ 0 0 t0 h.input)
        ∨ (h.op = 2 ∧ jobHeaderOk h.input = true ∧ bit (hdrField h.input 3 1) 1 = false ∧ hdrField h.input 8 4 ≤ h.dstlen
          ∧ getJob ⟨bit (hdrField h.input 3 1) 0, none⟩ h.input = some out) →
      out.length ≤ h.dstlen → out.length < 2 ^ 32 →
      Completes (.pressJobComplete e) s fun u =>
        u.prs[e] = none ∧ u.bytes h.dst out.length = out ∧ u.num (h.desc + 24) 4 = 1 ∧ u.num (h.desc + 28) 4 = out.length
          ∧ CountsOne (F.PRS_CNT_COUNT 5) s u ∧ (bit h.ctl 5 = true → Raised 10 u) ∧ u.synd = [] ∧ u.pool = s.pool ∧ u.seq = s.seq
          ∧ u.stl = s.stl
          ∧ (∀ a, (a < h.dst ∨ h.dst + out.length ≤ a) → (a < h.desc + 24 ∨ h.desc + 32 ≤ a) → u.byte a = s.byte a))
    ∧ (∀ (s : State) (e : Fin 4) (h : PressHost) (t0 : Nat) (tab : Option Nat), s.inReset = false → s.prs[e] = some ⟨.host h, t0, tab⟩ →
      h.op = 2 → s.inputRead h = h.input → s.synd = [] → jobHeaderOk h.input = false →
      Completes (.pressJobComplete e) s fun u =>
        u.prs[e] = none ∧ u.num (h.desc + 24) 4 = 3 ∧ u.num (h.desc + 28) 4 = 0 ∧ CountsOne (F.PRS_CNT_COUNT 9) s u
          ∧ (∀ a, (a < h.dst ∨ h.dst + h.dstlen ≤ a) → (a < h.desc + 24 ∨ h.desc + 32 ≤ a) → u.byte a = s.byte a))
    ∧ (∀ (s : State) (e : Fin 4) (h : PressHost) (t0 : Nat) (tab : Option Nat), s.inReset = false → s.prs[e] = some ⟨.host h, t0, tab⟩ →
      s.synd = [] →
      Completes (.pressFault e) s fun u =>
        u.prs[e] = none ∧ u.pressRetired e = true ∧ CountsOne (F.PRS_CNT_COUNT 8) s u ∧ Detects 0x0B e s u ∧ u.num (h.desc + 24) 4 = 4
          ∧ u.num (h.desc + 28) 4 = 0 ∧ u.pool = s.pool ∧ u.seq = s.seq)
    ∧ (∀ (s : State) (e : Fin 4) (c : Ctx) (j : Job) (i : Item) (t0 : Nat) (tab : Option Nat), s.inReset = false →
      s.prs[e] = some ⟨.stream 0 j.id, t0, tab⟩ → s.stl.jobs.getD 0 [] = [j] → j.items = [i] → i.ctx = some c.id → s.pool.ctxs = [c] →
      c.state = .retained →
      Completes (.pressFault e) s fun u =>
        u.prs[e] = none ∧ u.pressRetired e = true ∧ CountsOne (F.PRS_CNT_COUNT 8) s u ∧ Detects 0x0B e s u
          ∧ u.stl.jobs.getD 0 [] = [{ j with state := .plain, readyAt := s.dt, items := [{ i with hole := true }] }]
          ∧ u.pool.queue = s.pool.queue ++ [c.id] ∧ u.pool.ctxs = [{ c with state := .closed, reprocess := true }])
    ∧ (∀ (s : State) (e : Fin 4) (j : Job) (t0 : Nat) (tab : Option Nat), s.inReset = false →
      s.prs[e] = some ⟨.stream 3 j.id, t0, tab⟩ → s.stl.jobs.getD 3 [] = [j] → (∀ i ∈ j.items, i.ctx = none) →
      Completes (.pressFault e) s fun u =>
        u.prs[e] = none ∧ u.pressRetired e = true ∧ CountsOne (F.PRS_CNT_COUNT 8) s u ∧ Detects 0x0B e s u ∧ u.stl.jobs.getD 3 [] = []
          ∧ u.get (F.PRS_CNT_COUNT 4) = min (s.get (F.PRS_CNT_COUNT 4) + j.items.length) (2 ^ 32 - 1)
          ∧ u.get (F.PRS_CNT_COUNT 3) = s.get (F.PRS_CNT_COUNT 3))
    ∧ (∀ (s : State) (src : Src) (v : Word), s.inReset = false → s.hears src = true →
      (s.get F.PRS_HSIZE_SIZE ≤ F.PRS_HPROD_PROD.of v → Completes (.pressHprodWrite src v) s fun u => Ignored s u)
        ∧ (F.PRS_HPROD_PROD.of v < s.get F.PRS_HSIZE_SIZE → Completes (.pressHprodWrite src v) s fun u =>
          u.get F.PRS_HPROD_PROD = F.PRS_HPROD_PROD.of v ∧ KeepsRegs (fun a => a == F.PRS_HPROD_PROD.off) s u ∧ { u with regs := s.regs } = s))
    ∧ ∀ (s : State) (src : Src) (vc : PVc) (v w : Word) (n : Nat), s.inReset = false → s.hears src = true → n = (if vc = .vc0 then 0 else 3) →
      w = v &&& 0xFF03FF1F#32 → w.getLsbD 3 = false →
      (bits w.toNat 24 8 = 0 ∨ bits w.toNat 8 10 = 0 ∨ 512 < bits w.toNat 8 10 →
        Completes (.streamPressConfig src vc v) s fun u => Ignored s u)
        ∧ (bits w.toNat 24 8 ≠ 0 → bits w.toNat 8 10 ≠ 0 → bits w.toNat 8 10 ≤ 512 → s.stl.bufs.getD n [] = [] →
          Completes (.streamPressConfig src vc v) s fun u =>
            u.reg (scfgOff n) = w ∧ u.stl.jobs = s.stl.jobs ∧ u.stl.bufs.getD n [] = []
              ∧ KeepsRegs (fun a => a == scfgOff n || a == (F.STL_BUF_BYTES n).off) s u
              ∧ u.mem = s.mem ∧ u.pool = s.pool ∧ u.seq = s.seq)

/-! ### The stream link -/

/-- A lane goes from PLL to DETECT, TRAIN with its preset, ANNOUNCE with capability messages and ACTIVE, which brings the port up; a receive
lane moves between its stages; a valid capability message names the partner and its third repetition activates the lane; reports and electrical
idle follow; RETRAIN puts every TX lane at PLL and every RX lane at WAIT (R440 to R451). R440 is followed for RETRAIN where the text of
STL_CTRL says DETECT (log 81).
Points that the spec leaves open follow the model's choices (log 81). -/
def Obligations.LinkLanes : Prop :=
  (∀ (s : State) (l : Fin 4), s.inReset = false → (s.txLane l).stage = .pll → s.is F.TBS_STAT_SLEEP = false →
    Completes (.lanePllLock l) s fun u =>
      u.txLane l = { s.txLane l with stage := .detect } ∧ (∀ k : Fin 4, k ≠ l → u.txLane k = s.txLane k)
        ∧ { u with stl := { u.stl with tx := s.stl.tx } } = s)
    ∧ (∀ (s : State) (l : Fin 4), s.inReset = false → (s.txLane l).stage = .detect →
      Completes (.receiverDetect l false) s fun u =>
        bit (u.get F.STL_LANES_TXDET) l = false ∧ CountsOne (F.STL_CNT_COUNT 10) s u ∧ { u with regs := s.regs } = s)
    ∧ (∀ (s : State) (l : Fin 4), s.inReset = false → (s.txLane l).stage = .detect → s.synd = [] →
      Completes (.receiverDetect l true) s fun u =>
        bit (u.get F.STL_LANES_TXDET) l = true
          ∧ (s.solo = true → s.stl.presetsWait = true → { u with regs := s.regs } = s)
          ∧ (s.solo = false ∨ s.stl.presetsWait = false → s.presetsValid = true →
            u.txLane l = { s.txLane l with stage := .train, preset := s.presetAt l }
              ∧ u.outs = s.outs ++ [.train l (bits (s.num (presetBase + 2) 4) (4 * l) 4)])
          ∧ (s.solo = false ∨ s.stl.presetsWait = false → s.presetsValid = false →
            u.txLane l = { s.txLane l with stage := .train, preset := ⟨none, 4, 12, 5, 6, 3⟩ } ∧ CountsOne (F.STL_CNT_COUNT 12) s u)
          ∧ (∀ k : Fin 4, k ≠ l → u.txLane k = s.txLane k) ∧ u.mem = s.mem ∧ u.emi = s.emi ∧ u.seq = s.seq)
    ∧ (∀ (s : State) (l : Fin 4), s.inReset = false → (s.txLane l).stage = .train →
      Completes (.trainEnd l) s fun u =>
        u.txLane l = { s.txLane l with stage := .announce } ∧ (∀ k : Fin 4, k ≠ l → u.txLane k = s.txLane k)
          ∧ u.outs = s.outs ++ [.cap l (s.capMsg l)] ∧ { u with stl := { u.stl with tx := s.stl.tx }, outs := s.outs } = s)
    ∧ (∀ (s : State) (l : Fin 4) (t : Nat), s.inReset = false → (s.txLane l).stage = .announce → bit (s.get F.STL_LANES_TXDOWN) l = false →
      s.stl.losses = [] →
      Completes (.announceEnd l t) s fun u =>
        (u.txLane l).stage = .active ∧ (∀ k : Fin 4, k ≠ l → u.txLane k = s.txLane k) ∧ bit (u.get F.STL_LANES_TXUSE) l = true
          ∧ (s.get F.STL_STAT_TXST = 0 →
            u.get F.STL_STAT_TXST = 1 ∧ u.is F.SYS_STAT_STLUP = true ∧ u.stl.granted = s.is F.STL_CFG_CMODE
              ∧ u.get (F.STL_GRANT_GRANT 0) = 0 ∧ u.get (F.STL_USED_USED 0) = 0)
          ∧ (s.get F.STL_STAT_TXST ≠ 0 → u.get F.STL_STAT_TXST = s.get F.STL_STAT_TXST)
          ∧ u.mem = s.mem ∧ u.emi = s.emi ∧ u.seq = s.seq ∧ u.pool = s.pool)
    ∧ (∀ (s : State) (l : Fin 4), s.inReset = false → (s.txLane l).stage = .announce →
      exec (.capSend l) s = .next { s with outs := s.outs ++ [.cap l (s.capMsg l)] })
    ∧ (∀ (s : State) (l : Fin 4), s.inReset = false → (s.txLane l).stage = .active → s.get F.STL_STAT_TXST ≠ 2 → (s.txLane l).cur = none →
      Completes (.capSend l) s fun u =>
        u.outs = s.outs ++ [.cap l (s.capMsg l)] ∧ { u with stl := { u.stl with lastTx := s.stl.lastTx }, outs := s.outs } = s)
    ∧ (∀ (s : State) (l : Fin 4), s.inReset = false → s.synd = [] → s.is F.TBS_STAT_SLEEP = false → s.stl.presetsWait = false →
      ∀ m ∈ ([(.signalDetect l, 0, 1), (.rxAdapted l, 1, 2), (.blockLock l, 2, 3), (.blockLock l, 5, 4), (.blockLockLoss l, 4, 1),
          (.signalLoss l, 4, 1), (.rxStageTimeout l, 1, 0), (.rxStageTimeout l, 2, 1), (.rxStageTimeout l, 3, 1), (.eidleReceive l, 4, 5),
          (.eidleRelockTimeout l, 5, 1)] : List (Instr × Nat × Nat)), s.rxStage l = m.2.1 →
        Completes m.1 s fun u =>
          u.rxStage l = m.2.2 ∧ (∀ k : Fin 4, k ≠ l → u.rxStage k = s.rxStage k ∧ u.rxLane k = s.rxLane k) ∧ u.stl.tx = s.stl.tx
            ∧ (m.1 = .rxStageTimeout l → CountsOne (F.STL_CNT_COUNT 9) s u)
            ∧ u.mem = s.mem ∧ u.emi = s.emi ∧ u.seq = s.seq ∧ u.pool = s.pool)
    ∧ (∀ (s : State) (l : Fin 4) (msg : Vector Byte 24), s.inReset = false → s.rxStage l = 3 →
      (capValid msg.toList = false → Completes (.capMessage l msg) s fun u =>
        (u.rxLane l).run = 0 ∧ u.rxStage l = 3 ∧ u.regs = s.regs ∧ { u with stl := { u.stl with rx := s.stl.rx } } = s)
        ∧ (capValid msg.toList = true → Completes (.capMessage l msg) s fun u =>
          u.is F.STL_STAT_UPV = true ∧ u.get F.STL_STAT_UPUID = hdrField msg.toList 2 2 % 2048
            ∧ u.is F.STL_STAT_UPGW = decide (hdrField msg.toList 1 1 = 1) ∧ u.stl.upSerial = hdrField msg.toList 10 8
            ∧ ((s.rxLane l).cap = msg.toList → 2 ≤ (s.rxLane l).run → u.rxStage l = 4)
            ∧ ((s.rxLane l).cap ≠ msg.toList ∨ (s.rxLane l).run < 2 → u.rxStage l = 3) ∧ u.stl.tx = s.stl.tx
            ∧ u.mem = s.mem ∧ u.emi = s.emi ∧ u.seq = s.seq))
    ∧ (∀ (s : State), s.inReset = false →
      (s.is F.STL_STAT_UPV = false → Completes .lanestatSend s fun u => u = s)
        ∧ (s.is F.STL_STAT_UPV = true → Completes .lanestatSend s fun u =>
          (∃ it : Item, u.stl.bufs.getD 2 [] = [it] ∧ it.entered = s.dt ∧ it.data.length = 8
            ∧ (∀ l : Fin 4, bit (hdrField it.data 0 1) l = (decide (s.rxStage l = 4) || decide (s.rxStage l = 5)))
            ∧ (∀ l : Fin 4, bit (hdrField it.data 1 1) l = decide (s.rxStage l ≠ 0))
            ∧ hdrField it.data 2 2 = s.get F.FLE_UID_UID)
          ∧ u.stl.tx = s.stl.tx ∧ u.stl.rx = s.stl.rx ∧ { u with regs := s.regs, stl := s.stl } = s))
    ∧ (∀ (s : State) (active : BitVec 4) (t : Nat), s.inReset = false → s.stl.losses = [] →
      Completes (.lanestat active t) s fun u =>
        (∀ l : Fin 4, bit (u.get F.STL_LANES_TXDOWN) l = !active.getLsbD l)
          ∧ (∀ l : Fin 4, s.txUse l = true → active.getLsbD l = false → (u.txLane l).stage = .train)
          ∧ (∀ l : Fin 4, s.txUse l = false ∨ active.getLsbD l = true → u.txLane l = s.txLane l) ∧ u.emi = s.emi)
    ∧ (∀ (s : State) (t : Nat), s.inReset = false →
      Completes (.eidleEntry t) s fun u =>
        (s.is F.STL_CFG_EIEN = true → s.get F.STL_STAT_TXST = 1 → s.txBusy = false → s.rxWaiting = false →
          s.stl.lastTx + 1600 * s.get F.STL_EI_ENTRY ≤ u.dt →
          u.get F.STL_STAT_TXST = 2 ∧ u.stl.eiAt = u.dt ∧ u.outs = s.outs ++ (setBits 4 (s.get F.STL_LANES_TXUSE)).map .eidle)
          ∧ (s.is F.STL_CFG_EIEN = false ∨ s.txBusy = true ∨ s.rxWaiting = true → u.regs = s.regs ∧ u.stl = s.stl ∧ u.outs = s.outs)
          ∧ u.mem = s.mem ∧ u.emi = s.emi ∧ u.seq = s.seq ∧ u.stl.tx = s.stl.tx)
    ∧ (∀ (s : State) (t : Nat), s.inReset = false → s.get F.STL_STAT_TXST = 2 →
      Completes (.eidleExit t) s fun u =>
        (s.txBusy = true ∨ s.stl.eiAt + 1600 * s.get F.STL_EI_MAX ≤ u.dt →
          u.get F.STL_STAT_TXST = 1 ∧ u.stl.lastTx = u.dt
            ∧ u.outs = s.outs ++ (setBits 4 (s.get F.STL_LANES_TXUSE)).flatMap fun l => [.exitBurst l (64 * s.get F.STL_EI_FEB), .cap l (s.capMsg l)])
          ∧ (s.txBusy = false → u.dt < s.stl.eiAt + 1600 * s.get F.STL_EI_MAX → u.regs = s.regs ∧ u.stl = s.stl ∧ u.outs = s.outs)
          ∧ u.mem = s.mem ∧ u.emi = s.emi ∧ u.seq = s.seq ∧ u.stl.tx = s.stl.tx)
    ∧ ∀ (s : State) (src : Src), s.inReset = false → s.hears src = true →
      (s.is F.TBS_STAT_SLEEP = true → Completes (.retrain src) s fun u => u = s)
        ∧ (s.is F.TBS_STAT_SLEEP = false → Completes (.retrain src) s fun u =>
          (∀ l : Fin 4, (u.txLane l).stage = .pll ∧ (u.txLane l).preset = (s.txLane l).preset ∧ u.rxStage l = 0)
            ∧ u.get F.STL_LANES_TXUSE = 0 ∧ u.get F.STL_STAT_TXST = 0 ∧ u.emi = s.emi)

/-- A free lane starts the ready record frame of the highest rank, and one of VC1 is inserted where no lane is free; at its end its records
count as accepted and a context whose last record that was becomes free; a received frame is discarded, or forwarded in order; held frames
are released, forwarded or consumed in order, and missing ones declared lost; grants, management frames, held records and loss records
follow (R452 to R475). Points that the spec leaves open follow the model's choices (log 78 to 80, 95). -/
def Obligations.LinkTraffic : Prop :=
  (∀ (s : State) (l : Fin 4) (t : Nat) (it : Item), s.inReset = false → s.get F.STL_STAT_TXST = 1 → s.is F.STL_MTXIDX_SIZE = false →
    s.stl.fwd.getD 1 [] = [] → s.stl.jobs.getD 1 [] = [] → s.stl.bufs.getD 1 [] = [it] → it.hole = false → it.errs = 0#32 → it.slept = false →
    it.data.length ≤ 256 → s.txUse l = true →
    ((s.txLane l).cur = none →
      Completes (.frameTransmitStart l t) s fun u =>
        ∃ f : Frame, (u.txLane l).cur = some f ∧ f.vc = 1 ∧ f.kind = 0 ∧ f.src = s.get F.FLE_UID_UID ∧ f.dest = 0x800
          ∧ f.ttl = s.get F.STL_CFG_TTL ∧ f.age = 0 ∧ f.forwarded = false ∧ f.payload = it.data ∧ f.items = [it]
          ∧ u.outs = s.outs ++ [.frame l false (f.header (s.stl.seqTx.getD 1 0) u.dt) it.data (jobCrc it.data).toNat]
          ∧ u.stl.bufs.getD 1 [] = [] ∧ u.stl.seqTx.getD 1 0 = (s.stl.seqTx.getD 1 0 + 1) % 65536
          ∧ (∀ k : Fin 4, k ≠ l → u.txLane k = s.txLane k) ∧ u.mem = s.mem ∧ u.pool = s.pool)
      ∧ (s.insertLane = some l.val → (∀ k : Fin 4, s.txUse k = true → (s.txLane k).cur ≠ none) →
        Completes (.vc1Insert t) s fun u =>
          ∃ f : Frame, (u.txLane l).ins = some f ∧ (u.txLane l).cur = (s.txLane l).cur ∧ f.vc = 1 ∧ f.payload = it.data ∧ f.items = [it]
            ∧ u.outs = s.outs ++ [.frame l true (f.header (s.stl.seqTx.getD 1 0) u.dt) it.data (jobCrc it.data).toNat]
            ∧ u.stl.bufs.getD 1 [] = [] ∧ (∀ k : Fin 4, k ≠ l → u.txLane k = s.txLane k) ∧ u.mem = s.mem ∧ u.pool = s.pool))
    ∧ (∀ (s : State) (l : Fin 4) (t : Nat) (f : Frame) (it : Item) (c : Ctx), s.inReset = false → (s.txLane l).ins = none →
      (s.txLane l).cur = some f → f.mtx = false → f.items = [it] → it.ctx = some c.id → s.pool.ctxs = [c] → c.state = .retained →
      Completes (.frameSent l t) s fun u =>
        (u.txLane l).cur = none ∧ CountsOne (F.STL_CNT_COUNT 0) s u ∧ u.stl.lastTx = u.dt ∧ (c.owed ≤ 1 → u.pool.ctxs = [])
          ∧ (1 < c.owed → u.pool.ctxs = [{ c with owed := c.owed - 1 }]) ∧ (∀ k : Fin 4, k ≠ l → u.txLane k = s.txLane k)
          ∧ u.stl.bufs = s.stl.bufs ∧ u.emi = s.emi ∧ u.seq = s.seq)
    ∧ (∀ (s : State) (l : Fin 4) (t : Nat) (f : Frame), s.inReset = false → (s.txLane l).ins = some f → f.mtx = false → f.items = [] →
      Completes (.frameSent l t) s fun u =>
        (u.txLane l).ins = none ∧ (u.txLane l).cur = (s.txLane l).cur ∧ CountsOne (F.STL_CNT_COUNT 0) s u
          ∧ u.mem = s.mem ∧ u.pool = s.pool ∧ u.emi = s.emi)
    ∧ (∀ (s : State) (l : Fin 4) (fr : RxFrame) (t vc seq : Nat), s.inReset = false → s.rxStage l = 4 → vc = fr.field 0 1 % 4 →
      seq = fr.field 3 2 →
      (fr.hcrcOk = false → Completes (.frameReceive l fr t) s fun u =>
        CountsOne (F.STL_CNT_COUNT 2) s u ∧ { u with regs := s.regs, dt := s.dt } = s)
        ∧ (fr.hcrcOk = true → fr.len ≤ 4096 → fr.ok = true → fr.field 7 2 ≠ s.get F.FLE_UID_UID → fr.field 9 2 ≠ s.get F.FLE_UID_UID →
          fr.field 9 2 ≠ 0xFFF → s.mayRelease vc seq = true → s.stl.heldRx.getD vc [] = [] →
          (fr.field 5 1 ≤ 1 → Completes (.frameReceive l fr t) s fun u =>
            CountsOne (F.STL_CNT_COUNT 1) s u ∧ CountsOne (F.STL_CNT_COUNT 6) s u ∧ u.stl.fwd = s.stl.fwd
              ∧ u.mem = s.mem ∧ u.pool = s.pool)
          ∧ (1 < fr.field 5 1 → fr.field 11 2 ≤ s.get F.STL_HOR_HORIZON → fr.field 11 2 ≠ 65535 →
            s.fwdBytes vc + fr.payload.length ≤ fwdSize vc →
            Completes (.frameReceive l fr t) s fun u =>
              CountsOne (F.STL_CNT_COUNT 1) s u
                ∧ u.stl.fwd.getD vc [] = s.stl.fwd.getD vc [] ++ [{ fr.frame u.dt with ready := u.dt }]
                ∧ (∀ v, v ≠ vc → u.stl.fwd.getD v [] = s.stl.fwd.getD v []) ∧ u.stl.losses = s.stl.losses ∧ u.mem = s.mem ∧ u.pool = s.pool)))
    ∧ (∀ (s : State) (vc : BitVec 2) (t : Nat) (h : RxHeld) (f : Frame), s.inReset = false → s.stl.heldRx.getD vc.toNat [] = [h] →
      s.mayRelease vc.toNat h.seq = true → h.own = none → h.frame = some f → f.vc = vc.toNat →
      Completes (.frameRelease vc t) s fun u =>
        u.stl.heldRx.getD vc.toNat [] = [] ∧ u.stl.fwd.getD vc.toNat [] = s.stl.fwd.getD vc.toNat [] ++ [{ f with ready := u.dt }]
          ∧ { u with stl := { u.stl with heldRx := s.stl.heldRx, fwd := s.stl.fwd, expect := s.stl.expect }, dt := s.dt } = s)
    ∧ (∀ (s : State) (t : Nat) (h : RxHeld) (fr : RxFrame), s.inReset = false → s.stl.heldRx.getD 2 [] = [h] →
      s.mayRelease 2 h.seq = true → h.own = some fr → h.frame = none → fr.field 0 1 / 4 = 3 →
      1 ≤ (hdrField fr.payload 0 4 + 2 ^ 32 - s.get (F.STL_GRANT_GRANT 0)) % 2 ^ 32 →
      (hdrField fr.payload 0 4 + 2 ^ 32 - s.get (F.STL_GRANT_GRANT 0)) % 2 ^ 32 < 2 ^ 31 →
      Completes (.frameRelease 2 t) s fun u =>
        u.stl.heldRx.getD 2 [] = [] ∧ u.get (F.STL_GRANT_GRANT 0) = hdrField fr.payload 0 4 ∧ u.stl.fwd = s.stl.fwd ∧ u.mem = s.mem
          ∧ u.pool = s.pool ∧ u.emi = s.emi)
    ∧ (∀ (s : State) (vc : BitVec 2) (t e : Nat) (h : RxHeld) (f : Frame), s.inReset = false → s.stl.expect.getD vc.toNat none = some e →
      s.stl.heldRx.getD vc.toNat [] = [h] → s.mayRelease vc.toNat h.seq = false → h.frame = some f → s.stl.losses = [] →
      Completes (.frameLost vc t) s fun u =>
        CountsOne (F.STL_CNT_COUNT 8) s u ∧ u.stl.expect.getD vc.toNat none = some ((e + 1) % 65536)
          ∧ u.stl.losses.map (fun x => (x.cause, x.vc, x.frames)) = [(5, vc.toNat, 1)] ∧ u.stl.heldRx = s.stl.heldRx ∧ u.stl.fwd = s.stl.fwd
          ∧ u.mem = s.mem ∧ u.emi = s.emi)
    ∧ (∀ (s : State) (g h : Word) (d : Nat), s.inReset = false →
      d = (g.toNat + 2 ^ 32 - s.get (F.STL_GRANT_GRANT 0)) % 2 ^ 32 → h = s.reg (F.STL_GRANT_GRANT 1).off + 1#32 →
      Completes (.credit g h) s fun u =>
        (1 ≤ d → d < 2 ^ 31 → u.get (F.STL_GRANT_GRANT 0) = g.toNat ∧ u.stl.grants.getD 0 [] = s.stl.grants.getD 0 [] ++ [(s.dt, g.toNat)])
          ∧ (d = 0 ∨ 2 ^ 31 ≤ d → u.get (F.STL_GRANT_GRANT 0) = s.get (F.STL_GRANT_GRANT 0) ∧ CountsOne (F.STL_CNT_COUNT 12) s u)
          ∧ u.reg (F.STL_GRANT_GRANT 1).off = h ∧ u.mem = s.mem ∧ u.stl.tx = s.stl.tx ∧ u.stl.bufs = s.stl.bufs)
    ∧ (∀ (s : State) (fr : RxFrame) (t next a : Nat), s.inReset = false → s.isMgmt fr = true → s.get F.STL_MRXIDX_SIZE ≤ 64 → s.synd = [] →
      next = (s.get F.STL_MRXIDX_PROD + 1) % max 1 (s.get F.STL_MRXIDX_SIZE) →
      a = s.get F.STL_MRXBASE_BASE + 0x1020 * s.get F.STL_MRXIDX_PROD →
      (s.is F.STL_MRXIDX_SIZE = false ∨ next = s.get F.STL_MRXIDX_CONS → Completes (.mgmtReceive fr t) s fun u =>
        CountsOne (F.STL_CNT_COUNT 11) s u ∧ { u with regs := s.regs, dt := s.dt } = s)
        ∧ (s.is F.STL_MRXIDX_SIZE = true → next ≠ s.get F.STL_MRXIDX_CONS → Completes (.mgmtReceive fr t) s fun u =>
          u.get F.STL_MRXIDX_PROD = next ∧ Raised 11 u ∧ u.num a 2 = fr.len ∧ u.num (a + 2) 2 = fr.field 7 2
            ∧ u.num (a + 8) 8 = u.dt % 2 ^ 64 ∧ u.bytes (a + 32) fr.payload.length = fr.payload
            ∧ (∀ b, (b < a ∨ a + 32 + fr.payload.length ≤ b) → u.byte b = s.byte b)
            ∧ { u with regs := s.regs, dt := s.dt, mem := s.mem, outs := s.outs, hifx := s.hifx } = s))
    ∧ (∀ (s : State) (vc : BitVec 2) (t : Nat) (it : Item), s.inReset = false → s.stl.held.getD vc.toNat [] = [it] →
      (s.hasRoom vc.toNat it.data.length = true → Completes (.recordPathResume vc t) s fun u =>
        u.stl.held.getD vc.toNat [] = [] ∧ u.bufItems vc.toNat = s.bufItems vc.toNat ++ [{ it with entered := u.dt }]
          ∧ u.mem = s.mem ∧ u.pool = s.pool ∧ u.emi = s.emi)
        ∧ (s.hasRoom vc.toNat it.data.length = false → Completes (.recordPathResume vc t) s fun u => { u with dt := s.dt } = s))
    ∧ ∀ (s : State) (t : Nat) (x : Loss) (v : Nat), s.inReset = false → s.stl.losses = [x] → x.cause ≠ 1 → x.vc < 4 →
      v = (if x.vc = 2 then 3 else x.vc) → s.stl.held.getD v [] = [] → s.hasRoom v 32 = true →
      Completes (.lossWindowEnd t) s fun u =>
        u.stl.losses = []
          ∧ (∃ it : Item, u.bufItems v = s.bufItems v ++ [it] ∧ it.entered = u.dt ∧ it.data.length = 32 ∧ hdrField it.data 0 1 = 8
            ∧ hdrField it.data 1 1 = x.cause % 256 ∧ hdrField it.data 8 4 = x.frames % 2 ^ 32 ∧ hdrField it.data 12 4 = x.items % 2 ^ 32)
          ∧ u.mem = s.mem ∧ u.pool = s.pool ∧ u.emi = s.emi

/-! ### The host interface -/

/-- A read and a write through BAR2, a write of the broadcast window reaching every engine and a read of it reaching engine 0; doorbells
move the ring indices they may move; a queue starts empty and stops once it has no command; the next command, of the queue whose turn it is,
is checked and started, does what its opcode says, and its completion is written where the ring has room; a failed read of host memory ends
a command with HOSTERR (R367, R484, R491 to R504, R511). Points that the spec leaves open follow the model's choices (log 69, 82, 83, 104).
-/
def Obligations.QueuesAndCommands : Prop :=
  (∀ (s : State) (src : Src) (off : BitVec 28) (len : Nat), s.inReset = false → s.hears src = true →
    (bar2Shape off.toNat len = true → rangeRegion off.toNat len ≠ none → s.synd = [] → (∀ i, i < len → unspecified (off.toNat + i) = false) →
      Completes (.bar2Read src off len) s fun u => u.lastRead = s.bytes (readAt off.toNat) len ∧ { u with lastRead := s.lastRead } = s)
      ∧ (bar2Shape off.toNat len = false ∨ rangeRegion off.toNat len = none →
        Completes (.bar2Read src off len) s fun u =>
          u.lastRead = List.replicate len 0#8 ∧ CountsOne F.SYS_IGNORED_COUNT s u ∧ Raised 9 u ∧ u.mem = s.mem ∧ u.seq = s.seq))
    ∧ (∀ (s : State) (src : Src) (off : BitVec 28) (data : List Byte) (r : Bar2Region), s.inReset = false → s.hears src = true →
      rangeRegion off.toNat data.length = some r → bar2Shape off.toNat data.length = true →
      (r.readOnly = true ∨ s.anyRefused off.toNat data.length = true → Completes (.bar2Write src off data) s fun u => Ignored s u)
        ∧ (r.readOnly = false → (∀ i, i < data.length → s.byteDest (off.toNat + i) = .memory) → s.synd = [] →
          Completes (.bar2Write src off data) s fun u =>
            u.bytes off.toNat data.length = data ∧ (∀ a, (a < off.toNat ∨ off.toNat + data.length ≤ a) → u.byte a = s.byte a)
              ∧ KeepsRegs (fun a => a == F.DEC_STAT_VALID0.off) s u ∧ { u with regs := s.regs, mem := s.mem } = s)
        ∧ (r = .broadcast → s.anyRefused off.toNat data.length = false → s.solo = false → s.synd = [] →
          Completes (.bar2Write src off data) s fun u =>
            (∀ n : Fin 16, u.bytes (peBase n + (off.toNat - 0x300000)) data.length = data) ∧ { u with mem := s.mem } = s))
    ∧ (∀ (s : State) (src : Src) (q : Fin 8) (v : Word) (n : Nat), s.inReset = false → s.hears src = true → n = s.get (F.HIF_QCFG_SIZE q) → n ≤ 4096 →
      (s.solo = true → Completes (.sqDoorbell src q v) s fun u => Ignored s u)
        ∧ (s.solo = false → s.is (F.HIF_QCFG_EN q) = false ∨ n ≤ v.toNat →
          Completes (.sqDoorbell src q v) s fun u =>
            CountsOne F.SYS_IGNORED_COUNT s u ∧ CountsOne (F.HIF_CNT_COUNT 3) s u ∧ u.reg (F.HIF_SQSTAT_TAIL q).off = s.reg (F.HIF_SQSTAT_TAIL q).off)
        ∧ (s.solo = false → s.is (F.HIF_QCFG_EN q) = true → v.toNat < n →
          ringDist (s.get (F.HIF_SQSTAT_TAIL q)) (s.get (F.HIF_SQSTAT_HEAD q)) n ≤ ringDist v.toNat (s.get (F.HIF_SQSTAT_HEAD q)) n →
          Completes (.sqDoorbell src q v) s fun u =>
            u.get (F.HIF_SQSTAT_TAIL q) = v.toNat ∧ u.get (F.HIF_SQSTAT_HEAD q) = s.get (F.HIF_SQSTAT_HEAD q)
              ∧ KeepsRegs (fun a => a == (F.HIF_SQSTAT_TAIL q).off) s u ∧ { u with regs := s.regs } = s)
        ∧ (s.solo = false → s.is (F.HIF_QCFG_EN q) = true → v.toNat < n →
          ringDist v.toNat (s.get (F.HIF_SQSTAT_HEAD q)) n < ringDist (s.get (F.HIF_SQSTAT_TAIL q)) (s.get (F.HIF_SQSTAT_HEAD q)) n →
          Completes (.sqDoorbell src q v) s fun u =>
            CountsOne F.SYS_IGNORED_COUNT s u ∧ CountsOne (F.HIF_CNT_COUNT 3) s u
              ∧ u.reg (F.HIF_SQSTAT_TAIL q).off = s.reg (F.HIF_SQSTAT_TAIL q).off))
    ∧ (∀ (s : State) (src : Src) (q : Fin 8) (v : Word) (n : Nat), s.inReset = false → s.hears src = true → n = s.get (F.HIF_QCFG_SIZE q) → n ≤ 4096 →
      s.solo = false →
      (s.is (F.HIF_QCFG_EN q) = false ∨ n ≤ v.toNat
          ∨ ringDist (s.get (F.HIF_CQSTAT_TAIL q)) (s.get (F.HIF_CQSTAT_HEAD q)) n < ringDist v.toNat (s.get (F.HIF_CQSTAT_HEAD q)) n →
        Completes (.cqDoorbell src q v) s fun u =>
          CountsOne F.SYS_IGNORED_COUNT s u ∧ CountsOne (F.HIF_CNT_COUNT 3) s u ∧ u.get (F.HIF_CQSTAT_HEAD q) = s.get (F.HIF_CQSTAT_HEAD q))
        ∧ (s.is (F.HIF_QCFG_EN q) = true → v.toNat < n →
          ringDist v.toNat (s.get (F.HIF_CQSTAT_HEAD q)) n ≤ ringDist (s.get (F.HIF_CQSTAT_TAIL q)) (s.get (F.HIF_CQSTAT_HEAD q)) n →
          Completes (.cqDoorbell src q v) s fun u =>
            u.get (F.HIF_CQSTAT_HEAD q) = v.toNat ∧ u.get (F.HIF_CQSTAT_TAIL q) = s.get (F.HIF_CQSTAT_TAIL q)
              ∧ u.get (F.HIF_CQSTAT_PHASE q) = s.get (F.HIF_CQSTAT_PHASE q) ∧ { u with regs := s.regs } = s))
    ∧ (∀ (s : State) (src : Src) (q : Fin 8) (v : Word) (n : Nat), s.inReset = false → s.hears src = true → n = (F.HIF_QCFG_SIZE q).of v →
      (s.solo = true ∨ n < 2 ∨ 4096 < n → Completes (.queueEnable src q v) s fun u => Ignored s u)
        ∧ (s.solo = false → 2 ≤ n → n ≤ 4096 → s.is (F.HIF_QCFG_EN q) = false →
          Completes (.queueEnable src q v) s fun u =>
            u.is (F.HIF_QCFG_EN q) = true ∧ u.get (F.HIF_QCFG_SIZE q) = n ∧ u.reg (F.HIF_SQSTAT_TAIL q).off = 0#32
              ∧ u.get (F.HIF_CQSTAT_HEAD q) = 0 ∧ u.get (F.HIF_CQSTAT_TAIL q) = 0 ∧ u.get (F.HIF_CQSTAT_PHASE q) = 1
              ∧ u.hifx.cmds[q] = none ∧ u.hifx.unsig[q] = 0 ∧ u.hifx.stopping[q] = false
              ∧ { u with regs := s.regs, hifx := s.hifx } = s))
    ∧ (∀ (s : State) (src : Src) (q : Fin 8) (v : Word), s.inReset = false → s.hears src = true → s.solo = false → s.is (F.HIF_QCFG_EN q) = true →
      (v ^^^ s.reg (F.HIF_QCFG_EN q).off) &&& 0x1FFFFFFF#32 = 0#32 →
      (s.hifx.cmds[q] = none → Completes (.queueDisable src q v) s fun u =>
        u.is (F.HIF_QCFG_EN q) = false ∧ u.hifx.stopping[q] = false ∧ u.is (F.HIF_SQSTAT_BUSY q) = false
          ∧ { u with regs := s.regs, hifx := s.hifx } = s)
        ∧ (s.hifx.cmds[q] ≠ none → Completes (.queueDisable src q v) s fun u =>
          u.is (F.HIF_QCFG_EN q) = true ∧ u.hifx.stopping[q] = true ∧ u.hifx.cmds = s.hifx.cmds ∧ u.is (F.HIF_SQSTAT_BUSY q) = true
            ∧ { u with regs := s.regs, hifx := s.hifx } = s))
    ∧ (∀ (s : State) (q : Fin 8) (e : Vector Byte 64) (h : Nat), s.inReset = false → s.is (F.HIF_QCFG_EN q) = true →
      s.hifx.stopping[q] = false → s.hifx.cmds[q] = none → h = s.get (F.HIF_SQSTAT_HEAD q) → h ≠ s.get (F.HIF_SQSTAT_TAIL q) →
      s.mayDma = true → s.cmdsRunning < 4 → s.queueTurn q = true → s.get (F.HIF_QCFG_SIZE q) ≤ 4096 →
      (s.cmdOk e.toList = true → Completes (.commandStart q e) s fun u =>
        u.hifx.cmds[q] = some ⟨entryField e.toList 0 1, entryField e.toList 4 4, entryField e.toList 8 8, entryField e.toList 16 4,
            entryField e.toList 20 4, entryField e.toList 24 4, 0, none⟩
          ∧ u.get (F.HIF_SQSTAT_HEAD q) = (h + 1) % max 1 (s.get (F.HIF_QCFG_SIZE q)) ∧ u.is (F.HIF_SQSTAT_BUSY q) = true
          ∧ u.hifx.turn = (q + 1) % 8 ∧ u.outs = s.outs ∧ u.mem = s.mem)
        ∧ (s.cmdOk e.toList = false → Completes (.commandStart q e) s fun u =>
          u.hifx.cmds = s.hifx.cmds ∧ u.get (F.HIF_SQSTAT_HEAD q) = (h + 1) % max 1 (s.get (F.HIF_QCFG_SIZE q))
            ∧ CountsOne F.SYS_IGNORED_COUNT s u ∧ u.get F.SYS_IGNLAST_KIND = 4 ∧ u.mem = s.mem))
    ∧ (∀ (s : State) (q : Fin 8) (c : QueueCmd), s.inReset = false → s.hifx.cmds[q] = some c → c.done = none → s.hifx.d3 = false →
      (c.opcode = 1 → Completes (.commandNop q) s fun u =>
        u.hifx.cmds[q] = some { c with done := some 1 } ∧ u.mem = s.mem ∧ u.outs = s.outs)
        ∧ (∀ data : List Byte, c.opcode = 2 → s.mayDma = true → data.length = c.len → c.len % 4 = 0 → s.synd = [] →
          (∀ i, i < c.len → s.byteDest (c.doff + i) = .memory) →
          Completes (.commandWrite q data) s fun u =>
            u.bytes c.doff c.len = data ∧ (∀ a, (a < c.doff ∨ c.doff + c.len ≤ a) → u.byte a = s.byte a)
              ∧ u.hifx.cmds[q] = some { c with done := some 1 } ∧ u.outs = s.outs)
        ∧ (∀ (data : List Byte) (err : DmaErr), c.opcode = 2 → s.mayDma = true → data.length < c.len → data.length % 4 = 0 → s.synd = [] →
          (∀ i, i < data.length → s.byteDest (c.doff + i) = .memory) →
          Completes (.dmaError q ⟨data, err⟩) s fun u =>
            u.bytes c.doff data.length = data ∧ (∀ a, (a < c.doff ∨ c.doff + data.length ≤ a) → u.byte a = s.byte a)
              ∧ u.hifx.cmds[q] = some { c with done := some 2 } ∧ CountsOne (F.HIF_CNT_COUNT 1) s u
              ∧ (err = .aborted → (u.cfg 1).getLsbD 28 = true ∧ u.outs = s.outs) ∧ (err = .timeout → (u.cfg 65).getLsbD 14 = true))
        ∧ (c.opcode = 4 → s.synd = [] → (∀ i, i < c.len → s.byteDest (c.doff + i) = .memory) → c.len % 4 = 0 →
          Completes (.commandFill q) s fun u =>
            u.bytes c.doff c.len = ((List.range (c.len / 4)).flatMap fun _ => leBytes 4 c.pattern)
              ∧ (∀ a, (a < c.doff ∨ c.doff + c.len ≤ a) → u.byte a = s.byte a)
              ∧ u.hifx.cmds[q] = some { c with done := some 1 } ∧ u.outs = s.outs)
        ∧ (c.opcode = 3 → s.mayDma = true → s.synd = [] → (∀ i, i < c.len → unspecified (c.doff + i) = false) → 1 ≤ c.len →
          Completes (.commandRead q) s fun u =>
            u.outs = s.outs ++ [.hostWrite c.haddr (s.bytes (readAt c.doff) c.len) false false]
              ∧ u.hifx.cmds[q] = some { c with done := some 1, result := 0 }
              ∧ u.mem = s.mem ∧ u.free = s.free))
    ∧ (∀ (s : State) (q : Fin 8) (c : QueueCmd) (st tail next : Nat), s.inReset = false → s.hifx.cmds[q] = some c → c.done = some st →
      s.mayDma = true → tail = s.get (F.HIF_CQSTAT_TAIL q) → next = (tail + 1) % max 1 (s.get (F.HIF_QCFG_SIZE q)) →
      next ≠ s.get (F.HIF_CQSTAT_HEAD q) → s.get (F.HIF_QCFG_SIZE q) ≤ 4096 → s.hifx.stopping[q] = false → s.get (F.HIF_QCFG_CQAGG q) = 0 →
      Completes (.completionWrite q) s fun u =>
        u.outs = s.outs ++ [.hostWrite (s.get (F.HIF_CQBASELO q) + 2 ^ 32 * s.get (F.HIF_CQBASEHI q) + 16 * tail)
            (leBytes 4 c.tag ++ leBytes 2 (s.get (F.HIF_SQSTAT_HEAD q)) ++ leBytes 1 q ++ leBytes 1 st ++ leBytes 4 c.result
              ++ leBytes 3 0 ++ leBytes 1 (s.get (F.HIF_CQSTAT_PHASE q))) false false]
          ∧ u.get (F.HIF_CQSTAT_TAIL q) = next
          ∧ (u.get (F.HIF_CQSTAT_PHASE q) = if next = 0 then 1 - s.get (F.HIF_CQSTAT_PHASE q) else s.get (F.HIF_CQSTAT_PHASE q))
          ∧ u.hifx.cmds[q] = none ∧ u.hifx.unsig[q] = s.hifx.unsig[q] + 1 ∧ CountsOne (F.HIF_CNT_COUNT 0) s u
          ∧ u.is (F.HIF_SQSTAT_BUSY q) = false ∧ u.mem = s.mem)
    ∧ ∀ (s : State) (q : Fin 8), s.inReset = false →
      (s.is (F.HIF_QCFG_CQTIME q) = true → s.hifx.unsig[q] ≠ 0 → s.solo = false →
        Completes (.cqMessageTimer q) s fun u =>
          u.hifx.unsig[q] = 0
            ∧ (s.mayMsg = true → bit s.hifx.mask q = false → u.outs = s.outs ++ [s.message q] ∧ CountsOne (F.HIF_CNT_COUNT 4) s u)
            ∧ (s.mayMsg = false ∨ bit s.hifx.mask q = true → bit u.hifx.pba q = true ∧ u.outs = s.outs) ∧ u.mem = s.mem)
        ∧ (s.is (F.HIF_QCFG_CQTIME q) = false ∨ s.hifx.unsig[q] = 0 → Completes (.cqMessageTimer q) s fun u => u = s)

/-- HIF_EVEN sends one message for each enabled cause that is already pending; a link that trains shows in HIF_STAT and PCIEUP; hot reset
puts the HIF registers and the configuration space at reset; in D3hot, without Bus Master Enable and while MSI-X is off messages wait, and
go when they may; unmasking a vector sends its held message; in SOLO the link does not train and BAR4 writes are ignored; in D3hot, and
while Memory Space Enable is 0, memory requests of the host are unsupported; BAR4 holds the MSI-X table and shows the mask and the held
messages, and a write of another shape or place is ignored; the class code reads in configuration space (R3, R479, R481, R486 to R490, R508
to R510). Where the bits of configuration space and of the table stand is the family's (log 11, 104). Points that the spec leaves open
follow the model's choices (log 11, 84, 104). -/
def Obligations.HostEvents : Prop :=
  (∀ (s : State) (src : Src) (v : Word) (rise : Nat), s.inReset = false → s.hears src = true →
    rise = (v &&& 0x3FFF00#32 &&& ~~~(s.reg F.HIF_EVEN_EN.off) &&& s.reg F.HIF_EVSTAT_CAUSE.off &&& 0x3FFE00#32).toNat →
    (s.solo = true → Completes (.eventEnableWrite src v) s fun u => Ignored s u)
      ∧ (s.solo = false → Completes (.eventEnableWrite src v) s fun u =>
        u.reg F.HIF_EVEN_EN.off = v &&& 0x3FFF00#32 ∧ u.reg F.HIF_EVSTAT_CAUSE.off = s.reg F.HIF_EVSTAT_CAUSE.off
          ∧ (s.mayMsg = true → s.hifx.mask = 0 → u.outs = s.outs ++ (setBits 22 rise).map s.message)
          ∧ (rise = 0 → u.outs = s.outs ∧ u.hifx = s.hifx) ∧ { u with regs := s.regs, outs := s.outs, hifx := s.hifx } = s))
    ∧ (∀ (s : State) (speed width : BitVec 4), s.inReset = false →
      (s.solo = true ∨ speed = 0#4 ∨ 3#4 < speed ∨ width.toNat ∉ [1, 2, 4, 8] → Completes (.pcieLinkUp speed width) s fun u => u = s)
        ∧ (s.solo = false → speed ≠ 0#4 → speed ≤ 3#4 → width.toNat ∈ [1, 2, 4, 8] →
          Completes (.pcieLinkUp speed width) s fun u =>
            u.get F.HIF_STAT_SPEED = speed.toNat ∧ u.get F.HIF_STAT_WIDTH = width.toNat ∧ u.is F.HIF_STAT_UP = true
              ∧ u.is F.SYS_STAT_PCIEUP = true ∧ { u with regs := s.regs, outs := s.outs, hifx := s.hifx } = s))
    ∧ (∀ (s : State), s.inReset = false → FMap.wf resetVal s.regs = true →
      (s.solo = true → Completes .hotReset s fun u => u = s)
        ∧ (s.solo = false → Completes .hotReset s fun u =>
          u.hifx = { State.reset.hifx with table := s.hifx.table, mask := s.hifx.mask } ∧ (∀ a, 0x4000 ≤ a → a < 0x8000 →
          u.reg a = resetVal a) ∧ u.is F.SYS_STAT_PCIEUP = false
            ∧ KeepsRegs (fun a => a == F.SYS_STAT_PCIEUP.off || (decide (0x4000 ≤ a) && decide (a < 0x8000))) s u
            ∧ { u with regs := s.regs, hifx := s.hifx } = s))
    ∧ (∀ (s : State), s.inReset = false →
      (s.solo = true → ∀ b, Completes (.powerStateChange b) s (fun u => u = s) ∧ Completes (.bmeChange b) s fun u => u = s)
        ∧ (s.solo = false → Completes (.powerStateChange true) s fun u =>
          u.hifx = { s.hifx with d3 := true } ∧ u.is F.HIF_STAT_L1 = s.is F.HIF_STAT_UP ∧ KeepsRegs (fun a => a == F.HIF_STAT_L1.off) s u
            ∧ { u with regs := s.regs, hifx := s.hifx } = s)
        ∧ (s.solo = false → Completes (.bmeChange false) s fun u =>
          u.hifx = { s.hifx with bme := false } ∧ { u with hifx := s.hifx } = s)
        ∧ (s.solo = false → Completes (.powerStateChange false) s fun u =>
          u.hifx.d3 = false ∧ u.is F.HIF_STAT_L1 = false ∧ u.hifx.bme = s.hifx.bme ∧ u.hifx.cmds = s.hifx.cmds
            ∧ (s.hifx.bme = true → s.msixOn = true → s.hifx.mask = 0 → u.outs = s.outs ++ (setBits 32 s.hifx.pba).map s.message)
            ∧ { u with regs := s.regs, outs := s.outs, hifx := s.hifx } = s)
        ∧ (s.solo = false → Completes (.bmeChange true) s fun u =>
          u.hifx.bme = true ∧ u.hifx.d3 = s.hifx.d3 ∧ u.hifx.cmds = s.hifx.cmds
            ∧ (s.hifx.d3 = false → s.msixOn = true → s.hifx.mask = 0 → u.outs = s.outs ++ (setBits 32 s.hifx.pba).map s.message)
            ∧ (s.hifx.d3 = true ∨ s.msixOn = false → u.outs = s.outs ∧ u.hifx.pba = s.hifx.pba)
            ∧ { u with regs := s.regs, outs := s.outs, hifx := s.hifx } = s))
    ∧ (∀ (s : State) (v : Fin 32), s.inReset = false → s.hears .host = true → s.solo = true → Completes (.msixUnmask v) s fun u => Ignored s u)
    ∧ (∀ (s : State) (v : Fin 32), s.inReset = false → s.hears .host = true → s.solo = false →
      (bit s.hifx.mask v = false → Completes (.msixUnmask v) s fun u => u = s)
        ∧ (bit s.hifx.mask v = true → Completes (.msixUnmask v) s fun u =>
          u.hifx.mask = s.hifx.mask - 2 ^ v.val ∧ (s.hifx.pba = 0 → u.outs = s.outs ∧ u.regs = s.regs)
            ∧ (s.mayMsg = true → s.hifx.pba = 2 ^ v.val →
              u.outs = s.outs ++ [s.message v] ∧ u.hifx.pba = 0 ∧ CountsOne (F.HIF_CNT_COUNT 4) s u)
            ∧ u.hifx.cmds = s.hifx.cmds ∧ { u with regs := s.regs, outs := s.outs, hifx := s.hifx } = s))
    ∧ (∀ (s : State) (off off2 : BitVec 28) (o : BitVec 20) (size len : Nat) (v : Word) (data : List Byte) (q : Fin 8) (n : Fin 32),
      s.inReset = false → s.hears .host = false →
      (∀ c ∈ [Instr.registerWrite .host (.bar0 o) size v, .registerWrite .host (.bar4 o) size v, .bar2Write .host off data, .sqDoorbell .host q v,
          .cqDoorbell .host q v, .msixUnmask n],
        exec c s = .next { s.unsupported with pending := s.pending })
        ∧ ∀ c ∈ [Instr.readClear .host (.bar0 o), .ignoredRead .host (.bar4 o) size, .bar2Read .host off2 len],
          exec c s = .next { s.unsupported with lastRead := [], pending := s.pending })
    ∧ (∀ (s : State) (src : Src) (o : BitVec 20) (v : Word) (n : Fin 32) (i : Fin 3), s.inReset = false → s.hears src = true → s.solo = false →
      o.toNat = 0x8000 + 16 * n + 4 * i →
      Completes (.registerWrite src (.bar4 o) 4 v) s fun u =>
        u.msixWord (4 * n + i) = (if i = 0 then v.toNat - v.toNat % 4 else v.toNat)
          ∧ (∀ k, k ≠ 4 * n.val + i → u.msixWord k = s.msixWord k) ∧ { u with hifx := { u.hifx with table := s.hifx.table } } = s)
    ∧ (∀ (s : State) (src : Src) (o : BitVec 20) (size : Nat) (v : Word), s.inReset = false → s.hears src = true →
      o.toNat < 0x10000 → s.solo = true ∨ size ≠ 4 ∨ o.toNat % 4 ≠ 0 ∨ (0x8200 ≤ o.toNat ∧ o.toNat < 0xC000) ∨ 0xC008 ≤ o.toNat →
      Completes (.registerWrite src (.bar4 o) size v) s fun u => Ignored s u ∧ u.get F.SYS_IGNLAST_WHERE = o.toNat)
    ∧ (∀ (s : State) (o : BitVec 20) (n : Fin 32), s.inReset = false → s.hears .host = true → s.solo = false →
      (o.toNat = 0x8000 + 16 * n + 12 → Completes (.readClear .host (.bar4 o)) s fun u =>
        u.lastRead = leBytes 4 (b01 (bit s.hifx.mask n)) ∧ { u with lastRead := s.lastRead } = s)
        ∧ (o.toNat = 0xC000 → Completes (.readClear .host (.bar4 o)) s fun u =>
          u.lastRead = leBytes 4 (s.hifx.pba % 2 ^ 32) ∧ { u with lastRead := s.lastRead } = s))
    ∧ ∀ s : State, s.inReset = false → s.solo = false →
      Completes (.readClear .host (.config 8#20)) s fun u =>
        (s.hifx.cfg = [] → u.lastRead = leBytes 4 (0x11800000 + s.get F.SYS_REV_MINOR)) ∧ { u with lastRead := s.lastRead } = s
/-! ### Bring-up, faults, units in company, registers -/

/-- The time base locks, and unlocks: that stops the FSQ, disarms, empties the timed queue, faults every enabled axis, and closes a live
context with SKIP at once where no loss record concerns it; the presets of a boot are placed where its image has none, a boot that passes
starts PE15 at its MANAGE entry, and one that fails gives the causes of both slots, which BOOTSTAT reports each 1.024 s; the key lock is set
for good and in HOSTED only; sleep stops lanes and time base but loses no conversion request, and WAKE or an RX signal ends it (R517 to
R530, R542). Points that the spec leaves open follow the model's choices (log 14, 56, 64, 85 to 88). -/
def Obligations.TimeBaseAndBoot : Prop :=
  (∀ (s : State) (us : BitVec 16), s.inReset = false →
    (s.is F.SYS_STAT_TBLOCK = true ∨ s.is F.TBS_STAT_SLEEP = true → Completes (.timebaseLock us) s fun u => u = s)
      ∧ (s.is F.SYS_STAT_TBLOCK = false → s.is F.TBS_STAT_SLEEP = false → Completes (.timebaseLock us) s fun u =>
        u.is F.SYS_STAT_TBLOCK = true ∧ u.is F.TBS_STAT_LOCK = true ∧ u.is F.TBS_STAT_WAKING = false ∧ u.get F.TBS_STAT_LOCKUS = us.toNat
          ∧ u.is F.SYS_FABRATE_VALID = false ∧ u.drv = { s.drv with edge := none }
          ∧ { u with regs := s.regs, outs := s.outs, hifx := s.hifx, flt := s.flt, drv := s.drv } = s))
    ∧ (∀ (s : State), s.inReset = false → s.is F.SYS_STAT_TBLOCK = true →
      Completes .timebaseUnlock s fun u =>
        u.is F.SYS_STAT_TBLOCK = false ∧ u.is F.TBS_STAT_LOCK = false ∧ u.is F.EMI_STAT_ARMED = false ∧ u.running = false ∧ u.emi.tq = []
          ∧ u.emi.pulses = [] ∧ u.emi.rowWait = none ∧ (∃ r ∈ u.flt.roots, r.cause = 1)
          ∧ ∀ a : Fin 4, s.is (F.AXS_CTRL_EN a) = true → u.is (F.AXS_STAT_FAULT a) = true)
    ∧ (∀ (s : State) (c : Ctx), s.inReset = false → s.is F.SYS_STAT_TBLOCK = true → s.emi.tq = [] → s.pool.ctxs = [c] → c.live = true →
      Completes .timebaseUnlock s fun u =>
        (s.lossPending c = false →
          u.pool.ctxs = [{ c with state := .closed, closing := false, placing := false, skip := true, skipSeen := true, atOnce := true }]
            ∧ u.pool.queue = s.pool.queue ++ [c.id])
          ∧ (s.lossPending c = true →
            u.pool.ctxs = [{ c with closing := true, skipSeen := true, atOnce := true }] ∧ u.pool.queue = s.pool.queue))
    ∧ (∀ (s : State) (slot0 slot1 : List Byte), s.inReset = false → s.booting = true → s.stl.presetsWait = true →
      Completes (.presetsPlaced slot0 slot1) s fun u =>
        (∀ k img, candidates slot0 slot1 = [(k, img)] → s.headerCause img = 0 → (∀ x ∈ imgSections img, x.type ≠ 1) →
          u.stl.presetsWait = false ∧ u.mem = s.mem ∧ u.regs = s.regs)
          ∧ (candidates slot0 slot1 = [] → u = s) ∧ u.pool = s.pool ∧ u.seq = s.seq ∧ u.stl.tx = s.stl.tx)
    ∧ (∀ (s : State) (slot0 slot1 : List Byte), s.inReset = false → s.booting = true →
      Completes (.bootComplete slot0 slot1) s fun u =>
        ((s.tryBoot (candidates slot0 slot1)).slot = none → u = s)
          ∧ ∀ k, (s.tryBoot (candidates slot0 slot1)).slot = some k →
            u.get F.TBS_BOOT_RESULT = k + 1 ∧ u.stl.presetsWait = false
              ∧ (u.pe 15).work = some ⟨5, none, 0, 0, none, [], [], none, []⟩)
    ∧ (∀ (s : State) (slot0 slot1 : List Byte), s.inReset = false → s.booting = true →
      Completes (.bootFail slot0 slot1) s fun u =>
        (magicOk slot0 = false → magicOk slot1 = false →
          u.get F.TBS_BOOT_RESULT = 3 ∧ u.get F.TBS_BOOT_CAUSE0 = 1 ∧ u.get F.TBS_BOOT_CAUSE1 = 1 ∧ u.stl.presetsWait = false
            ∧ { u with regs := s.regs, stl := { u.stl with presetsWait := s.stl.presetsWait } } = s)
          ∧ (magicOk slot0 = true → versionOk slot0 = true → s.headerCause slot0 ≠ 0 → magicOk slot1 = false →
            u.get F.TBS_BOOT_RESULT = 3 ∧ u.get F.TBS_BOOT_CAUSE0 = s.headerCause slot0 ∧ u.get F.TBS_BOOT_CAUSE1 = 1 ∧ u.mem = s.mem))
    ∧ (∀ (s : State) (t : Nat), s.inReset = false → s.get F.TBS_BOOT_RESULT = 3 → s.txActive = true → s.stl.held.getD 3 [] = [] →
      s.hasRoom 3 32 = true →
      (∀ b, s.stl.bootAt = some b → b + 1638400000 ≤ t) →
      Completes (.bootstatSend t) s fun u =>
        u.stl.bootAt = some t ∧ ∃ it : Item, u.bufItems 3 = s.bufItems 3 ++ [it] ∧ it.data.length = 32 ∧ hdrField it.data 0 1 = 9
          ∧ hdrField it.data 2 1 = s.get F.TBS_BOOT_CAUSE0 ∧ hdrField it.data 3 1 = s.get F.TBS_BOOT_CAUSE1
          ∧ hdrField it.data 4 8 = s.serial ∧ u.mem = s.mem ∧ u.pool = s.pool)
    ∧ (∀ (s : State) (t b : Nat), s.inReset = false → s.stl.bootAt = some b → t < b + 1638400000 →
      Completes (.bootstatSend t) s fun u => { u with dt := s.dt } = s)
    ∧ (∀ (s : State) (src : Src) (v : Word), s.inReset = false → s.hears src = true →
      (s.solo = true → Completes (.keyLock src v) s fun u =>
          CountsOne F.SYS_IGNORED_COUNT s u ∧ Raised 9 u ∧ u.is F.TBS_CFG_KLOCK = s.is F.TBS_CFG_KLOCK
            ∧ u.is F.TBS_CFG_RXWAKE = F.TBS_CFG_RXWAKE.isOf v
            ∧ KeepsRegs (fun a => a == F.SYS_IGNORED_COUNT.off || a == F.SYS_IGNLAST_KIND.off || messageReg a || a == F.TBS_CFG_KLOCK.off) s u
            ∧ { u with regs := s.regs, outs := s.outs, hifx := s.hifx } = s)
        ∧ (s.solo = false → Completes (.keyLock src v) s fun u =>
          u.is F.TBS_CFG_KLOCK = true ∧ u.is F.TBS_CFG_RXWAKE = F.TBS_CFG_RXWAKE.isOf v
            ∧ KeepsRegs (fun a => a == F.TBS_CFG_KLOCK.off) s u ∧ { u with regs := s.regs } = s))
    ∧ (∀ (s : State) (src : Src) (v : Word), s.inReset = false → s.hears src = true → s.is F.TBS_STAT_SLEEP = false →
      (F.TBS_CTRL_WAKE.isOf v = true ∨ s.maySleep = false → Completes (.sleep src v) s fun u => Ignored s u)
        ∧ (F.TBS_CTRL_WAKE.isOf v = false → s.maySleep = true → Completes (.sleep src v) s fun u =>
          u.is F.TBS_STAT_SLEEP = true ∧ u.is F.TBS_STAT_LOCK = false ∧ u.is F.SYS_STAT_TBLOCK = false ∧ CountsOne (F.TBS_CNT_COUNT 0) s u
            ∧ ∀ l : Fin 4, (u.txLane l).stage = .pll ∧ u.rxStage l = 0 ∧ (u.txLane l).cur = none
              ∧ u.sns.adcs[l].runs = [] ∧ ∀ q ∈ s.sns.adcs[l].reqs, q ∈ u.sns.adcs[l].reqs))
    ∧ ∀ (s : State), s.inReset = false → s.synd = [] →
      (∀ src, s.hears src = true → s.is F.TBS_STAT_SLEEP = true → Completes (.wake (.write src)) s fun u =>
        u.is F.TBS_STAT_SLEEP = false ∧ u.is F.TBS_STAT_WAKING = true ∧ u.get F.CAL_EPOCH_EPOCH = (s.get F.CAL_EPOCH_EPOCH + 1) % 2 ^ 32
          ∧ u.is F.CAL_TEMP_VALID = true
          ∧ u.emi = s.emi ∧ u.pool = s.pool ∧ u.seq = s.seq ∧ u.stl = s.stl)
        ∧ (∀ src, s.hears src = true → s.is F.TBS_STAT_SLEEP = false → Completes (.wake (.write src)) s fun u => Ignored s u)
        ∧ (s.is F.TBS_STAT_SLEEP = true → s.is F.TBS_CFG_RXWAKE = true → Completes (.wake .rxSignal) s fun u =>
          u.is F.TBS_STAT_SLEEP = false ∧ u.is F.TBS_STAT_WAKING = true ∧ u.stl = s.stl)
        ∧ (s.is F.TBS_STAT_SLEEP = false ∨ s.is F.TBS_CFG_RXWAKE = false → Completes (.wake .rxSignal) s fun u => u = s)

/-- A detected fault's record is written to the log and announced once its isolation has ended; a MEMORY root ends 1 ms after its detection;
the scrubber corrects a word, and an upset stays until the next read; the fabric rate is latched; marker edges, correlation windows and
report slots act once they are due (R33, R37, R39, R536 to R540, R565 to R574). Points that the spec leaves open follow the model's choices
(log 41, 89, 90, 92, 93). -/
def Obligations.FaultsAndCompany : Prop :=
  (∀ (s : State) (i t e : Nat) (d : FaultRec), s.inReset = false → s.flt.detected[i]? = some d → s.isolated d = true → s.is F.FLT_CFG_VC3 = false →
    e = s.get F.FLT_LOGIDX_PROD →
    Completes (.faultRecordWrite i t) s fun u =>
      (∀ k, k < 8 → (u.reg (0x5A000 + 32 * e + 4 * k)).toNat = leNat ((({ s with dt := u.dt }.faultBytes d).drop (4 * k)).take 4))
        ∧ u.get F.FLT_LOGIDX_PROD = (e + 1) % 256
        ∧ ((e + 1) % 256 = s.get F.FLT_LOGIDX_CONS →
          u.get F.FLT_LOGIDX_CONS = (s.get F.FLT_LOGIDX_CONS + 1) % 256 ∧ u.is F.FLT_LOGIDX_WRAP = true ∧ CountsOne (F.FLT_CNT_COUNT 2) s u)
        ∧ ((e + 1) % 256 ≠ s.get F.FLT_LOGIDX_CONS → u.get F.FLT_LOGIDX_CONS = s.get F.FLT_LOGIDX_CONS)
        ∧ CountsOne (F.FLT_CNT_COUNT 0) s u ∧ Raised 8 u ∧ u.flt.detected = s.flt.detected.eraseIdx i ∧ u.flt.seq = s.flt.seq + 1
        ∧ { u with regs := s.regs, flt := s.flt, outs := s.outs, hifx := s.hifx, dt := s.dt } = s)
    ∧ (∀ (s : State) (i t : Nat) (d : FaultRec), s.inReset = false → s.flt.detected[i]? = some d → s.isolated d = false →
      Completes (.faultRecordWrite i t) s fun u => { u with dt := s.dt } = s)
    ∧ (∀ (s : State) (m : Fin 8), s.inReset = false → (∀ r ∈ s.flt.roots, ¬(r.cause = 7 ∧ r.inst = m)) → exec (.rootExpire m) s = .next s)
    ∧ (∀ (s : State) (m : Fin 8) (x : Root), s.inReset = false → s.flt.roots.find? (fun r => r.cause = 7 && r.inst = m.val) = some x →
      Completes (.rootExpire m) s fun u =>
        (∀ r ∈ u.flt.roots, ¬(r.cause = 7 ∧ r.inst = m)) ∧ (∀ r ∈ s.flt.roots, ¬(r.cause = 7 ∧ r.inst = m) → r ∈ u.flt.roots)
          ∧ u.flt.detected = s.flt.detected ∧ KeepsRegs (fun a => a == F.FLT_STAT_ROOTS.off) s u
          ∧ (s.is F.SYS_STAT_TBLOCK = true → u.dt = max s.dt (x.t + 1600000)) ∧ { u with regs := s.regs, flt := s.flt, dt := s.dt } = s)
    ∧ (∀ (s : State) (a : BitVec 28) (m w : Nat) (es : List (Nat × Byte)), s.inReset = false → memIndex a.toNat = some m → w = a.toNat / 32 →
      rsDecode (s.errors w) = some es →
      (es = [] → Completes (.scrubRead (.bar2 a) [] false) s fun u => u = s)
        ∧ (es ≠ [] → Completes (.scrubRead (.bar2 a) [] false) s fun u =>
          u.errors w = 0#32 ∧ CountsOne (F.FLT_CORR_COUNT m) s u ∧ (∀ v, v ≠ w → u.errors v = s.errors v)
            ∧ (∀ b, b / 32 ≠ w → u.byte b = s.byte b) ∧ { u with regs := s.regs, mem := s.mem, synd := s.synd } = s))
    ∧ (∀ (s : State) (a : BitVec 28) (m w : Nat) (j : Fin 36) (b : Byte), s.inReset = false → memIndex a.toNat = some m → w = a.toNat / 32 →
      s.errors w = 0#32 →
      Completes (.scrubRead (.bar2 a) [(j, b)] true) s fun u =>
        u.errors w = errorSyndrome j b ∧ (j.val < 32 → u.byte (32 * w + j) = s.byte (32 * w + j) ^^^ b)
          ∧ (∀ x, (x ≠ 32 * w + j.val ∨ 32 ≤ j.val) → u.byte x = s.byte x) ∧ CountsOne (F.FLT_CNT_COUNT 8) s u
          ∧ { u with regs := s.regs, mem := s.mem, synd := s.synd } = s)
    ∧ (∀ (s : State) (a : BitVec 28), s.inReset = false → memIndex a.toNat = some 3 → rsDecode (s.errors (a.toNat / 32)) = none →
      Completes (.scrubRead (.bar2 a) [] false) s fun u =>
        CountsOne (F.FLT_UNC_COUNT 3) s u ∧ Detects 7 3 s u ∧ u.mem = s.mem ∧ u.synd = s.synd ∧ u.seq = s.seq ∧ u.pool = s.pool)
    ∧ (∀ (s : State) (n : BitVec 16), s.inReset = false →
      (s.is F.SYS_STAT_TBLOCK = false → Completes (.monitorWindowEnd n) s fun u => u = s)
        ∧ (s.is F.SYS_STAT_TBLOCK = true → Completes (.monitorWindowEnd n) s fun u =>
          u.get F.SYS_FABRATE_RATE = n.toNat ∧ u.is F.SYS_FABRATE_VALID = true
            ∧ u.get F.SYS_FABMIN_MIN = min (s.get F.SYS_FABMIN_MIN) n.toNat ∧ { u with regs := s.regs } = s))
    ∧ (∀ (s : State) (t : Nat), s.inReset = false → s.is F.SYS_STAT_TBLOCK = true →
      Completes (.syncEdge t) s fun u =>
        ((∀ l ∈ s.fle.syncs.head?, l + 1600000 * s.get F.FLE_SYNC_MINSP ≤ t) →
          u.fle = { s.fle with syncs := t :: s.fle.syncs } ∧ CountsOne (F.FLE_CNT_COUNT 0) s u)
          ∧ ((∃ l ∈ s.fle.syncs.head?, t < l + 1600000 * s.get F.FLE_SYNC_MINSP) → u.fle = s.fle ∧ CountsOne (F.FLE_CNT_COUNT 1) s u)
          ∧ { u with regs := s.regs, fle := s.fle, dt := s.dt } = s)
    ∧ (∀ (s : State) (w p n base : Nat), s.inReset = false → s.is F.SYS_STAT_TBLOCK = true → n = s.get F.FLE_SSIZE_SIZE →
      p = s.get F.FLE_SIDX_SPROD → base = s.get F.FLE_SBASE_BASE →
      Completes (.correlationWindowStart w) s fun u =>
        u.fle.window = w ∧ u.fle.captured = [] ∧ u.fle.syncs = s.fle.syncs ∧ u.fle.notices = s.fle.notices
          ∧ (n = 0 → { u with fle := s.fle, dt := s.dt } = s ∧ u.fle.drops = s.fle.drops)
          ∧ (n ≠ 0 → s.suspectFree = 0 → CountsOne (F.FLE_CNT_COUNT 3) s u ∧ u.fle.drops = s.fle.drops)
          ∧ (n ≠ 0 → s.suspectFree ≠ 0 → s.synd = [] →
            u.num (base + 16 * p) 8 = 16000000 * w % 2 ^ 64 ∧ u.num (base + 16 * p + 8) 4 = w % 2 ^ 32
              ∧ u.num (base + 16 * p + 12) 2 = min s.fle.drops 65535 ∧ u.get F.FLE_SIDX_SPROD = (p + 1) % n ∧ u.fle.drops = 0))
    ∧ ∀ (s : State) (n : Nat) (x : Notice), s.inReset = false → s.is F.SYS_STAT_TBLOCK = true → s.fle.notices = [x] →
      (n < x.window → Completes (.reportSlot n) s fun u => { u with dt := s.dt } = s)
        ∧ (x.window ≤ n → (x.kind = 1 ∨ x.kind = 2) → s.stl.held.getD 3 [] = [] → s.hasRoom 3 32 = true → Completes (.reportSlot n) s fun u =>
          u.fle.notices = [] ∧ CountsOne (F.FLE_CNT_COUNT (if x.kind = 1 then 8 else 9)) s u ∧ Raised 18 u
            ∧ u.get F.FLE_NLAST_WINDOW = x.window % 2 ^ 16 ∧ u.get F.FLE_NLAST_KIND = x.kind ∧ u.get F.FLE_NLAST_AUID = x.auid % 2 ^ 11
            ∧ (∃ it : Item, u.bufItems 3 = s.bufItems 3 ++ [it] ∧ it.data.length = 32 ∧ hdrField it.data 0 1 = 11
              ∧ hdrField it.data 1 1 = x.kind ∧ hdrField it.data 2 2 = x.auid % 2 ^ 16 ∧ hdrField it.data 4 2 = s.get F.FLE_UID_UID)
            ∧ u.mem = s.mem ∧ u.pool = s.pool)

/-- A write of a size other than 4, or to no register, is ignored; the log takes no write; six registers take their RW bits and are left
alone by a value out of range; a read returns the register, clears what is read-clear for the host and the Postmaster only, and latches a
counter's high word; other reads are ignored and give 0 (R9 to R13, R538, R606, R608). Points that the spec leaves open follow the model's
choices (log 26, 27). -/
def Obligations.RegisterAccess : Prop :=
  (∀ (s : State) (src : Src) (off : BitVec 20) (size : Nat) (v : Word), s.inReset = false → s.hears src = true →
    (size ≠ 4 ∨ off.toNat % 4 ≠ 0 →
      Completes (.registerWrite src (.bar0 off) size v) s fun u => Ignored s u ∧ u.get F.SYS_IGNLAST_WHERE = off.toNat)
      ∧ (size = 4 → off.toNat % 4 = 0 → 0x5A000 ≤ off.toNat → off.toNat < 0x5C000 →
        Completes (.registerWrite src (.bar0 off) size v) s fun u => u = s)
      ∧ (size = 4 → (off.toNat < 0x5A000 ∨ 0x5C000 ≤ off.toNat) → findReg off.toNat = none →
        Completes (.registerWrite src (.bar0 off) size v) s fun u => Ignored s u ∧ u.get F.SYS_IGNLAST_WHERE = off.toNat)
      ∧ (size = 4 → s.solo = true → 0x4000 ≤ off.toNat → off.toNat < 0x8000 →
        Completes (.registerWrite src (.bar0 off) size v) s fun u => Ignored s u))
    ∧ (∀ (s : State) (src : Src) (v : Word), s.inReset = false → s.hears src = true →
      ∀ m ∈ ([(0x34000, RegId.ctxCfg, 0x3#32), (0x3C000, .pntCfg, 0x1FF#32), (0x48000, .snsCfg, 0x3FF#32),
          (0x4C01C, .seqWtmo, 0xFFFFFFFF#32), (0x58000, .fltCfg, 0x3#32), (0x5C008, .fleSync, 0xFFFFFF#32)]
          : List (BitVec 20 × RegId × Word)),
        (badValue m.2.1 v = true → Completes (.registerWrite src (.bar0 m.1) 4 v) s fun u => Ignored s u)
          ∧ (badValue m.2.1 v = false → Completes (.registerWrite src (.bar0 m.1) 4 v) s fun u =>
            u.reg m.1.toNat = (s.reg m.1.toNat &&& ~~~m.2.2) ||| (v &&& m.2.2)
              ∧ KeepsRegs (fun a => a == m.1.toNat) s u ∧ { u with regs := s.regs } = s))
    ∧ (∀ (s : State) (rd : Reader) (off : BitVec 20) (d : RegDesc) (i j : Nat), s.inReset = false → (rd = .host → s.hears .host = true) →
      off.toNat % 4 = 0 →
      (off.toNat < 0x5A000 ∨ 0x5C000 ≤ off.toNat) → findReg off.toNat = some (d, i, j) → s.hifHidden off.toNat = false →
      d.id ∉ [RegId.sysDtlo, .seqTclo, .fleNstat, .fleSynclo, .prsStat, .hifStat] →
      Completes (.readClear rd (.bar0 off)) s fun u =>
        u.lastRead = leBytes 4 (s.reg off.toNat &&& ~~~(BitVec.ofNat 32 d.wo)).toNat
          ∧ (rd = .host ∨ rd = .postmaster →
            u.reg off.toNat = (s.reg off.toNat &&& ~~~(BitVec.ofNat 32 d.rc)) ||| (BitVec.ofNat 32 d.reset &&& BitVec.ofNat 32 d.rc))
          ∧ (rd ≠ .host → rd ≠ .postmaster → u.regs = s.regs) ∧ KeepsRegs (fun a => a == off.toNat) s u
          ∧ { u with regs := s.regs, lastRead := s.lastRead } = s)
    ∧ (∀ (s : State) (rd : Reader), s.inReset = false → (rd = .host → s.hears .host = true) →
      ∀ m ∈ ([(0x30, 0x34, s.dt), (0x4C010, 0x4C014, s.seq.fsq.tc), (0x5C00C, 0x5C010, s.fle.syncs.headD 0)]
          : List (BitVec 20 × Nat × Nat)),
        Completes (.latchingRead rd m.1) s fun u =>
          u.lastRead = leBytes 4 (m.2.2 % 2 ^ 32)
            ∧ (rd = .host ∨ rd = .postmaster → u.reg m.2.1 = BitVec.ofNat 32 (m.2.2 / 2 ^ 32))
            ∧ (rd ≠ .host → rd ≠ .postmaster → u.regs = s.regs) ∧ KeepsRegs (fun a => a == m.2.1) s u
            ∧ { u with regs := s.regs, lastRead := s.lastRead } = s)
    ∧ ∀ (s : State) (rd : Reader) (off : BitVec 20) (size : Nat), s.inReset = false → (rd = .host → s.hears .host = true) →
      size ≠ 4 ∨ off.toNat % 4 ≠ 0 ∨ (findReg off.toNat = none ∧ (off.toNat < 0x5A000 ∨ 0x5C000 ≤ off.toNat)) →
      Completes (.ignoredRead rd (.bar0 off) size) s fun u =>
        u.lastRead = leBytes size 0
          ∧ (rd = .host ∨ rd = .postmaster → CountsOne F.SYS_IGNORED_COUNT s u ∧ Raised 9 u ∧ u.get F.SYS_IGNLAST_WHERE = off.toNat)
          ∧ (rd ≠ .host → rd ≠ .postmaster → CountsOne (F.SEQ_CNT_COUNT 7) s u) ∧ u.mem = s.mem ∧ u.seq = s.seq
end

