-- ==== Sys2Proof/Laws/Keyed.lean ====
section
/-!
SUPPORT. Laws of keyed data in canonical form: a read after a write, the canonical form under a write, a filter and a map of values.
-/
namespace Sys2Proof.Machine

variable {β : Type} [DecidableEq β] (d : Nat → β)

omit [DecidableEq β] in
@[simp] theorem FMap.get_nil (a : Nat) : FMap.get d [] a = d a := rfl

omit [DecidableEq β] in
theorem FMap.get_dropLe (m : FMap β) (a b : Nat) (h : a < b) : FMap.get d (FMap.dropLe a m) b = FMap.get d m b := by
  induction m with
  | nil => rfl
  | cons x m ih =>
    obtain ⟨k, w⟩ := x
    by_cases hk : k ≤ a
    · have h1 : k ≠ b := by omega
      have h2 : ¬ b < k := by omega
      simp [FMap.dropLe, FMap.get, hk, h1, h2, ih]
    · simp [FMap.dropLe, hk]

omit [DecidableEq β] in
theorem FMap.get_dropLe_le (m : FMap β) (a b : Nat) (h : b ≤ a) : FMap.get d (FMap.dropLe a m) b = d b := by
  induction m with
  | nil => rfl
  | cons x m ih =>
    obtain ⟨k, w⟩ := x
    by_cases hk : k ≤ a
    · simp [FMap.dropLe, hk, ih]
    · have h1 : k ≠ b := by omega
      have h2 : b < k := by omega
      simp [FMap.dropLe, FMap.get, hk, h1, h2]

/-- A key reads what was last written to it, whatever the rest of the list. -/
theorem FMap.get_set_same (m : FMap β) (a : Nat) (v : β) : FMap.get d (FMap.set d m a v) a = v := by
  induction m with
  | nil => by_cases h : v = d a <;> simp [FMap.set, FMap.get, h]
  | cons x m ih =>
    obtain ⟨k, w⟩ := x
    by_cases hk : k < a
    · have h1 : k ≠ a := by omega
      have h2 : ¬ a < k := by omega
      simp [FMap.set, FMap.get, hk, h1, h2, ih]
    · by_cases h : v = d a
      · have := FMap.get_dropLe_le d ((k, w) :: m) a a (Nat.le_refl a)
        simp only [FMap.set, hk, if_false, h, if_true]
        exact this
      · simp [FMap.set, FMap.get, hk, h]

/-- A write leaves every other key alone. -/
theorem FMap.get_set_other (m : FMap β) (a b : Nat) (v : β) (h : b ≠ a) : FMap.get d (FMap.set d m a v) b = FMap.get d m b := by
  induction m with
  | nil =>
    by_cases hv : v = d a
    · simp [FMap.set, hv]
    · have : a ≠ b := fun e => h e.symm
      simp [FMap.set, FMap.get, hv, this]
  | cons x m ih =>
    obtain ⟨k, w⟩ := x
    by_cases hk : k < a
    · simp [FMap.set, FMap.get, hk, ih]
    · have hlow : b < a → FMap.get d ((k, w) :: m) b = d b := fun hb => by
        have h1 : k ≠ b := by omega
        have h2 : b < k := by omega
        simp [FMap.get, h1, h2]
      rcases Nat.lt_or_gt_of_ne h with hb | hb
      · rw [hlow hb]
        by_cases hv : v = d a
        · simp only [FMap.set, hk, if_false, hv, if_true]
          exact FMap.get_dropLe_le d _ a b (Nat.le_of_lt hb)
        · have : a ≠ b := by omega
          simp [FMap.set, FMap.get, hk, hv, this, hb]
      · by_cases hv : v = d a
        · simp only [FMap.set, hk, if_false, hv, if_true]
          exact FMap.get_dropLe d _ a b hb
        · have h1 : a ≠ b := by omega
          have h2 : ¬ b < a := by omega
          simp only [FMap.set, hk, if_false, hv, FMap.get, h1, h2]
          exact FMap.get_dropLe d _ a b hb

theorem FMap.get_set (m : FMap β) (a b : Nat) (v : β) :
    FMap.get d (FMap.set d m a v) b = if b = a then v else FMap.get d m b := by
  by_cases h : b = a
  · subst h; simp [FMap.get_set_same]
  · simp [h, FMap.get_set_other d m a b v h]

/-! ### The canonical form -/

theorem FMap.wfFrom_mono {a b : Nat} (m : FMap β) (h : a ≤ b) (hw : FMap.wfFrom d b m = true) : FMap.wfFrom d a m = true := by
  cases m with
  | nil => rfl
  | cons x m =>
    obtain ⟨k, w⟩ := x
    simp only [FMap.wfFrom, Bool.and_eq_true, decide_eq_true_eq] at hw ⊢
    exact ⟨⟨by omega, hw.1.2⟩, hw.2⟩

theorem FMap.wfFrom_dropLe (m : FMap β) (a b : Nat) (hw : FMap.wfFrom d b m = true) :
    FMap.wfFrom d (max b (a + 1)) (FMap.dropLe a m) = true := by
  induction m generalizing b with
  | nil => rfl
  | cons x m ih =>
    obtain ⟨k, w⟩ := x
    simp only [FMap.wfFrom, Bool.and_eq_true, decide_eq_true_eq] at hw
    by_cases hk : k ≤ a
    · simp only [FMap.dropLe, hk, if_true]
      exact FMap.wfFrom_mono d _ (by omega) (ih (k + 1) hw.2)
    · simp only [FMap.dropLe, hk, if_false, FMap.wfFrom, Bool.and_eq_true, decide_eq_true_eq]
      exact ⟨⟨by omega, hw.1.2⟩, hw.2⟩

theorem FMap.wfFrom_set (m : FMap β) (a b : Nat) (v : β) (hb : b ≤ a) (hw : FMap.wfFrom d b m = true) :
    FMap.wfFrom d b (FMap.set d m a v) = true := by
  induction m generalizing b with
  | nil => by_cases hv : v = d a <;> simp [FMap.set, FMap.wfFrom, hv, hb]
  | cons x m ih =>
    obtain ⟨k, w⟩ := x
    have hw' := hw
    simp only [FMap.wfFrom, Bool.and_eq_true, decide_eq_true_eq] at hw'
    by_cases hk : k < a
    · simp only [FMap.set, hk, if_true, FMap.wfFrom, Bool.and_eq_true, decide_eq_true_eq]
      exact ⟨hw'.1, ih (k + 1) (by omega) hw'.2⟩
    · have hd := FMap.wfFrom_dropLe d ((k, w) :: m) a b hw
      by_cases hv : v = d a
      · simp only [FMap.set, hk, if_false, hv, if_true]
        exact FMap.wfFrom_mono d _ (by omega) hd
      · simp only [FMap.set, hk, if_false, hv, FMap.wfFrom, Bool.and_eq_true, decide_eq_true_eq]
        exact ⟨⟨hb, hv⟩, FMap.wfFrom_mono d _ (by omega) hd⟩

/-- A write keeps the canonical form. -/
theorem FMap.wf_set (m : FMap β) (a : Nat) (v : β) (h : FMap.wf d m = true) : FMap.wf d (FMap.set d m a v) = true :=
  FMap.wfFrom_set d m a 0 v (Nat.zero_le a) h

theorem FMap.wfFrom_filter (p : Nat × β → Bool) (m : FMap β) (b : Nat) (h : FMap.wfFrom d b m = true) :
    FMap.wfFrom d b (m.filter p) = true := by
  induction m generalizing b with
  | nil => rfl
  | cons x m ih =>
    obtain ⟨k, w⟩ := x
    simp only [FMap.wfFrom, Bool.and_eq_true, decide_eq_true_eq] at h
    by_cases hp : p (k, w) = true
    · simp only [List.filter, hp, FMap.wfFrom, Bool.and_eq_true, decide_eq_true_eq]
      exact ⟨h.1, ih (k + 1) h.2⟩
    · simp only [List.filter, hp]
      exact FMap.wfFrom_mono d _ (by omega) (ih (k + 1) h.2)

/-- Entries taken out keep the canonical form. -/
theorem FMap.wf_filter (p : Nat × β → Bool) (m : FMap β) (h : FMap.wf d m = true) : FMap.wf d (m.filter p) = true :=
  FMap.wfFrom_filter d p m 0 h

@[simp] theorem FMap.wf_nil : FMap.wf d ([] : FMap β) = true := rfl

end Sys2Proof.Machine
end

