-- ==== Sys2Proof/Laws/Regs.lean ====
section
/-!
SUPPORT. Laws of registers, fields and counters: what a field reads after a write of a register, of itself, of a field beside it.
-/
namespace Sys2Proof.Machine

theorem State.reg_setReg (s : State) (a b : Nat) (v : Word) : (s.setReg a v).reg b = if b = a then v else s.reg b :=
  FMap.get_set resetVal s.regs a b v

@[simp] theorem State.reg_setReg_same (s : State) (a : Nat) (v : Word) : (s.setReg a v).reg a = v := by simp [State.reg_setReg]

theorem State.reg_setReg_other (s : State) (a b : Nat) (v : Word) (h : b ≠ a) : (s.setReg a v).reg b = s.reg b := by
  simp [State.reg_setReg, h]

theorem getLsbD_maskW (w i : Nat) : (maskW w).getLsbD i = (decide (i < 32) && decide (i < w)) := by
  simp [maskW, BitVec.getLsbD_ofNat, Nat.testBit_two_pow_sub_one]

/-- What a field holds of a word, by its bits. -/
theorem field_bits (x y : Word) (f : Fld) (h : ∀ i, f.lo ≤ i → i < f.lo + f.w → x.getLsbD i = y.getLsbD i) :
    ((x >>> f.lo) &&& maskW f.w) = ((y >>> f.lo) &&& maskW f.w) := by
  apply BitVec.eq_of_getLsbD_eq
  intro i hi
  simp only [BitVec.getLsbD_and, BitVec.getLsbD_ushiftRight, getLsbD_maskW]
  by_cases hw : i < f.w
  · rw [h (f.lo + i) (by omega) (by omega)]
  · simp [hw]

theorem State.get_setReg_other (s : State) (f : Fld) (a : Nat) (v : Word) (h : f.off ≠ a) : (s.setReg a v).get f = s.get f := by
  simp [State.get, State.reg_setReg_other s a f.off v h]

/-- A field of another register keeps its value. -/
theorem State.get_put_off (s : State) (f g : Fld) (v : Nat) (h : g.off ≠ f.off) : (s.put f v).get g = s.get g :=
  State.get_setReg_other s g f.off _ h

/-- A field beside the one written keeps its value. -/
theorem State.get_put_beside (s : State) (f g : Fld) (v : Nat) (h : f.lo + f.w ≤ g.lo ∨ g.lo + g.w ≤ f.lo) :
    (s.put f v).get g = s.get g := by
  by_cases ho : g.off = f.off
  · unfold State.get State.put
    rw [ho, State.reg_setReg_same]
    apply congrArg
    apply field_bits
    intro i h1 h2
    have hx : ¬ (f.lo ≤ i ∧ i - f.lo < f.w) := by omega
    simp only [BitVec.getLsbD_or, BitVec.getLsbD_and, BitVec.getLsbD_not, BitVec.getLsbD_shiftLeft, getLsbD_maskW]
    by_cases h32 : i < 32
    · by_cases hlo : i < f.lo
      · simp [h32, hlo]
      · have : ¬ i - f.lo < f.w := fun hc => hx ⟨by omega, hc⟩
        simp [h32, hlo, this]
    · simp [h32, BitVec.getLsbD_of_ge (s.reg f.off) i (by omega)]
  · exact State.get_put_off s f g v ho

/-- The field written reads the low bits of the value. -/
theorem State.get_put_same (s : State) (f : Fld) (v : Nat) (h : f.lo + f.w ≤ 32) : (s.put f v).get f = v % 2 ^ f.w := by
  unfold State.get State.put
  rw [State.reg_setReg_same]
  have hm : ∀ i, ((s.reg f.off &&& ~~~(maskW f.w <<< f.lo)) ||| ((BitVec.ofNat 32 v &&& maskW f.w) <<< f.lo)).getLsbD (f.lo + i)
      = if i < f.w then (BitVec.ofNat 32 v).getLsbD i else
        (((s.reg f.off &&& ~~~(maskW f.w <<< f.lo)) ||| ((BitVec.ofNat 32 v &&& maskW f.w) <<< f.lo)).getLsbD (f.lo + i)) := by
    intro i
    by_cases hw : i < f.w
    · simp only [hw, if_true, BitVec.getLsbD_or, BitVec.getLsbD_and, BitVec.getLsbD_not, BitVec.getLsbD_shiftLeft, getLsbD_maskW]
      have h1 : f.lo + i < 32 := by omega
      have h2 : ¬ f.lo + i < f.lo := by omega
      have h3 : f.lo + i - f.lo = i := by omega
      have h4 : i < 32 := by omega
      simp [h1, h2, h3, h4, hw]
    · simp [hw]
  have : (((s.reg f.off &&& ~~~(maskW f.w <<< f.lo)) ||| ((BitVec.ofNat 32 v &&& maskW f.w) <<< f.lo)) >>> f.lo) &&& maskW f.w
      = BitVec.ofNat 32 v &&& maskW f.w := by
    apply BitVec.eq_of_getLsbD_eq
    intro i hi
    simp only [BitVec.getLsbD_and, BitVec.getLsbD_ushiftRight, getLsbD_maskW]
    by_cases hw : i < f.w
    · have := hm i
      simp only [hw, if_true] at this
      rw [this]
    · simp [hw]
  rw [this]
  have hw : f.w ≤ 32 := by omega
  have hlt : 2 ^ f.w - 1 < 2 ^ 32 := by
    have : 2 ^ f.w ≤ 2 ^ 32 := Nat.pow_le_pow_right (by omega) hw
    omega
  rw [BitVec.toNat_and, maskW, BitVec.toNat_ofNat, BitVec.toNat_ofNat, Nat.mod_eq_of_lt hlt, Nat.and_two_pow_sub_one_eq_mod]
  exact Nat.mod_mod_of_dvd _ (Nat.pow_dvd_pow 2 hw)

/-- A counter goes up by one until it saturates. -/
theorem State.get_count (s : State) (f : Fld) (h : f.lo + f.w ≤ 32) :
    (s.count f).get f = min (s.get f + 1) (2 ^ f.w - 1) := by
  unfold State.count State.countN
  rw [State.get_put_same s f _ h, Nat.mod_eq_of_lt]
  have : 0 < 2 ^ f.w := Nat.two_pow_pos _
  omega

theorem State.get_count_off (s : State) (f g : Fld) (h : g.off ≠ f.off) : (s.count f).get g = s.get g :=
  State.get_put_off s f g _ h

/-- A one-bit field written with a truth value. -/
theorem State.is_putB (s : State) (f : Fld) (b : Bool) (h : f.lo + f.w ≤ 32) (hw : 0 < f.w) : (s.putB f b).is f = b := by
  have h2 : 2 ≤ 2 ^ f.w := Nat.pow_le_pow_right (n := 2) (by omega) hw
  unfold State.is State.putB
  rw [State.get_put_same s f _ h]
  cases b <;> simp [b01, Nat.mod_eq_of_lt (show 1 < 2 ^ f.w by omega)]

theorem State.is_put_off (s : State) (f g : Fld) (v : Nat) (h : g.off ≠ f.off) : (s.put f v).is g = s.is g := by
  simp [State.is, State.get_put_off s f g v h]

theorem State.is_put_beside (s : State) (f g : Fld) (v : Nat) (h : f.lo + f.w ≤ g.lo ∨ g.lo + g.w ≤ f.lo) :
    (s.put f v).is g = s.is g := by
  simp [State.is, State.get_put_beside s f g v h]

/-- A field keeps below its width. -/
theorem State.get_lt (s : State) (f : Fld) (h : f.w ≤ 32) : s.get f < 2 ^ f.w := by
  unfold State.get
  have hlt : 2 ^ f.w - 1 < 2 ^ 32 := by
    have : 2 ^ f.w ≤ 2 ^ 32 := Nat.pow_le_pow_right (by omega) h
    omega
  rw [BitVec.toNat_and, maskW, BitVec.toNat_ofNat, Nat.mod_eq_of_lt hlt, Nat.and_two_pow_sub_one_eq_mod]
  exact Nat.mod_lt _ (Nat.two_pow_pos _)

end Sys2Proof.Machine
end

