-- ==== Sys2Proof/Laws/State.lean ====
section
/-!
SUPPORT. What the named operations over the state leave alone, field by field.
-/
namespace Sys2Proof.Machine

@[simp] theorem State.setReg_inReset (s : State) (a : Nat) (v : Word) : (s.setReg a v).inReset = s.inReset := rfl
@[simp] theorem State.setReg_dt (s : State) (a : Nat) (v : Word) : (s.setReg a v).dt = s.dt := rfl
@[simp] theorem State.setReg_mem (s : State) (a : Nat) (v : Word) : (s.setReg a v).mem = s.mem := rfl
@[simp] theorem State.setReg_synd (s : State) (a : Nat) (v : Word) : (s.setReg a v).synd = s.synd := rfl
@[simp] theorem State.setReg_lastRead (s : State) (a : Nat) (v : Word) : (s.setReg a v).lastRead = s.lastRead := rfl
@[simp] theorem State.setReg_outs (s : State) (a : Nat) (v : Word) : (s.setReg a v).outs = s.outs := rfl
@[simp] theorem State.setReg_free (s : State) (a : Nat) (v : Word) : (s.setReg a v).free = s.free := rfl
@[simp] theorem State.setReg_flt (s : State) (a : Nat) (v : Word) : (s.setReg a v).flt = s.flt := rfl
@[simp] theorem State.setReg_emi (s : State) (a : Nat) (v : Word) : (s.setReg a v).emi = s.emi := rfl
@[simp] theorem State.setReg_ret (s : State) (a : Nat) (v : Word) : (s.setReg a v).ret = s.ret := rfl
@[simp] theorem State.setReg_stl (s : State) (a : Nat) (v : Word) : (s.setReg a v).stl = s.stl := rfl
@[simp] theorem State.setReg_pool (s : State) (a : Nat) (v : Word) : (s.setReg a v).pool = s.pool := rfl
@[simp] theorem State.setReg_cal (s : State) (a : Nat) (v : Word) : (s.setReg a v).cal = s.cal := rfl
@[simp] theorem State.setReg_dec (s : State) (a : Nat) (v : Word) : (s.setReg a v).dec = s.dec := rfl
@[simp] theorem State.setReg_seq (s : State) (a : Nat) (v : Word) : (s.setReg a v).seq = s.seq := rfl
@[simp] theorem State.setReg_prs (s : State) (a : Nat) (v : Word) : (s.setReg a v).prs = s.prs := rfl
@[simp] theorem State.setReg_axs (s : State) (a : Nat) (v : Word) : (s.setReg a v).axs = s.axs := rfl
@[simp] theorem State.setReg_drv (s : State) (a : Nat) (v : Word) : (s.setReg a v).drv = s.drv := rfl
@[simp] theorem State.setReg_sns (s : State) (a : Nat) (v : Word) : (s.setReg a v).sns = s.sns := rfl
@[simp] theorem State.setReg_pnt (s : State) (a : Nat) (v : Word) : (s.setReg a v).pnt = s.pnt := rfl
@[simp] theorem State.setReg_fle (s : State) (a : Nat) (v : Word) : (s.setReg a v).fle = s.fle := rfl
@[simp] theorem State.setReg_tap (s : State) (a : Nat) (v : Word) : (s.setReg a v).tap = s.tap := rfl
@[simp] theorem State.setReg_hifx (s : State) (a : Nat) (v : Word) : (s.setReg a v).hifx = s.hifx := rfl
@[simp] theorem State.setReg_pending (s : State) (a : Nat) (v : Word) : (s.setReg a v).pending = s.pending := rfl

@[simp] theorem State.put_inReset (s : State) (f : Fld) (v : Nat) : (s.put f v).inReset = s.inReset := rfl
@[simp] theorem State.put_dt (s : State) (f : Fld) (v : Nat) : (s.put f v).dt = s.dt := rfl
@[simp] theorem State.put_mem (s : State) (f : Fld) (v : Nat) : (s.put f v).mem = s.mem := rfl
@[simp] theorem State.put_synd (s : State) (f : Fld) (v : Nat) : (s.put f v).synd = s.synd := rfl
@[simp] theorem State.put_lastRead (s : State) (f : Fld) (v : Nat) : (s.put f v).lastRead = s.lastRead := rfl
@[simp] theorem State.put_outs (s : State) (f : Fld) (v : Nat) : (s.put f v).outs = s.outs := rfl
@[simp] theorem State.put_free (s : State) (f : Fld) (v : Nat) : (s.put f v).free = s.free := rfl
@[simp] theorem State.put_flt (s : State) (f : Fld) (v : Nat) : (s.put f v).flt = s.flt := rfl
@[simp] theorem State.put_emi (s : State) (f : Fld) (v : Nat) : (s.put f v).emi = s.emi := rfl
@[simp] theorem State.put_ret (s : State) (f : Fld) (v : Nat) : (s.put f v).ret = s.ret := rfl
@[simp] theorem State.put_stl (s : State) (f : Fld) (v : Nat) : (s.put f v).stl = s.stl := rfl
@[simp] theorem State.put_pool (s : State) (f : Fld) (v : Nat) : (s.put f v).pool = s.pool := rfl
@[simp] theorem State.put_cal (s : State) (f : Fld) (v : Nat) : (s.put f v).cal = s.cal := rfl
@[simp] theorem State.put_dec (s : State) (f : Fld) (v : Nat) : (s.put f v).dec = s.dec := rfl
@[simp] theorem State.put_seq (s : State) (f : Fld) (v : Nat) : (s.put f v).seq = s.seq := rfl
@[simp] theorem State.put_prs (s : State) (f : Fld) (v : Nat) : (s.put f v).prs = s.prs := rfl
@[simp] theorem State.put_axs (s : State) (f : Fld) (v : Nat) : (s.put f v).axs = s.axs := rfl
@[simp] theorem State.put_drv (s : State) (f : Fld) (v : Nat) : (s.put f v).drv = s.drv := rfl
@[simp] theorem State.put_sns (s : State) (f : Fld) (v : Nat) : (s.put f v).sns = s.sns := rfl
@[simp] theorem State.put_pnt (s : State) (f : Fld) (v : Nat) : (s.put f v).pnt = s.pnt := rfl
@[simp] theorem State.put_fle (s : State) (f : Fld) (v : Nat) : (s.put f v).fle = s.fle := rfl
@[simp] theorem State.put_tap (s : State) (f : Fld) (v : Nat) : (s.put f v).tap = s.tap := rfl
@[simp] theorem State.put_hifx (s : State) (f : Fld) (v : Nat) : (s.put f v).hifx = s.hifx := rfl
@[simp] theorem State.put_pending (s : State) (f : Fld) (v : Nat) : (s.put f v).pending = s.pending := rfl

@[simp] theorem State.putB_inReset (s : State) (f : Fld) (b : Bool) : (s.putB f b).inReset = s.inReset := rfl
@[simp] theorem State.putB_dt (s : State) (f : Fld) (b : Bool) : (s.putB f b).dt = s.dt := rfl
@[simp] theorem State.putB_mem (s : State) (f : Fld) (b : Bool) : (s.putB f b).mem = s.mem := rfl
@[simp] theorem State.putB_synd (s : State) (f : Fld) (b : Bool) : (s.putB f b).synd = s.synd := rfl
@[simp] theorem State.putB_lastRead (s : State) (f : Fld) (b : Bool) : (s.putB f b).lastRead = s.lastRead := rfl
@[simp] theorem State.putB_outs (s : State) (f : Fld) (b : Bool) : (s.putB f b).outs = s.outs := rfl
@[simp] theorem State.putB_free (s : State) (f : Fld) (b : Bool) : (s.putB f b).free = s.free := rfl
@[simp] theorem State.putB_flt (s : State) (f : Fld) (b : Bool) : (s.putB f b).flt = s.flt := rfl
@[simp] theorem State.putB_emi (s : State) (f : Fld) (b : Bool) : (s.putB f b).emi = s.emi := rfl
@[simp] theorem State.putB_ret (s : State) (f : Fld) (b : Bool) : (s.putB f b).ret = s.ret := rfl
@[simp] theorem State.putB_stl (s : State) (f : Fld) (b : Bool) : (s.putB f b).stl = s.stl := rfl
@[simp] theorem State.putB_pool (s : State) (f : Fld) (b : Bool) : (s.putB f b).pool = s.pool := rfl
@[simp] theorem State.putB_cal (s : State) (f : Fld) (b : Bool) : (s.putB f b).cal = s.cal := rfl
@[simp] theorem State.putB_dec (s : State) (f : Fld) (b : Bool) : (s.putB f b).dec = s.dec := rfl
@[simp] theorem State.putB_seq (s : State) (f : Fld) (b : Bool) : (s.putB f b).seq = s.seq := rfl
@[simp] theorem State.putB_prs (s : State) (f : Fld) (b : Bool) : (s.putB f b).prs = s.prs := rfl
@[simp] theorem State.putB_axs (s : State) (f : Fld) (b : Bool) : (s.putB f b).axs = s.axs := rfl
@[simp] theorem State.putB_drv (s : State) (f : Fld) (b : Bool) : (s.putB f b).drv = s.drv := rfl
@[simp] theorem State.putB_sns (s : State) (f : Fld) (b : Bool) : (s.putB f b).sns = s.sns := rfl
@[simp] theorem State.putB_pnt (s : State) (f : Fld) (b : Bool) : (s.putB f b).pnt = s.pnt := rfl
@[simp] theorem State.putB_fle (s : State) (f : Fld) (b : Bool) : (s.putB f b).fle = s.fle := rfl
@[simp] theorem State.putB_tap (s : State) (f : Fld) (b : Bool) : (s.putB f b).tap = s.tap := rfl
@[simp] theorem State.putB_hifx (s : State) (f : Fld) (b : Bool) : (s.putB f b).hifx = s.hifx := rfl
@[simp] theorem State.putB_pending (s : State) (f : Fld) (b : Bool) : (s.putB f b).pending = s.pending := rfl

@[simp] theorem State.countN_inReset (s : State) (f : Fld) (n : Nat) : (s.countN f n).inReset = s.inReset := rfl
@[simp] theorem State.countN_dt (s : State) (f : Fld) (n : Nat) : (s.countN f n).dt = s.dt := rfl
@[simp] theorem State.countN_mem (s : State) (f : Fld) (n : Nat) : (s.countN f n).mem = s.mem := rfl
@[simp] theorem State.countN_synd (s : State) (f : Fld) (n : Nat) : (s.countN f n).synd = s.synd := rfl
@[simp] theorem State.countN_lastRead (s : State) (f : Fld) (n : Nat) : (s.countN f n).lastRead = s.lastRead := rfl
@[simp] theorem State.countN_outs (s : State) (f : Fld) (n : Nat) : (s.countN f n).outs = s.outs := rfl
@[simp] theorem State.countN_free (s : State) (f : Fld) (n : Nat) : (s.countN f n).free = s.free := rfl
@[simp] theorem State.countN_flt (s : State) (f : Fld) (n : Nat) : (s.countN f n).flt = s.flt := rfl
@[simp] theorem State.countN_emi (s : State) (f : Fld) (n : Nat) : (s.countN f n).emi = s.emi := rfl
@[simp] theorem State.countN_ret (s : State) (f : Fld) (n : Nat) : (s.countN f n).ret = s.ret := rfl
@[simp] theorem State.countN_stl (s : State) (f : Fld) (n : Nat) : (s.countN f n).stl = s.stl := rfl
@[simp] theorem State.countN_pool (s : State) (f : Fld) (n : Nat) : (s.countN f n).pool = s.pool := rfl
@[simp] theorem State.countN_cal (s : State) (f : Fld) (n : Nat) : (s.countN f n).cal = s.cal := rfl
@[simp] theorem State.countN_dec (s : State) (f : Fld) (n : Nat) : (s.countN f n).dec = s.dec := rfl
@[simp] theorem State.countN_seq (s : State) (f : Fld) (n : Nat) : (s.countN f n).seq = s.seq := rfl
@[simp] theorem State.countN_prs (s : State) (f : Fld) (n : Nat) : (s.countN f n).prs = s.prs := rfl
@[simp] theorem State.countN_axs (s : State) (f : Fld) (n : Nat) : (s.countN f n).axs = s.axs := rfl
@[simp] theorem State.countN_drv (s : State) (f : Fld) (n : Nat) : (s.countN f n).drv = s.drv := rfl
@[simp] theorem State.countN_sns (s : State) (f : Fld) (n : Nat) : (s.countN f n).sns = s.sns := rfl
@[simp] theorem State.countN_pnt (s : State) (f : Fld) (n : Nat) : (s.countN f n).pnt = s.pnt := rfl
@[simp] theorem State.countN_fle (s : State) (f : Fld) (n : Nat) : (s.countN f n).fle = s.fle := rfl
@[simp] theorem State.countN_tap (s : State) (f : Fld) (n : Nat) : (s.countN f n).tap = s.tap := rfl
@[simp] theorem State.countN_hifx (s : State) (f : Fld) (n : Nat) : (s.countN f n).hifx = s.hifx := rfl
@[simp] theorem State.countN_pending (s : State) (f : Fld) (n : Nat) : (s.countN f n).pending = s.pending := rfl

@[simp] theorem State.count_inReset (s : State) (f : Fld) : (s.count f).inReset = s.inReset := rfl
@[simp] theorem State.count_dt (s : State) (f : Fld) : (s.count f).dt = s.dt := rfl
@[simp] theorem State.count_mem (s : State) (f : Fld) : (s.count f).mem = s.mem := rfl
@[simp] theorem State.count_synd (s : State) (f : Fld) : (s.count f).synd = s.synd := rfl
@[simp] theorem State.count_lastRead (s : State) (f : Fld) : (s.count f).lastRead = s.lastRead := rfl
@[simp] theorem State.count_outs (s : State) (f : Fld) : (s.count f).outs = s.outs := rfl
@[simp] theorem State.count_free (s : State) (f : Fld) : (s.count f).free = s.free := rfl
@[simp] theorem State.count_flt (s : State) (f : Fld) : (s.count f).flt = s.flt := rfl
@[simp] theorem State.count_emi (s : State) (f : Fld) : (s.count f).emi = s.emi := rfl
@[simp] theorem State.count_ret (s : State) (f : Fld) : (s.count f).ret = s.ret := rfl
@[simp] theorem State.count_stl (s : State) (f : Fld) : (s.count f).stl = s.stl := rfl
@[simp] theorem State.count_pool (s : State) (f : Fld) : (s.count f).pool = s.pool := rfl
@[simp] theorem State.count_cal (s : State) (f : Fld) : (s.count f).cal = s.cal := rfl
@[simp] theorem State.count_dec (s : State) (f : Fld) : (s.count f).dec = s.dec := rfl
@[simp] theorem State.count_seq (s : State) (f : Fld) : (s.count f).seq = s.seq := rfl
@[simp] theorem State.count_prs (s : State) (f : Fld) : (s.count f).prs = s.prs := rfl
@[simp] theorem State.count_axs (s : State) (f : Fld) : (s.count f).axs = s.axs := rfl
@[simp] theorem State.count_drv (s : State) (f : Fld) : (s.count f).drv = s.drv := rfl
@[simp] theorem State.count_sns (s : State) (f : Fld) : (s.count f).sns = s.sns := rfl
@[simp] theorem State.count_pnt (s : State) (f : Fld) : (s.count f).pnt = s.pnt := rfl
@[simp] theorem State.count_fle (s : State) (f : Fld) : (s.count f).fle = s.fle := rfl
@[simp] theorem State.count_tap (s : State) (f : Fld) : (s.count f).tap = s.tap := rfl
@[simp] theorem State.count_hifx (s : State) (f : Fld) : (s.count f).hifx = s.hifx := rfl
@[simp] theorem State.count_pending (s : State) (f : Fld) : (s.count f).pending = s.pending := rfl

@[simp] theorem State.setByte_inReset (s : State) (a : Nat) (v : Byte) : (s.setByte a v).inReset = s.inReset := rfl
@[simp] theorem State.setByte_regs (s : State) (a : Nat) (v : Byte) : (s.setByte a v).regs = s.regs := rfl
@[simp] theorem State.setByte_dt (s : State) (a : Nat) (v : Byte) : (s.setByte a v).dt = s.dt := rfl
@[simp] theorem State.setByte_synd (s : State) (a : Nat) (v : Byte) : (s.setByte a v).synd = s.synd := rfl
@[simp] theorem State.setByte_lastRead (s : State) (a : Nat) (v : Byte) : (s.setByte a v).lastRead = s.lastRead := rfl
@[simp] theorem State.setByte_outs (s : State) (a : Nat) (v : Byte) : (s.setByte a v).outs = s.outs := rfl
@[simp] theorem State.setByte_free (s : State) (a : Nat) (v : Byte) : (s.setByte a v).free = s.free := rfl
@[simp] theorem State.setByte_flt (s : State) (a : Nat) (v : Byte) : (s.setByte a v).flt = s.flt := rfl
@[simp] theorem State.setByte_emi (s : State) (a : Nat) (v : Byte) : (s.setByte a v).emi = s.emi := rfl
@[simp] theorem State.setByte_ret (s : State) (a : Nat) (v : Byte) : (s.setByte a v).ret = s.ret := rfl
@[simp] theorem State.setByte_stl (s : State) (a : Nat) (v : Byte) : (s.setByte a v).stl = s.stl := rfl
@[simp] theorem State.setByte_pool (s : State) (a : Nat) (v : Byte) : (s.setByte a v).pool = s.pool := rfl
@[simp] theorem State.setByte_cal (s : State) (a : Nat) (v : Byte) : (s.setByte a v).cal = s.cal := rfl
@[simp] theorem State.setByte_dec (s : State) (a : Nat) (v : Byte) : (s.setByte a v).dec = s.dec := rfl
@[simp] theorem State.setByte_seq (s : State) (a : Nat) (v : Byte) : (s.setByte a v).seq = s.seq := rfl
@[simp] theorem State.setByte_prs (s : State) (a : Nat) (v : Byte) : (s.setByte a v).prs = s.prs := rfl
@[simp] theorem State.setByte_axs (s : State) (a : Nat) (v : Byte) : (s.setByte a v).axs = s.axs := rfl
@[simp] theorem State.setByte_drv (s : State) (a : Nat) (v : Byte) : (s.setByte a v).drv = s.drv := rfl
@[simp] theorem State.setByte_sns (s : State) (a : Nat) (v : Byte) : (s.setByte a v).sns = s.sns := rfl
@[simp] theorem State.setByte_pnt (s : State) (a : Nat) (v : Byte) : (s.setByte a v).pnt = s.pnt := rfl
@[simp] theorem State.setByte_fle (s : State) (a : Nat) (v : Byte) : (s.setByte a v).fle = s.fle := rfl
@[simp] theorem State.setByte_tap (s : State) (a : Nat) (v : Byte) : (s.setByte a v).tap = s.tap := rfl
@[simp] theorem State.setByte_hifx (s : State) (a : Nat) (v : Byte) : (s.setByte a v).hifx = s.hifx := rfl
@[simp] theorem State.setByte_pending (s : State) (a : Nat) (v : Byte) : (s.setByte a v).pending = s.pending := rfl

@[simp] theorem State.setErrors_inReset (s : State) (w : Nat) (v : Word) : (s.setErrors w v).inReset = s.inReset := rfl
@[simp] theorem State.setErrors_regs (s : State) (w : Nat) (v : Word) : (s.setErrors w v).regs = s.regs := rfl
@[simp] theorem State.setErrors_dt (s : State) (w : Nat) (v : Word) : (s.setErrors w v).dt = s.dt := rfl
@[simp] theorem State.setErrors_mem (s : State) (w : Nat) (v : Word) : (s.setErrors w v).mem = s.mem := rfl
@[simp] theorem State.setErrors_lastRead (s : State) (w : Nat) (v : Word) : (s.setErrors w v).lastRead = s.lastRead := rfl
@[simp] theorem State.setErrors_outs (s : State) (w : Nat) (v : Word) : (s.setErrors w v).outs = s.outs := rfl
@[simp] theorem State.setErrors_free (s : State) (w : Nat) (v : Word) : (s.setErrors w v).free = s.free := rfl
@[simp] theorem State.setErrors_flt (s : State) (w : Nat) (v : Word) : (s.setErrors w v).flt = s.flt := rfl
@[simp] theorem State.setErrors_emi (s : State) (w : Nat) (v : Word) : (s.setErrors w v).emi = s.emi := rfl
@[simp] theorem State.setErrors_ret (s : State) (w : Nat) (v : Word) : (s.setErrors w v).ret = s.ret := rfl
@[simp] theorem State.setErrors_stl (s : State) (w : Nat) (v : Word) : (s.setErrors w v).stl = s.stl := rfl
@[simp] theorem State.setErrors_pool (s : State) (w : Nat) (v : Word) : (s.setErrors w v).pool = s.pool := rfl
@[simp] theorem State.setErrors_cal (s : State) (w : Nat) (v : Word) : (s.setErrors w v).cal = s.cal := rfl
@[simp] theorem State.setErrors_dec (s : State) (w : Nat) (v : Word) : (s.setErrors w v).dec = s.dec := rfl
@[simp] theorem State.setErrors_seq (s : State) (w : Nat) (v : Word) : (s.setErrors w v).seq = s.seq := rfl
@[simp] theorem State.setErrors_prs (s : State) (w : Nat) (v : Word) : (s.setErrors w v).prs = s.prs := rfl
@[simp] theorem State.setErrors_axs (s : State) (w : Nat) (v : Word) : (s.setErrors w v).axs = s.axs := rfl
@[simp] theorem State.setErrors_drv (s : State) (w : Nat) (v : Word) : (s.setErrors w v).drv = s.drv := rfl
@[simp] theorem State.setErrors_sns (s : State) (w : Nat) (v : Word) : (s.setErrors w v).sns = s.sns := rfl
@[simp] theorem State.setErrors_pnt (s : State) (w : Nat) (v : Word) : (s.setErrors w v).pnt = s.pnt := rfl
@[simp] theorem State.setErrors_fle (s : State) (w : Nat) (v : Word) : (s.setErrors w v).fle = s.fle := rfl
@[simp] theorem State.setErrors_tap (s : State) (w : Nat) (v : Word) : (s.setErrors w v).tap = s.tap := rfl
@[simp] theorem State.setErrors_hifx (s : State) (w : Nat) (v : Word) : (s.setErrors w v).hifx = s.hifx := rfl
@[simp] theorem State.setErrors_pending (s : State) (w : Nat) (v : Word) : (s.setErrors w v).pending = s.pending := rfl

@[simp] theorem State.out_inReset (s : State) (o : Out) : (s.out o).inReset = s.inReset := rfl
@[simp] theorem State.out_regs (s : State) (o : Out) : (s.out o).regs = s.regs := rfl
@[simp] theorem State.out_dt (s : State) (o : Out) : (s.out o).dt = s.dt := rfl
@[simp] theorem State.out_mem (s : State) (o : Out) : (s.out o).mem = s.mem := rfl
@[simp] theorem State.out_synd (s : State) (o : Out) : (s.out o).synd = s.synd := rfl
@[simp] theorem State.out_lastRead (s : State) (o : Out) : (s.out o).lastRead = s.lastRead := rfl
@[simp] theorem State.out_free (s : State) (o : Out) : (s.out o).free = s.free := rfl
@[simp] theorem State.out_flt (s : State) (o : Out) : (s.out o).flt = s.flt := rfl
@[simp] theorem State.out_emi (s : State) (o : Out) : (s.out o).emi = s.emi := rfl
@[simp] theorem State.out_ret (s : State) (o : Out) : (s.out o).ret = s.ret := rfl
@[simp] theorem State.out_stl (s : State) (o : Out) : (s.out o).stl = s.stl := rfl
@[simp] theorem State.out_pool (s : State) (o : Out) : (s.out o).pool = s.pool := rfl
@[simp] theorem State.out_cal (s : State) (o : Out) : (s.out o).cal = s.cal := rfl
@[simp] theorem State.out_dec (s : State) (o : Out) : (s.out o).dec = s.dec := rfl
@[simp] theorem State.out_seq (s : State) (o : Out) : (s.out o).seq = s.seq := rfl
@[simp] theorem State.out_prs (s : State) (o : Out) : (s.out o).prs = s.prs := rfl
@[simp] theorem State.out_axs (s : State) (o : Out) : (s.out o).axs = s.axs := rfl
@[simp] theorem State.out_drv (s : State) (o : Out) : (s.out o).drv = s.drv := rfl
@[simp] theorem State.out_sns (s : State) (o : Out) : (s.out o).sns = s.sns := rfl
@[simp] theorem State.out_pnt (s : State) (o : Out) : (s.out o).pnt = s.pnt := rfl
@[simp] theorem State.out_fle (s : State) (o : Out) : (s.out o).fle = s.fle := rfl
@[simp] theorem State.out_tap (s : State) (o : Out) : (s.out o).tap = s.tap := rfl
@[simp] theorem State.out_hifx (s : State) (o : Out) : (s.out o).hifx = s.hifx := rfl
@[simp] theorem State.out_pending (s : State) (o : Out) : (s.out o).pending = s.pending := rfl

@[simp] theorem State.draw_inReset (s : State) : s.draw.inReset = s.inReset := rfl
@[simp] theorem State.draw_regs (s : State) : s.draw.regs = s.regs := rfl
@[simp] theorem State.draw_dt (s : State) : s.draw.dt = s.dt := rfl
@[simp] theorem State.draw_mem (s : State) : s.draw.mem = s.mem := rfl
@[simp] theorem State.draw_synd (s : State) : s.draw.synd = s.synd := rfl
@[simp] theorem State.draw_lastRead (s : State) : s.draw.lastRead = s.lastRead := rfl
@[simp] theorem State.draw_outs (s : State) : s.draw.outs = s.outs := rfl
@[simp] theorem State.draw_flt (s : State) : s.draw.flt = s.flt := rfl
@[simp] theorem State.draw_emi (s : State) : s.draw.emi = s.emi := rfl
@[simp] theorem State.draw_ret (s : State) : s.draw.ret = s.ret := rfl
@[simp] theorem State.draw_stl (s : State) : s.draw.stl = s.stl := rfl
@[simp] theorem State.draw_pool (s : State) : s.draw.pool = s.pool := rfl
@[simp] theorem State.draw_cal (s : State) : s.draw.cal = s.cal := rfl
@[simp] theorem State.draw_dec (s : State) : s.draw.dec = s.dec := rfl
@[simp] theorem State.draw_seq (s : State) : s.draw.seq = s.seq := rfl
@[simp] theorem State.draw_prs (s : State) : s.draw.prs = s.prs := rfl
@[simp] theorem State.draw_axs (s : State) : s.draw.axs = s.axs := rfl
@[simp] theorem State.draw_drv (s : State) : s.draw.drv = s.drv := rfl
@[simp] theorem State.draw_sns (s : State) : s.draw.sns = s.sns := rfl
@[simp] theorem State.draw_pnt (s : State) : s.draw.pnt = s.pnt := rfl
@[simp] theorem State.draw_fle (s : State) : s.draw.fle = s.fle := rfl
@[simp] theorem State.draw_tap (s : State) : s.draw.tap = s.tap := rfl
@[simp] theorem State.draw_hifx (s : State) : s.draw.hifx = s.hifx := rfl
@[simp] theorem State.draw_pending (s : State) : s.draw.pending = s.pending := rfl

@[simp] theorem State.at_inReset (s : State) (t : Nat) : (s.at t).inReset = s.inReset := by unfold State.at; split <;> rfl
@[simp] theorem State.at_regs (s : State) (t : Nat) : (s.at t).regs = s.regs := by unfold State.at; split <;> rfl
@[simp] theorem State.at_mem (s : State) (t : Nat) : (s.at t).mem = s.mem := by unfold State.at; split <;> rfl
@[simp] theorem State.at_synd (s : State) (t : Nat) : (s.at t).synd = s.synd := by unfold State.at; split <;> rfl
@[simp] theorem State.at_lastRead (s : State) (t : Nat) : (s.at t).lastRead = s.lastRead := by unfold State.at; split <;> rfl
@[simp] theorem State.at_outs (s : State) (t : Nat) : (s.at t).outs = s.outs := by unfold State.at; split <;> rfl
@[simp] theorem State.at_free (s : State) (t : Nat) : (s.at t).free = s.free := by unfold State.at; split <;> rfl
@[simp] theorem State.at_flt (s : State) (t : Nat) : (s.at t).flt = s.flt := by unfold State.at; split <;> rfl
@[simp] theorem State.at_emi (s : State) (t : Nat) : (s.at t).emi = s.emi := by unfold State.at; split <;> rfl
@[simp] theorem State.at_ret (s : State) (t : Nat) : (s.at t).ret = s.ret := by unfold State.at; split <;> rfl
@[simp] theorem State.at_stl (s : State) (t : Nat) : (s.at t).stl = s.stl := by unfold State.at; split <;> rfl
@[simp] theorem State.at_pool (s : State) (t : Nat) : (s.at t).pool = s.pool := by unfold State.at; split <;> rfl
@[simp] theorem State.at_cal (s : State) (t : Nat) : (s.at t).cal = s.cal := by unfold State.at; split <;> rfl
@[simp] theorem State.at_dec (s : State) (t : Nat) : (s.at t).dec = s.dec := by unfold State.at; split <;> rfl
@[simp] theorem State.at_seq (s : State) (t : Nat) : (s.at t).seq = s.seq := by unfold State.at; split <;> rfl
@[simp] theorem State.at_prs (s : State) (t : Nat) : (s.at t).prs = s.prs := by unfold State.at; split <;> rfl
@[simp] theorem State.at_axs (s : State) (t : Nat) : (s.at t).axs = s.axs := by unfold State.at; split <;> rfl
@[simp] theorem State.at_drv (s : State) (t : Nat) : (s.at t).drv = s.drv := by unfold State.at; split <;> rfl
@[simp] theorem State.at_sns (s : State) (t : Nat) : (s.at t).sns = s.sns := by unfold State.at; split <;> rfl
@[simp] theorem State.at_pnt (s : State) (t : Nat) : (s.at t).pnt = s.pnt := by unfold State.at; split <;> rfl
@[simp] theorem State.at_fle (s : State) (t : Nat) : (s.at t).fle = s.fle := by unfold State.at; split <;> rfl
@[simp] theorem State.at_tap (s : State) (t : Nat) : (s.at t).tap = s.tap := by unfold State.at; split <;> rfl
@[simp] theorem State.at_hifx (s : State) (t : Nat) : (s.at t).hifx = s.hifx := by unfold State.at; split <;> rfl
@[simp] theorem State.at_pending (s : State) (t : Nat) : (s.at t).pending = s.pending := by unfold State.at; split <;> rfl

@[simp] theorem State.msg_inReset (s : State) (v : Nat) : (s.msg v).inReset = s.inReset := by unfold State.msg; (repeat' split) <;> rfl
@[simp] theorem State.msg_dt (s : State) (v : Nat) : (s.msg v).dt = s.dt := by unfold State.msg; (repeat' split) <;> rfl
@[simp] theorem State.msg_mem (s : State) (v : Nat) : (s.msg v).mem = s.mem := by unfold State.msg; (repeat' split) <;> rfl
@[simp] theorem State.msg_synd (s : State) (v : Nat) : (s.msg v).synd = s.synd := by unfold State.msg; (repeat' split) <;> rfl
@[simp] theorem State.msg_lastRead (s : State) (v : Nat) : (s.msg v).lastRead = s.lastRead := by unfold State.msg; (repeat' split) <;> rfl
@[simp] theorem State.msg_free (s : State) (v : Nat) : (s.msg v).free = s.free := by unfold State.msg; (repeat' split) <;> rfl
@[simp] theorem State.msg_flt (s : State) (v : Nat) : (s.msg v).flt = s.flt := by unfold State.msg; (repeat' split) <;> rfl
@[simp] theorem State.msg_emi (s : State) (v : Nat) : (s.msg v).emi = s.emi := by unfold State.msg; (repeat' split) <;> rfl
@[simp] theorem State.msg_ret (s : State) (v : Nat) : (s.msg v).ret = s.ret := by unfold State.msg; (repeat' split) <;> rfl
@[simp] theorem State.msg_stl (s : State) (v : Nat) : (s.msg v).stl = s.stl := by unfold State.msg; (repeat' split) <;> rfl
@[simp] theorem State.msg_pool (s : State) (v : Nat) : (s.msg v).pool = s.pool := by unfold State.msg; (repeat' split) <;> rfl
@[simp] theorem State.msg_cal (s : State) (v : Nat) : (s.msg v).cal = s.cal := by unfold State.msg; (repeat' split) <;> rfl
@[simp] theorem State.msg_dec (s : State) (v : Nat) : (s.msg v).dec = s.dec := by unfold State.msg; (repeat' split) <;> rfl
@[simp] theorem State.msg_seq (s : State) (v : Nat) : (s.msg v).seq = s.seq := by unfold State.msg; (repeat' split) <;> rfl
@[simp] theorem State.msg_prs (s : State) (v : Nat) : (s.msg v).prs = s.prs := by unfold State.msg; (repeat' split) <;> rfl
@[simp] theorem State.msg_axs (s : State) (v : Nat) : (s.msg v).axs = s.axs := by unfold State.msg; (repeat' split) <;> rfl
@[simp] theorem State.msg_drv (s : State) (v : Nat) : (s.msg v).drv = s.drv := by unfold State.msg; (repeat' split) <;> rfl
@[simp] theorem State.msg_sns (s : State) (v : Nat) : (s.msg v).sns = s.sns := by unfold State.msg; (repeat' split) <;> rfl
@[simp] theorem State.msg_pnt (s : State) (v : Nat) : (s.msg v).pnt = s.pnt := by unfold State.msg; (repeat' split) <;> rfl
@[simp] theorem State.msg_fle (s : State) (v : Nat) : (s.msg v).fle = s.fle := by unfold State.msg; (repeat' split) <;> rfl
@[simp] theorem State.msg_tap (s : State) (v : Nat) : (s.msg v).tap = s.tap := by unfold State.msg; (repeat' split) <;> rfl
@[simp] theorem State.msg_pending (s : State) (v : Nat) : (s.msg v).pending = s.pending := by unfold State.msg; (repeat' split) <;> rfl

@[simp] theorem State.event_inReset (s : State) (v : Nat) : (s.event v).inReset = s.inReset := by unfold State.event; simp only; split <;> simp
@[simp] theorem State.event_dt (s : State) (v : Nat) : (s.event v).dt = s.dt := by unfold State.event; simp only; split <;> simp
@[simp] theorem State.event_mem (s : State) (v : Nat) : (s.event v).mem = s.mem := by unfold State.event; simp only; split <;> simp
@[simp] theorem State.event_synd (s : State) (v : Nat) : (s.event v).synd = s.synd := by unfold State.event; simp only; split <;> simp
@[simp] theorem State.event_lastRead (s : State) (v : Nat) : (s.event v).lastRead = s.lastRead := by unfold State.event; simp only; split <;> simp
@[simp] theorem State.event_free (s : State) (v : Nat) : (s.event v).free = s.free := by unfold State.event; simp only; split <;> simp
@[simp] theorem State.event_flt (s : State) (v : Nat) : (s.event v).flt = s.flt := by unfold State.event; simp only; split <;> simp
@[simp] theorem State.event_emi (s : State) (v : Nat) : (s.event v).emi = s.emi := by unfold State.event; simp only; split <;> simp
@[simp] theorem State.event_ret (s : State) (v : Nat) : (s.event v).ret = s.ret := by unfold State.event; simp only; split <;> simp
@[simp] theorem State.event_stl (s : State) (v : Nat) : (s.event v).stl = s.stl := by unfold State.event; simp only; split <;> simp
@[simp] theorem State.event_pool (s : State) (v : Nat) : (s.event v).pool = s.pool := by unfold State.event; simp only; split <;> simp
@[simp] theorem State.event_cal (s : State) (v : Nat) : (s.event v).cal = s.cal := by unfold State.event; simp only; split <;> simp
@[simp] theorem State.event_dec (s : State) (v : Nat) : (s.event v).dec = s.dec := by unfold State.event; simp only; split <;> simp
@[simp] theorem State.event_seq (s : State) (v : Nat) : (s.event v).seq = s.seq := by unfold State.event; simp only; split <;> simp
@[simp] theorem State.event_prs (s : State) (v : Nat) : (s.event v).prs = s.prs := by unfold State.event; simp only; split <;> simp
@[simp] theorem State.event_axs (s : State) (v : Nat) : (s.event v).axs = s.axs := by unfold State.event; simp only; split <;> simp
@[simp] theorem State.event_drv (s : State) (v : Nat) : (s.event v).drv = s.drv := by unfold State.event; simp only; split <;> simp
@[simp] theorem State.event_sns (s : State) (v : Nat) : (s.event v).sns = s.sns := by unfold State.event; simp only; split <;> simp
@[simp] theorem State.event_pnt (s : State) (v : Nat) : (s.event v).pnt = s.pnt := by unfold State.event; simp only; split <;> simp
@[simp] theorem State.event_fle (s : State) (v : Nat) : (s.event v).fle = s.fle := by unfold State.event; simp only; split <;> simp
@[simp] theorem State.event_tap (s : State) (v : Nat) : (s.event v).tap = s.tap := by unfold State.event; simp only; split <;> simp
@[simp] theorem State.event_pending (s : State) (v : Nat) : (s.event v).pending = s.pending := by unfold State.event; simp only; split <;> simp

@[simp] theorem State.eventIf_inReset (s : State) (c : Bool) (v : Nat) : (s.eventIf c v).inReset = s.inReset := by unfold State.eventIf; split <;> simp
@[simp] theorem State.eventIf_dt (s : State) (c : Bool) (v : Nat) : (s.eventIf c v).dt = s.dt := by unfold State.eventIf; split <;> simp
@[simp] theorem State.eventIf_mem (s : State) (c : Bool) (v : Nat) : (s.eventIf c v).mem = s.mem := by unfold State.eventIf; split <;> simp
@[simp] theorem State.eventIf_synd (s : State) (c : Bool) (v : Nat) : (s.eventIf c v).synd = s.synd := by unfold State.eventIf; split <;> simp
@[simp] theorem State.eventIf_lastRead (s : State) (c : Bool) (v : Nat) : (s.eventIf c v).lastRead = s.lastRead := by unfold State.eventIf; split <;> simp
@[simp] theorem State.eventIf_free (s : State) (c : Bool) (v : Nat) : (s.eventIf c v).free = s.free := by unfold State.eventIf; split <;> simp
@[simp] theorem State.eventIf_flt (s : State) (c : Bool) (v : Nat) : (s.eventIf c v).flt = s.flt := by unfold State.eventIf; split <;> simp
@[simp] theorem State.eventIf_emi (s : State) (c : Bool) (v : Nat) : (s.eventIf c v).emi = s.emi := by unfold State.eventIf; split <;> simp
@[simp] theorem State.eventIf_ret (s : State) (c : Bool) (v : Nat) : (s.eventIf c v).ret = s.ret := by unfold State.eventIf; split <;> simp
@[simp] theorem State.eventIf_stl (s : State) (c : Bool) (v : Nat) : (s.eventIf c v).stl = s.stl := by unfold State.eventIf; split <;> simp
@[simp] theorem State.eventIf_pool (s : State) (c : Bool) (v : Nat) : (s.eventIf c v).pool = s.pool := by unfold State.eventIf; split <;> simp
@[simp] theorem State.eventIf_cal (s : State) (c : Bool) (v : Nat) : (s.eventIf c v).cal = s.cal := by unfold State.eventIf; split <;> simp
@[simp] theorem State.eventIf_dec (s : State) (c : Bool) (v : Nat) : (s.eventIf c v).dec = s.dec := by unfold State.eventIf; split <;> simp
@[simp] theorem State.eventIf_seq (s : State) (c : Bool) (v : Nat) : (s.eventIf c v).seq = s.seq := by unfold State.eventIf; split <;> simp
@[simp] theorem State.eventIf_prs (s : State) (c : Bool) (v : Nat) : (s.eventIf c v).prs = s.prs := by unfold State.eventIf; split <;> simp
@[simp] theorem State.eventIf_axs (s : State) (c : Bool) (v : Nat) : (s.eventIf c v).axs = s.axs := by unfold State.eventIf; split <;> simp
@[simp] theorem State.eventIf_drv (s : State) (c : Bool) (v : Nat) : (s.eventIf c v).drv = s.drv := by unfold State.eventIf; split <;> simp
@[simp] theorem State.eventIf_sns (s : State) (c : Bool) (v : Nat) : (s.eventIf c v).sns = s.sns := by unfold State.eventIf; split <;> simp
@[simp] theorem State.eventIf_pnt (s : State) (c : Bool) (v : Nat) : (s.eventIf c v).pnt = s.pnt := by unfold State.eventIf; split <;> simp
@[simp] theorem State.eventIf_fle (s : State) (c : Bool) (v : Nat) : (s.eventIf c v).fle = s.fle := by unfold State.eventIf; split <;> simp
@[simp] theorem State.eventIf_tap (s : State) (c : Bool) (v : Nat) : (s.eventIf c v).tap = s.tap := by unfold State.eventIf; split <;> simp
@[simp] theorem State.eventIf_pending (s : State) (c : Bool) (v : Nat) : (s.eventIf c v).pending = s.pending := by unfold State.eventIf; split <;> simp

@[simp] theorem State.ignore_inReset (s : State) (k : IgnKind) (p : Bool) (l : Nat) : (s.ignore k p l).inReset = s.inReset := by simp [State.ignore]
@[simp] theorem State.ignore_dt (s : State) (k : IgnKind) (p : Bool) (l : Nat) : (s.ignore k p l).dt = s.dt := by simp [State.ignore]
@[simp] theorem State.ignore_mem (s : State) (k : IgnKind) (p : Bool) (l : Nat) : (s.ignore k p l).mem = s.mem := by simp [State.ignore]
@[simp] theorem State.ignore_synd (s : State) (k : IgnKind) (p : Bool) (l : Nat) : (s.ignore k p l).synd = s.synd := by simp [State.ignore]
@[simp] theorem State.ignore_lastRead (s : State) (k : IgnKind) (p : Bool) (l : Nat) : (s.ignore k p l).lastRead = s.lastRead := by simp [State.ignore]
@[simp] theorem State.ignore_free (s : State) (k : IgnKind) (p : Bool) (l : Nat) : (s.ignore k p l).free = s.free := by simp [State.ignore]
@[simp] theorem State.ignore_flt (s : State) (k : IgnKind) (p : Bool) (l : Nat) : (s.ignore k p l).flt = s.flt := by simp [State.ignore]
@[simp] theorem State.ignore_emi (s : State) (k : IgnKind) (p : Bool) (l : Nat) : (s.ignore k p l).emi = s.emi := by simp [State.ignore]
@[simp] theorem State.ignore_ret (s : State) (k : IgnKind) (p : Bool) (l : Nat) : (s.ignore k p l).ret = s.ret := by simp [State.ignore]
@[simp] theorem State.ignore_stl (s : State) (k : IgnKind) (p : Bool) (l : Nat) : (s.ignore k p l).stl = s.stl := by simp [State.ignore]
@[simp] theorem State.ignore_pool (s : State) (k : IgnKind) (p : Bool) (l : Nat) : (s.ignore k p l).pool = s.pool := by simp [State.ignore]
@[simp] theorem State.ignore_cal (s : State) (k : IgnKind) (p : Bool) (l : Nat) : (s.ignore k p l).cal = s.cal := by simp [State.ignore]
@[simp] theorem State.ignore_dec (s : State) (k : IgnKind) (p : Bool) (l : Nat) : (s.ignore k p l).dec = s.dec := by simp [State.ignore]
@[simp] theorem State.ignore_seq (s : State) (k : IgnKind) (p : Bool) (l : Nat) : (s.ignore k p l).seq = s.seq := by simp [State.ignore]
@[simp] theorem State.ignore_prs (s : State) (k : IgnKind) (p : Bool) (l : Nat) : (s.ignore k p l).prs = s.prs := by simp [State.ignore]
@[simp] theorem State.ignore_axs (s : State) (k : IgnKind) (p : Bool) (l : Nat) : (s.ignore k p l).axs = s.axs := by simp [State.ignore]
@[simp] theorem State.ignore_drv (s : State) (k : IgnKind) (p : Bool) (l : Nat) : (s.ignore k p l).drv = s.drv := by simp [State.ignore]
@[simp] theorem State.ignore_sns (s : State) (k : IgnKind) (p : Bool) (l : Nat) : (s.ignore k p l).sns = s.sns := by simp [State.ignore]
@[simp] theorem State.ignore_pnt (s : State) (k : IgnKind) (p : Bool) (l : Nat) : (s.ignore k p l).pnt = s.pnt := by simp [State.ignore]
@[simp] theorem State.ignore_fle (s : State) (k : IgnKind) (p : Bool) (l : Nat) : (s.ignore k p l).fle = s.fle := by simp [State.ignore]
@[simp] theorem State.ignore_tap (s : State) (k : IgnKind) (p : Bool) (l : Nat) : (s.ignore k p l).tap = s.tap := by simp [State.ignore]
@[simp] theorem State.ignore_pending (s : State) (k : IgnKind) (p : Bool) (l : Nat) : (s.ignore k p l).pending = s.pending := by simp [State.ignore]

@[simp] theorem State.ignoreReg_inReset (s : State) (c : Src) (a : Nat) : (s.ignoreReg c a).inReset = s.inReset := by simp [State.ignoreReg]
@[simp] theorem State.ignoreReg_dt (s : State) (c : Src) (a : Nat) : (s.ignoreReg c a).dt = s.dt := by simp [State.ignoreReg]
@[simp] theorem State.ignoreReg_mem (s : State) (c : Src) (a : Nat) : (s.ignoreReg c a).mem = s.mem := by simp [State.ignoreReg]
@[simp] theorem State.ignoreReg_synd (s : State) (c : Src) (a : Nat) : (s.ignoreReg c a).synd = s.synd := by simp [State.ignoreReg]
@[simp] theorem State.ignoreReg_lastRead (s : State) (c : Src) (a : Nat) : (s.ignoreReg c a).lastRead = s.lastRead := by simp [State.ignoreReg]
@[simp] theorem State.ignoreReg_free (s : State) (c : Src) (a : Nat) : (s.ignoreReg c a).free = s.free := by simp [State.ignoreReg]
@[simp] theorem State.ignoreReg_flt (s : State) (c : Src) (a : Nat) : (s.ignoreReg c a).flt = s.flt := by simp [State.ignoreReg]
@[simp] theorem State.ignoreReg_emi (s : State) (c : Src) (a : Nat) : (s.ignoreReg c a).emi = s.emi := by simp [State.ignoreReg]
@[simp] theorem State.ignoreReg_ret (s : State) (c : Src) (a : Nat) : (s.ignoreReg c a).ret = s.ret := by simp [State.ignoreReg]
@[simp] theorem State.ignoreReg_stl (s : State) (c : Src) (a : Nat) : (s.ignoreReg c a).stl = s.stl := by simp [State.ignoreReg]
@[simp] theorem State.ignoreReg_pool (s : State) (c : Src) (a : Nat) : (s.ignoreReg c a).pool = s.pool := by simp [State.ignoreReg]
@[simp] theorem State.ignoreReg_cal (s : State) (c : Src) (a : Nat) : (s.ignoreReg c a).cal = s.cal := by simp [State.ignoreReg]
@[simp] theorem State.ignoreReg_dec (s : State) (c : Src) (a : Nat) : (s.ignoreReg c a).dec = s.dec := by simp [State.ignoreReg]
@[simp] theorem State.ignoreReg_seq (s : State) (c : Src) (a : Nat) : (s.ignoreReg c a).seq = s.seq := by simp [State.ignoreReg]
@[simp] theorem State.ignoreReg_prs (s : State) (c : Src) (a : Nat) : (s.ignoreReg c a).prs = s.prs := by simp [State.ignoreReg]
@[simp] theorem State.ignoreReg_axs (s : State) (c : Src) (a : Nat) : (s.ignoreReg c a).axs = s.axs := by simp [State.ignoreReg]
@[simp] theorem State.ignoreReg_drv (s : State) (c : Src) (a : Nat) : (s.ignoreReg c a).drv = s.drv := by simp [State.ignoreReg]
@[simp] theorem State.ignoreReg_sns (s : State) (c : Src) (a : Nat) : (s.ignoreReg c a).sns = s.sns := by simp [State.ignoreReg]
@[simp] theorem State.ignoreReg_pnt (s : State) (c : Src) (a : Nat) : (s.ignoreReg c a).pnt = s.pnt := by simp [State.ignoreReg]
@[simp] theorem State.ignoreReg_fle (s : State) (c : Src) (a : Nat) : (s.ignoreReg c a).fle = s.fle := by simp [State.ignoreReg]
@[simp] theorem State.ignoreReg_tap (s : State) (c : Src) (a : Nat) : (s.ignoreReg c a).tap = s.tap := by simp [State.ignoreReg]
@[simp] theorem State.ignoreReg_pending (s : State) (c : Src) (a : Nat) : (s.ignoreReg c a).pending = s.pending := by simp [State.ignoreReg]

@[simp] theorem State.setStat_inReset (s : State) (f : Fld) (b : Bool) : (s.setStat f b).inReset = s.inReset := by simp [State.setStat]
@[simp] theorem State.setStat_dt (s : State) (f : Fld) (b : Bool) : (s.setStat f b).dt = s.dt := by simp [State.setStat]
@[simp] theorem State.setStat_mem (s : State) (f : Fld) (b : Bool) : (s.setStat f b).mem = s.mem := by simp [State.setStat]
@[simp] theorem State.setStat_synd (s : State) (f : Fld) (b : Bool) : (s.setStat f b).synd = s.synd := by simp [State.setStat]
@[simp] theorem State.setStat_lastRead (s : State) (f : Fld) (b : Bool) : (s.setStat f b).lastRead = s.lastRead := by simp [State.setStat]
@[simp] theorem State.setStat_free (s : State) (f : Fld) (b : Bool) : (s.setStat f b).free = s.free := by simp [State.setStat]
@[simp] theorem State.setStat_flt (s : State) (f : Fld) (b : Bool) : (s.setStat f b).flt = s.flt := by simp [State.setStat]
@[simp] theorem State.setStat_emi (s : State) (f : Fld) (b : Bool) : (s.setStat f b).emi = s.emi := by simp [State.setStat]
@[simp] theorem State.setStat_ret (s : State) (f : Fld) (b : Bool) : (s.setStat f b).ret = s.ret := by simp [State.setStat]
@[simp] theorem State.setStat_stl (s : State) (f : Fld) (b : Bool) : (s.setStat f b).stl = s.stl := by simp [State.setStat]
@[simp] theorem State.setStat_pool (s : State) (f : Fld) (b : Bool) : (s.setStat f b).pool = s.pool := by simp [State.setStat]
@[simp] theorem State.setStat_cal (s : State) (f : Fld) (b : Bool) : (s.setStat f b).cal = s.cal := by simp [State.setStat]
@[simp] theorem State.setStat_dec (s : State) (f : Fld) (b : Bool) : (s.setStat f b).dec = s.dec := by simp [State.setStat]
@[simp] theorem State.setStat_seq (s : State) (f : Fld) (b : Bool) : (s.setStat f b).seq = s.seq := by simp [State.setStat]
@[simp] theorem State.setStat_prs (s : State) (f : Fld) (b : Bool) : (s.setStat f b).prs = s.prs := by simp [State.setStat]
@[simp] theorem State.setStat_axs (s : State) (f : Fld) (b : Bool) : (s.setStat f b).axs = s.axs := by simp [State.setStat]
@[simp] theorem State.setStat_drv (s : State) (f : Fld) (b : Bool) : (s.setStat f b).drv = s.drv := by simp [State.setStat]
@[simp] theorem State.setStat_sns (s : State) (f : Fld) (b : Bool) : (s.setStat f b).sns = s.sns := by simp [State.setStat]
@[simp] theorem State.setStat_pnt (s : State) (f : Fld) (b : Bool) : (s.setStat f b).pnt = s.pnt := by simp [State.setStat]
@[simp] theorem State.setStat_fle (s : State) (f : Fld) (b : Bool) : (s.setStat f b).fle = s.fle := by simp [State.setStat]
@[simp] theorem State.setStat_tap (s : State) (f : Fld) (b : Bool) : (s.setStat f b).tap = s.tap := by simp [State.setStat]
@[simp] theorem State.setStat_pending (s : State) (f : Fld) (b : Bool) : (s.setStat f b).pending = s.pending := by simp [State.setStat]

@[simp] theorem State.showRoots_inReset (s : State) : s.showRoots.inReset = s.inReset := rfl
@[simp] theorem State.showRoots_dt (s : State) : s.showRoots.dt = s.dt := rfl
@[simp] theorem State.showRoots_mem (s : State) : s.showRoots.mem = s.mem := rfl
@[simp] theorem State.showRoots_synd (s : State) : s.showRoots.synd = s.synd := rfl
@[simp] theorem State.showRoots_lastRead (s : State) : s.showRoots.lastRead = s.lastRead := rfl
@[simp] theorem State.showRoots_outs (s : State) : s.showRoots.outs = s.outs := rfl
@[simp] theorem State.showRoots_free (s : State) : s.showRoots.free = s.free := rfl
@[simp] theorem State.showRoots_flt (s : State) : s.showRoots.flt = s.flt := rfl
@[simp] theorem State.showRoots_emi (s : State) : s.showRoots.emi = s.emi := rfl
@[simp] theorem State.showRoots_ret (s : State) : s.showRoots.ret = s.ret := rfl
@[simp] theorem State.showRoots_stl (s : State) : s.showRoots.stl = s.stl := rfl
@[simp] theorem State.showRoots_pool (s : State) : s.showRoots.pool = s.pool := rfl
@[simp] theorem State.showRoots_cal (s : State) : s.showRoots.cal = s.cal := rfl
@[simp] theorem State.showRoots_dec (s : State) : s.showRoots.dec = s.dec := rfl
@[simp] theorem State.showRoots_seq (s : State) : s.showRoots.seq = s.seq := rfl
@[simp] theorem State.showRoots_prs (s : State) : s.showRoots.prs = s.prs := rfl
@[simp] theorem State.showRoots_axs (s : State) : s.showRoots.axs = s.axs := rfl
@[simp] theorem State.showRoots_drv (s : State) : s.showRoots.drv = s.drv := rfl
@[simp] theorem State.showRoots_sns (s : State) : s.showRoots.sns = s.sns := rfl
@[simp] theorem State.showRoots_pnt (s : State) : s.showRoots.pnt = s.pnt := rfl
@[simp] theorem State.showRoots_fle (s : State) : s.showRoots.fle = s.fle := rfl
@[simp] theorem State.showRoots_tap (s : State) : s.showRoots.tap = s.tap := rfl
@[simp] theorem State.showRoots_hifx (s : State) : s.showRoots.hifx = s.hifx := rfl
@[simp] theorem State.showRoots_pending (s : State) : s.showRoots.pending = s.pending := rfl

@[simp] theorem State.absorb_inReset (s : State) (r : Root) (n : Nat) : (s.absorb r n).inReset = s.inReset := by unfold State.absorb; simp only; (repeat' split) <;> rfl
@[simp] theorem State.absorb_dt (s : State) (r : Root) (n : Nat) : (s.absorb r n).dt = s.dt := by unfold State.absorb; simp only; (repeat' split) <;> rfl
@[simp] theorem State.absorb_mem (s : State) (r : Root) (n : Nat) : (s.absorb r n).mem = s.mem := by unfold State.absorb; simp only; (repeat' split) <;> rfl
@[simp] theorem State.absorb_synd (s : State) (r : Root) (n : Nat) : (s.absorb r n).synd = s.synd := by unfold State.absorb; simp only; (repeat' split) <;> rfl
@[simp] theorem State.absorb_lastRead (s : State) (r : Root) (n : Nat) : (s.absorb r n).lastRead = s.lastRead := by unfold State.absorb; simp only; (repeat' split) <;> rfl
@[simp] theorem State.absorb_outs (s : State) (r : Root) (n : Nat) : (s.absorb r n).outs = s.outs := by unfold State.absorb; simp only; (repeat' split) <;> rfl
@[simp] theorem State.absorb_free (s : State) (r : Root) (n : Nat) : (s.absorb r n).free = s.free := by unfold State.absorb; simp only; (repeat' split) <;> rfl
@[simp] theorem State.absorb_emi (s : State) (r : Root) (n : Nat) : (s.absorb r n).emi = s.emi := by unfold State.absorb; simp only; (repeat' split) <;> rfl
@[simp] theorem State.absorb_ret (s : State) (r : Root) (n : Nat) : (s.absorb r n).ret = s.ret := by unfold State.absorb; simp only; (repeat' split) <;> rfl
@[simp] theorem State.absorb_stl (s : State) (r : Root) (n : Nat) : (s.absorb r n).stl = s.stl := by unfold State.absorb; simp only; (repeat' split) <;> rfl
@[simp] theorem State.absorb_pool (s : State) (r : Root) (n : Nat) : (s.absorb r n).pool = s.pool := by unfold State.absorb; simp only; (repeat' split) <;> rfl
@[simp] theorem State.absorb_cal (s : State) (r : Root) (n : Nat) : (s.absorb r n).cal = s.cal := by unfold State.absorb; simp only; (repeat' split) <;> rfl
@[simp] theorem State.absorb_dec (s : State) (r : Root) (n : Nat) : (s.absorb r n).dec = s.dec := by unfold State.absorb; simp only; (repeat' split) <;> rfl
@[simp] theorem State.absorb_seq (s : State) (r : Root) (n : Nat) : (s.absorb r n).seq = s.seq := by unfold State.absorb; simp only; (repeat' split) <;> rfl
@[simp] theorem State.absorb_prs (s : State) (r : Root) (n : Nat) : (s.absorb r n).prs = s.prs := by unfold State.absorb; simp only; (repeat' split) <;> rfl
@[simp] theorem State.absorb_axs (s : State) (r : Root) (n : Nat) : (s.absorb r n).axs = s.axs := by unfold State.absorb; simp only; (repeat' split) <;> rfl
@[simp] theorem State.absorb_drv (s : State) (r : Root) (n : Nat) : (s.absorb r n).drv = s.drv := by unfold State.absorb; simp only; (repeat' split) <;> rfl
@[simp] theorem State.absorb_sns (s : State) (r : Root) (n : Nat) : (s.absorb r n).sns = s.sns := by unfold State.absorb; simp only; (repeat' split) <;> rfl
@[simp] theorem State.absorb_pnt (s : State) (r : Root) (n : Nat) : (s.absorb r n).pnt = s.pnt := by unfold State.absorb; simp only; (repeat' split) <;> rfl
@[simp] theorem State.absorb_fle (s : State) (r : Root) (n : Nat) : (s.absorb r n).fle = s.fle := by unfold State.absorb; simp only; (repeat' split) <;> rfl
@[simp] theorem State.absorb_tap (s : State) (r : Root) (n : Nat) : (s.absorb r n).tap = s.tap := by unfold State.absorb; simp only; (repeat' split) <;> rfl
@[simp] theorem State.absorb_hifx (s : State) (r : Root) (n : Nat) : (s.absorb r n).hifx = s.hifx := by unfold State.absorb; simp only; (repeat' split) <;> rfl
@[simp] theorem State.absorb_pending (s : State) (r : Root) (n : Nat) : (s.absorb r n).pending = s.pending := by unfold State.absorb; simp only; (repeat' split) <;> rfl

@[simp] theorem State.raiseIn_inReset (s : State) (f : FaultRec) (m : Option Nat) : (s.raiseIn f m).inReset = s.inReset := by unfold State.raiseIn; simp only; (repeat' split) <;> simp
@[simp] theorem State.raiseIn_dt (s : State) (f : FaultRec) (m : Option Nat) : (s.raiseIn f m).dt = s.dt := by unfold State.raiseIn; simp only; (repeat' split) <;> simp
@[simp] theorem State.raiseIn_mem (s : State) (f : FaultRec) (m : Option Nat) : (s.raiseIn f m).mem = s.mem := by unfold State.raiseIn; simp only; (repeat' split) <;> simp
@[simp] theorem State.raiseIn_synd (s : State) (f : FaultRec) (m : Option Nat) : (s.raiseIn f m).synd = s.synd := by unfold State.raiseIn; simp only; (repeat' split) <;> simp
@[simp] theorem State.raiseIn_lastRead (s : State) (f : FaultRec) (m : Option Nat) : (s.raiseIn f m).lastRead = s.lastRead := by unfold State.raiseIn; simp only; (repeat' split) <;> simp
@[simp] theorem State.raiseIn_outs (s : State) (f : FaultRec) (m : Option Nat) : (s.raiseIn f m).outs = s.outs := by unfold State.raiseIn; simp only; (repeat' split) <;> simp
@[simp] theorem State.raiseIn_free (s : State) (f : FaultRec) (m : Option Nat) : (s.raiseIn f m).free = s.free := by unfold State.raiseIn; simp only; (repeat' split) <;> simp
@[simp] theorem State.raiseIn_emi (s : State) (f : FaultRec) (m : Option Nat) : (s.raiseIn f m).emi = s.emi := by unfold State.raiseIn; simp only; (repeat' split) <;> simp
@[simp] theorem State.raiseIn_ret (s : State) (f : FaultRec) (m : Option Nat) : (s.raiseIn f m).ret = s.ret := by unfold State.raiseIn; simp only; (repeat' split) <;> simp
@[simp] theorem State.raiseIn_stl (s : State) (f : FaultRec) (m : Option Nat) : (s.raiseIn f m).stl = s.stl := by unfold State.raiseIn; simp only; (repeat' split) <;> simp
@[simp] theorem State.raiseIn_pool (s : State) (f : FaultRec) (m : Option Nat) : (s.raiseIn f m).pool = s.pool := by unfold State.raiseIn; simp only; (repeat' split) <;> simp
@[simp] theorem State.raiseIn_cal (s : State) (f : FaultRec) (m : Option Nat) : (s.raiseIn f m).cal = s.cal := by unfold State.raiseIn; simp only; (repeat' split) <;> simp
@[simp] theorem State.raiseIn_dec (s : State) (f : FaultRec) (m : Option Nat) : (s.raiseIn f m).dec = s.dec := by unfold State.raiseIn; simp only; (repeat' split) <;> simp
@[simp] theorem State.raiseIn_seq (s : State) (f : FaultRec) (m : Option Nat) : (s.raiseIn f m).seq = s.seq := by unfold State.raiseIn; simp only; (repeat' split) <;> simp
@[simp] theorem State.raiseIn_prs (s : State) (f : FaultRec) (m : Option Nat) : (s.raiseIn f m).prs = s.prs := by unfold State.raiseIn; simp only; (repeat' split) <;> simp
@[simp] theorem State.raiseIn_axs (s : State) (f : FaultRec) (m : Option Nat) : (s.raiseIn f m).axs = s.axs := by unfold State.raiseIn; simp only; (repeat' split) <;> simp
@[simp] theorem State.raiseIn_drv (s : State) (f : FaultRec) (m : Option Nat) : (s.raiseIn f m).drv = s.drv := by unfold State.raiseIn; simp only; (repeat' split) <;> simp
@[simp] theorem State.raiseIn_sns (s : State) (f : FaultRec) (m : Option Nat) : (s.raiseIn f m).sns = s.sns := by unfold State.raiseIn; simp only; (repeat' split) <;> simp
@[simp] theorem State.raiseIn_pnt (s : State) (f : FaultRec) (m : Option Nat) : (s.raiseIn f m).pnt = s.pnt := by unfold State.raiseIn; simp only; (repeat' split) <;> simp
@[simp] theorem State.raiseIn_fle (s : State) (f : FaultRec) (m : Option Nat) : (s.raiseIn f m).fle = s.fle := by unfold State.raiseIn; simp only; (repeat' split) <;> simp
@[simp] theorem State.raiseIn_tap (s : State) (f : FaultRec) (m : Option Nat) : (s.raiseIn f m).tap = s.tap := by unfold State.raiseIn; simp only; (repeat' split) <;> simp
@[simp] theorem State.raiseIn_hifx (s : State) (f : FaultRec) (m : Option Nat) : (s.raiseIn f m).hifx = s.hifx := by unfold State.raiseIn; simp only; (repeat' split) <;> simp
@[simp] theorem State.raiseIn_pending (s : State) (f : FaultRec) (m : Option Nat) : (s.raiseIn f m).pending = s.pending := by unfold State.raiseIn; simp only; (repeat' split) <;> simp

@[simp] theorem State.raise_inReset (s : State) (c i d : Nat) (x : Bool) (l : List Nat) (z : Bool) (n : Nat) : (s.raise c i d x l z n).inReset = s.inReset := by simp [State.raise]
@[simp] theorem State.raise_dt (s : State) (c i d : Nat) (x : Bool) (l : List Nat) (z : Bool) (n : Nat) : (s.raise c i d x l z n).dt = s.dt := by simp [State.raise]
@[simp] theorem State.raise_mem (s : State) (c i d : Nat) (x : Bool) (l : List Nat) (z : Bool) (n : Nat) : (s.raise c i d x l z n).mem = s.mem := by simp [State.raise]
@[simp] theorem State.raise_synd (s : State) (c i d : Nat) (x : Bool) (l : List Nat) (z : Bool) (n : Nat) : (s.raise c i d x l z n).synd = s.synd := by simp [State.raise]
@[simp] theorem State.raise_lastRead (s : State) (c i d : Nat) (x : Bool) (l : List Nat) (z : Bool) (n : Nat) : (s.raise c i d x l z n).lastRead = s.lastRead := by simp [State.raise]
@[simp] theorem State.raise_outs (s : State) (c i d : Nat) (x : Bool) (l : List Nat) (z : Bool) (n : Nat) : (s.raise c i d x l z n).outs = s.outs := by simp [State.raise]
@[simp] theorem State.raise_free (s : State) (c i d : Nat) (x : Bool) (l : List Nat) (z : Bool) (n : Nat) : (s.raise c i d x l z n).free = s.free := by simp [State.raise]
@[simp] theorem State.raise_emi (s : State) (c i d : Nat) (x : Bool) (l : List Nat) (z : Bool) (n : Nat) : (s.raise c i d x l z n).emi = s.emi := by simp [State.raise]
@[simp] theorem State.raise_ret (s : State) (c i d : Nat) (x : Bool) (l : List Nat) (z : Bool) (n : Nat) : (s.raise c i d x l z n).ret = s.ret := by simp [State.raise]
@[simp] theorem State.raise_stl (s : State) (c i d : Nat) (x : Bool) (l : List Nat) (z : Bool) (n : Nat) : (s.raise c i d x l z n).stl = s.stl := by simp [State.raise]
@[simp] theorem State.raise_pool (s : State) (c i d : Nat) (x : Bool) (l : List Nat) (z : Bool) (n : Nat) : (s.raise c i d x l z n).pool = s.pool := by simp [State.raise]
@[simp] theorem State.raise_cal (s : State) (c i d : Nat) (x : Bool) (l : List Nat) (z : Bool) (n : Nat) : (s.raise c i d x l z n).cal = s.cal := by simp [State.raise]
@[simp] theorem State.raise_dec (s : State) (c i d : Nat) (x : Bool) (l : List Nat) (z : Bool) (n : Nat) : (s.raise c i d x l z n).dec = s.dec := by simp [State.raise]
@[simp] theorem State.raise_seq (s : State) (c i d : Nat) (x : Bool) (l : List Nat) (z : Bool) (n : Nat) : (s.raise c i d x l z n).seq = s.seq := by simp [State.raise]
@[simp] theorem State.raise_prs (s : State) (c i d : Nat) (x : Bool) (l : List Nat) (z : Bool) (n : Nat) : (s.raise c i d x l z n).prs = s.prs := by simp [State.raise]
@[simp] theorem State.raise_axs (s : State) (c i d : Nat) (x : Bool) (l : List Nat) (z : Bool) (n : Nat) : (s.raise c i d x l z n).axs = s.axs := by simp [State.raise]
@[simp] theorem State.raise_drv (s : State) (c i d : Nat) (x : Bool) (l : List Nat) (z : Bool) (n : Nat) : (s.raise c i d x l z n).drv = s.drv := by simp [State.raise]
@[simp] theorem State.raise_sns (s : State) (c i d : Nat) (x : Bool) (l : List Nat) (z : Bool) (n : Nat) : (s.raise c i d x l z n).sns = s.sns := by simp [State.raise]
@[simp] theorem State.raise_pnt (s : State) (c i d : Nat) (x : Bool) (l : List Nat) (z : Bool) (n : Nat) : (s.raise c i d x l z n).pnt = s.pnt := by simp [State.raise]
@[simp] theorem State.raise_fle (s : State) (c i d : Nat) (x : Bool) (l : List Nat) (z : Bool) (n : Nat) : (s.raise c i d x l z n).fle = s.fle := by simp [State.raise]
@[simp] theorem State.raise_tap (s : State) (c i d : Nat) (x : Bool) (l : List Nat) (z : Bool) (n : Nat) : (s.raise c i d x l z n).tap = s.tap := by simp [State.raise]
@[simp] theorem State.raise_hifx (s : State) (c i d : Nat) (x : Bool) (l : List Nat) (z : Bool) (n : Nat) : (s.raise c i d x l z n).hifx = s.hifx := by simp [State.raise]
@[simp] theorem State.raise_pending (s : State) (c i d : Nat) (x : Bool) (l : List Nat) (z : Bool) (n : Nat) : (s.raise c i d x l z n).pending = s.pending := by simp [State.raise]

@[simp] theorem State.endRoot_inReset (s : State) (c i : Nat) : (s.endRoot c i).inReset = s.inReset := by simp [State.endRoot]
@[simp] theorem State.endRoot_dt (s : State) (c i : Nat) : (s.endRoot c i).dt = s.dt := by simp [State.endRoot]
@[simp] theorem State.endRoot_mem (s : State) (c i : Nat) : (s.endRoot c i).mem = s.mem := by simp [State.endRoot]
@[simp] theorem State.endRoot_synd (s : State) (c i : Nat) : (s.endRoot c i).synd = s.synd := by simp [State.endRoot]
@[simp] theorem State.endRoot_lastRead (s : State) (c i : Nat) : (s.endRoot c i).lastRead = s.lastRead := by simp [State.endRoot]
@[simp] theorem State.endRoot_outs (s : State) (c i : Nat) : (s.endRoot c i).outs = s.outs := by simp [State.endRoot]
@[simp] theorem State.endRoot_free (s : State) (c i : Nat) : (s.endRoot c i).free = s.free := by simp [State.endRoot]
@[simp] theorem State.endRoot_emi (s : State) (c i : Nat) : (s.endRoot c i).emi = s.emi := by simp [State.endRoot]
@[simp] theorem State.endRoot_ret (s : State) (c i : Nat) : (s.endRoot c i).ret = s.ret := by simp [State.endRoot]
@[simp] theorem State.endRoot_stl (s : State) (c i : Nat) : (s.endRoot c i).stl = s.stl := by simp [State.endRoot]
@[simp] theorem State.endRoot_pool (s : State) (c i : Nat) : (s.endRoot c i).pool = s.pool := by simp [State.endRoot]
@[simp] theorem State.endRoot_cal (s : State) (c i : Nat) : (s.endRoot c i).cal = s.cal := by simp [State.endRoot]
@[simp] theorem State.endRoot_dec (s : State) (c i : Nat) : (s.endRoot c i).dec = s.dec := by simp [State.endRoot]
@[simp] theorem State.endRoot_seq (s : State) (c i : Nat) : (s.endRoot c i).seq = s.seq := by simp [State.endRoot]
@[simp] theorem State.endRoot_prs (s : State) (c i : Nat) : (s.endRoot c i).prs = s.prs := by simp [State.endRoot]
@[simp] theorem State.endRoot_axs (s : State) (c i : Nat) : (s.endRoot c i).axs = s.axs := by simp [State.endRoot]
@[simp] theorem State.endRoot_drv (s : State) (c i : Nat) : (s.endRoot c i).drv = s.drv := by simp [State.endRoot]
@[simp] theorem State.endRoot_sns (s : State) (c i : Nat) : (s.endRoot c i).sns = s.sns := by simp [State.endRoot]
@[simp] theorem State.endRoot_pnt (s : State) (c i : Nat) : (s.endRoot c i).pnt = s.pnt := by simp [State.endRoot]
@[simp] theorem State.endRoot_fle (s : State) (c i : Nat) : (s.endRoot c i).fle = s.fle := by simp [State.endRoot]
@[simp] theorem State.endRoot_tap (s : State) (c i : Nat) : (s.endRoot c i).tap = s.tap := by simp [State.endRoot]
@[simp] theorem State.endRoot_hifx (s : State) (c i : Nat) : (s.endRoot c i).hifx = s.hifx := by simp [State.endRoot]
@[simp] theorem State.endRoot_pending (s : State) (c i : Nat) : (s.endRoot c i).pending = s.pending := by simp [State.endRoot]

end Sys2Proof.Machine
end

