-- ==== Sys2Proof/Laws/Memory.lean ====
section
/-!
SUPPORT. Laws of the protected memories: bytes after a write, reads of clean words, what reads and writes leave alone, and the canonical
form.
-/
namespace Sys2Proof.Machine

/-- What every step of a fold keeps, the fold keeps. -/
theorem foldl_keeps {α σ : Type} (P : σ → Prop) (f : σ → α → σ) (h : ∀ s x, P s → P (f s x)) (l : List α) (s : σ) (hs : P s) :
    P (l.foldl f s) := by
  induction l generalizing s with
  | nil => exact hs
  | cons x l ih => exact ih (f s x) (h s x hs)

/-- What every step of a fold leaves alone, the fold leaves alone. -/
theorem foldl_same {α σ τ : Type} (p : σ → τ) (f : σ → α → σ) (h : ∀ s x, p (f s x) = p s) (l : List α) (s : σ) :
    p (l.foldl f s) = p s :=
  foldl_keeps (fun t => p t = p s) f (fun t x ht => (h t x).trans ht) l s rfl

/-! ### Bytes -/

@[simp] theorem State.byte_setByte (s : State) (a b : Nat) (v : Byte) : (s.setByte a v).byte b = if b = a then v else s.byte b :=
  FMap.get_set _ s.mem a b v

@[simp] theorem State.byte_setErrors (s : State) (w : Nat) (v : Word) (b : Nat) : (s.setErrors w v).byte b = s.byte b := rfl

@[simp] theorem State.errors_setByte (s : State) (a : Nat) (v : Byte) (w : Nat) : (s.setByte a v).errors w = s.errors w := rfl

@[simp] theorem State.errors_setErrors (s : State) (w x : Nat) (v : Word) :
    (s.setErrors w v).errors x = if x = w then v else s.errors x :=
  FMap.get_set _ s.synd w x v

theorem State.errors_setBytes (s : State) (a : Nat) (bs : List Byte) (w : Nat) : (s.setBytes a bs).errors w = s.errors w := by
  induction bs generalizing s a with
  | nil => rfl
  | cons b bs ih => simp [State.setBytes, ih]

/-- A byte after a run of bytes was written. -/
theorem State.byte_setBytes (s : State) (a : Nat) (bs : List Byte) (b : Nat) :
    (s.setBytes a bs).byte b = if a ≤ b ∧ b < a + bs.length then bs.getD (b - a) 0#8 else s.byte b := by
  induction bs generalizing s a with
  | nil =>
    have : ¬ (a ≤ b ∧ b < a + ([] : List Byte).length) := by simp
    rw [if_neg this]
    rfl
  | cons x bs ih =>
    rw [State.setBytes, ih, List.length_cons]
    by_cases h1 : b = a
    · subst h1
      have : ¬ (b + 1 ≤ b ∧ b < b + 1 + bs.length) := by omega
      rw [if_neg this]
      simp
    · by_cases h2 : a + 1 ≤ b ∧ b < a + 1 + bs.length
      · have h3 : a ≤ b ∧ b < a + (bs.length + 1) := by omega
        have h4 : b - a = (b - (a + 1)) + 1 := by omega
        rw [if_pos h2, if_pos h3, h4, List.getD_cons_succ]
      · have h3 : ¬ (a ≤ b ∧ b < a + (bs.length + 1)) := by omega
        rw [if_neg h2, if_neg h3]
        simp [h1]

/-! ### Clean words -/

/-- The decoder finds nothing to correct in a word without errors (R35). -/
theorem rsDecode_zero : rsDecode 0#32 = some [] := by decide

theorem State.touch_clean (s : State) (w : Nat) (h : s.errors w = 0#32) : s.touch w = s := by
  simp [State.touch, h, rsDecode_zero]

theorem State.wordOk_clean (s : State) (w : Nat) (h : s.errors w = 0#32) : s.wordOk w = true := by
  simp [State.wordOk, h, rsDecode_zero]

/-- A read of clean words changes nothing. -/
theorem State.touchRange_clean (s : State) (a n : Nat) (h : ∀ w ∈ wordsOf a n, s.errors w = 0#32) : s.touchRange a n = s := by
  unfold State.touchRange
  generalize wordsOf a n = ws at h
  induction ws with
  | nil => rfl
  | cons w ws ih =>
    rw [List.foldl_cons, State.touch_clean s w (h w (by simp))]
    exact ih fun x hx => h x (by simp [hx])

theorem State.rangeOk_clean (s : State) (a n : Nat) (h : ∀ w ∈ wordsOf a n, s.errors w = 0#32) : s.rangeOk a n = true := by
  unfold State.rangeOk
  rw [List.all_eq_true]
  exact fun w hw => State.wordOk_clean s w (h w hw)

/-! ### What reads and writes leave alone -/

@[simp] theorem State.setBytes_inReset (s : State) (a : Nat) (l : List Byte) : (s.setBytes a l).inReset = s.inReset := by induction l generalizing s a with
  | nil => rfl
  | cons b l ih => simp [State.setBytes, ih]
@[simp] theorem State.setBytes_dt (s : State) (a : Nat) (l : List Byte) : (s.setBytes a l).dt = s.dt := by induction l generalizing s a with
  | nil => rfl
  | cons b l ih => simp [State.setBytes, ih]
@[simp] theorem State.setBytes_lastRead (s : State) (a : Nat) (l : List Byte) : (s.setBytes a l).lastRead = s.lastRead := by induction l generalizing s a with
  | nil => rfl
  | cons b l ih => simp [State.setBytes, ih]
@[simp] theorem State.setBytes_outs (s : State) (a : Nat) (l : List Byte) : (s.setBytes a l).outs = s.outs := by induction l generalizing s a with
  | nil => rfl
  | cons b l ih => simp [State.setBytes, ih]
@[simp] theorem State.setBytes_free (s : State) (a : Nat) (l : List Byte) : (s.setBytes a l).free = s.free := by induction l generalizing s a with
  | nil => rfl
  | cons b l ih => simp [State.setBytes, ih]
@[simp] theorem State.setBytes_emi (s : State) (a : Nat) (l : List Byte) : (s.setBytes a l).emi = s.emi := by induction l generalizing s a with
  | nil => rfl
  | cons b l ih => simp [State.setBytes, ih]
@[simp] theorem State.setBytes_ret (s : State) (a : Nat) (l : List Byte) : (s.setBytes a l).ret = s.ret := by induction l generalizing s a with
  | nil => rfl
  | cons b l ih => simp [State.setBytes, ih]
@[simp] theorem State.setBytes_stl (s : State) (a : Nat) (l : List Byte) : (s.setBytes a l).stl = s.stl := by induction l generalizing s a with
  | nil => rfl
  | cons b l ih => simp [State.setBytes, ih]
@[simp] theorem State.setBytes_pool (s : State) (a : Nat) (l : List Byte) : (s.setBytes a l).pool = s.pool := by induction l generalizing s a with
  | nil => rfl
  | cons b l ih => simp [State.setBytes, ih]
@[simp] theorem State.setBytes_cal (s : State) (a : Nat) (l : List Byte) : (s.setBytes a l).cal = s.cal := by induction l generalizing s a with
  | nil => rfl
  | cons b l ih => simp [State.setBytes, ih]
@[simp] theorem State.setBytes_dec (s : State) (a : Nat) (l : List Byte) : (s.setBytes a l).dec = s.dec := by induction l generalizing s a with
  | nil => rfl
  | cons b l ih => simp [State.setBytes, ih]
@[simp] theorem State.setBytes_seq (s : State) (a : Nat) (l : List Byte) : (s.setBytes a l).seq = s.seq := by induction l generalizing s a with
  | nil => rfl
  | cons b l ih => simp [State.setBytes, ih]
@[simp] theorem State.setBytes_prs (s : State) (a : Nat) (l : List Byte) : (s.setBytes a l).prs = s.prs := by induction l generalizing s a with
  | nil => rfl
  | cons b l ih => simp [State.setBytes, ih]
@[simp] theorem State.setBytes_axs (s : State) (a : Nat) (l : List Byte) : (s.setBytes a l).axs = s.axs := by induction l generalizing s a with
  | nil => rfl
  | cons b l ih => simp [State.setBytes, ih]
@[simp] theorem State.setBytes_drv (s : State) (a : Nat) (l : List Byte) : (s.setBytes a l).drv = s.drv := by induction l generalizing s a with
  | nil => rfl
  | cons b l ih => simp [State.setBytes, ih]
@[simp] theorem State.setBytes_sns (s : State) (a : Nat) (l : List Byte) : (s.setBytes a l).sns = s.sns := by induction l generalizing s a with
  | nil => rfl
  | cons b l ih => simp [State.setBytes, ih]
@[simp] theorem State.setBytes_pnt (s : State) (a : Nat) (l : List Byte) : (s.setBytes a l).pnt = s.pnt := by induction l generalizing s a with
  | nil => rfl
  | cons b l ih => simp [State.setBytes, ih]
@[simp] theorem State.setBytes_fle (s : State) (a : Nat) (l : List Byte) : (s.setBytes a l).fle = s.fle := by induction l generalizing s a with
  | nil => rfl
  | cons b l ih => simp [State.setBytes, ih]
@[simp] theorem State.setBytes_tap (s : State) (a : Nat) (l : List Byte) : (s.setBytes a l).tap = s.tap := by induction l generalizing s a with
  | nil => rfl
  | cons b l ih => simp [State.setBytes, ih]
@[simp] theorem State.setBytes_hifx (s : State) (a : Nat) (l : List Byte) : (s.setBytes a l).hifx = s.hifx := by induction l generalizing s a with
  | nil => rfl
  | cons b l ih => simp [State.setBytes, ih]
@[simp] theorem State.setBytes_pending (s : State) (a : Nat) (l : List Byte) : (s.setBytes a l).pending = s.pending := by induction l generalizing s a with
  | nil => rfl
  | cons b l ih => simp [State.setBytes, ih]

@[simp] theorem State.correct_inReset (s : State) (w : Nat) (l : List (Nat × Byte)) : (s.correct w l).inReset = s.inReset := by
  simp only [State.correct, State.count_inReset, State.setErrors_inReset]
  refine foldl_same (fun s : State => s.inReset) _ (fun s e => ?_) l s
  split <;> simp
@[simp] theorem State.correct_dt (s : State) (w : Nat) (l : List (Nat × Byte)) : (s.correct w l).dt = s.dt := by
  simp only [State.correct, State.count_dt, State.setErrors_dt]
  refine foldl_same (fun s : State => s.dt) _ (fun s e => ?_) l s
  split <;> simp
@[simp] theorem State.correct_lastRead (s : State) (w : Nat) (l : List (Nat × Byte)) : (s.correct w l).lastRead = s.lastRead := by
  simp only [State.correct, State.count_lastRead, State.setErrors_lastRead]
  refine foldl_same (fun s : State => s.lastRead) _ (fun s e => ?_) l s
  split <;> simp
@[simp] theorem State.correct_outs (s : State) (w : Nat) (l : List (Nat × Byte)) : (s.correct w l).outs = s.outs := by
  simp only [State.correct, State.count_outs, State.setErrors_outs]
  refine foldl_same (fun s : State => s.outs) _ (fun s e => ?_) l s
  split <;> simp
@[simp] theorem State.correct_free (s : State) (w : Nat) (l : List (Nat × Byte)) : (s.correct w l).free = s.free := by
  simp only [State.correct, State.count_free, State.setErrors_free]
  refine foldl_same (fun s : State => s.free) _ (fun s e => ?_) l s
  split <;> simp
@[simp] theorem State.correct_emi (s : State) (w : Nat) (l : List (Nat × Byte)) : (s.correct w l).emi = s.emi := by
  simp only [State.correct, State.count_emi, State.setErrors_emi]
  refine foldl_same (fun s : State => s.emi) _ (fun s e => ?_) l s
  split <;> simp
@[simp] theorem State.correct_ret (s : State) (w : Nat) (l : List (Nat × Byte)) : (s.correct w l).ret = s.ret := by
  simp only [State.correct, State.count_ret, State.setErrors_ret]
  refine foldl_same (fun s : State => s.ret) _ (fun s e => ?_) l s
  split <;> simp
@[simp] theorem State.correct_stl (s : State) (w : Nat) (l : List (Nat × Byte)) : (s.correct w l).stl = s.stl := by
  simp only [State.correct, State.count_stl, State.setErrors_stl]
  refine foldl_same (fun s : State => s.stl) _ (fun s e => ?_) l s
  split <;> simp
@[simp] theorem State.correct_pool (s : State) (w : Nat) (l : List (Nat × Byte)) : (s.correct w l).pool = s.pool := by
  simp only [State.correct, State.count_pool, State.setErrors_pool]
  refine foldl_same (fun s : State => s.pool) _ (fun s e => ?_) l s
  split <;> simp
@[simp] theorem State.correct_cal (s : State) (w : Nat) (l : List (Nat × Byte)) : (s.correct w l).cal = s.cal := by
  simp only [State.correct, State.count_cal, State.setErrors_cal]
  refine foldl_same (fun s : State => s.cal) _ (fun s e => ?_) l s
  split <;> simp
@[simp] theorem State.correct_dec (s : State) (w : Nat) (l : List (Nat × Byte)) : (s.correct w l).dec = s.dec := by
  simp only [State.correct, State.count_dec, State.setErrors_dec]
  refine foldl_same (fun s : State => s.dec) _ (fun s e => ?_) l s
  split <;> simp
@[simp] theorem State.correct_seq (s : State) (w : Nat) (l : List (Nat × Byte)) : (s.correct w l).seq = s.seq := by
  simp only [State.correct, State.count_seq, State.setErrors_seq]
  refine foldl_same (fun s : State => s.seq) _ (fun s e => ?_) l s
  split <;> simp
@[simp] theorem State.correct_prs (s : State) (w : Nat) (l : List (Nat × Byte)) : (s.correct w l).prs = s.prs := by
  simp only [State.correct, State.count_prs, State.setErrors_prs]
  refine foldl_same (fun s : State => s.prs) _ (fun s e => ?_) l s
  split <;> simp
@[simp] theorem State.correct_axs (s : State) (w : Nat) (l : List (Nat × Byte)) : (s.correct w l).axs = s.axs := by
  simp only [State.correct, State.count_axs, State.setErrors_axs]
  refine foldl_same (fun s : State => s.axs) _ (fun s e => ?_) l s
  split <;> simp
@[simp] theorem State.correct_drv (s : State) (w : Nat) (l : List (Nat × Byte)) : (s.correct w l).drv = s.drv := by
  simp only [State.correct, State.count_drv, State.setErrors_drv]
  refine foldl_same (fun s : State => s.drv) _ (fun s e => ?_) l s
  split <;> simp
@[simp] theorem State.correct_sns (s : State) (w : Nat) (l : List (Nat × Byte)) : (s.correct w l).sns = s.sns := by
  simp only [State.correct, State.count_sns, State.setErrors_sns]
  refine foldl_same (fun s : State => s.sns) _ (fun s e => ?_) l s
  split <;> simp
@[simp] theorem State.correct_pnt (s : State) (w : Nat) (l : List (Nat × Byte)) : (s.correct w l).pnt = s.pnt := by
  simp only [State.correct, State.count_pnt, State.setErrors_pnt]
  refine foldl_same (fun s : State => s.pnt) _ (fun s e => ?_) l s
  split <;> simp
@[simp] theorem State.correct_fle (s : State) (w : Nat) (l : List (Nat × Byte)) : (s.correct w l).fle = s.fle := by
  simp only [State.correct, State.count_fle, State.setErrors_fle]
  refine foldl_same (fun s : State => s.fle) _ (fun s e => ?_) l s
  split <;> simp
@[simp] theorem State.correct_tap (s : State) (w : Nat) (l : List (Nat × Byte)) : (s.correct w l).tap = s.tap := by
  simp only [State.correct, State.count_tap, State.setErrors_tap]
  refine foldl_same (fun s : State => s.tap) _ (fun s e => ?_) l s
  split <;> simp
@[simp] theorem State.correct_hifx (s : State) (w : Nat) (l : List (Nat × Byte)) : (s.correct w l).hifx = s.hifx := by
  simp only [State.correct, State.count_hifx, State.setErrors_hifx]
  refine foldl_same (fun s : State => s.hifx) _ (fun s e => ?_) l s
  split <;> simp
@[simp] theorem State.correct_pending (s : State) (w : Nat) (l : List (Nat × Byte)) : (s.correct w l).pending = s.pending := by
  simp only [State.correct, State.count_pending, State.setErrors_pending]
  refine foldl_same (fun s : State => s.pending) _ (fun s e => ?_) l s
  split <;> simp

@[simp] theorem State.uncorrectable_inReset (s : State) (w : Nat) (c : Bool) (n : Nat) : (s.uncorrectable w c n).inReset = s.inReset := by simp [State.uncorrectable]
@[simp] theorem State.uncorrectable_dt (s : State) (w : Nat) (c : Bool) (n : Nat) : (s.uncorrectable w c n).dt = s.dt := by simp [State.uncorrectable]
@[simp] theorem State.uncorrectable_lastRead (s : State) (w : Nat) (c : Bool) (n : Nat) : (s.uncorrectable w c n).lastRead = s.lastRead := by simp [State.uncorrectable]
@[simp] theorem State.uncorrectable_outs (s : State) (w : Nat) (c : Bool) (n : Nat) : (s.uncorrectable w c n).outs = s.outs := by simp [State.uncorrectable]
@[simp] theorem State.uncorrectable_free (s : State) (w : Nat) (c : Bool) (n : Nat) : (s.uncorrectable w c n).free = s.free := by simp [State.uncorrectable]
@[simp] theorem State.uncorrectable_emi (s : State) (w : Nat) (c : Bool) (n : Nat) : (s.uncorrectable w c n).emi = s.emi := by simp [State.uncorrectable]
@[simp] theorem State.uncorrectable_ret (s : State) (w : Nat) (c : Bool) (n : Nat) : (s.uncorrectable w c n).ret = s.ret := by simp [State.uncorrectable]
@[simp] theorem State.uncorrectable_stl (s : State) (w : Nat) (c : Bool) (n : Nat) : (s.uncorrectable w c n).stl = s.stl := by simp [State.uncorrectable]
@[simp] theorem State.uncorrectable_pool (s : State) (w : Nat) (c : Bool) (n : Nat) : (s.uncorrectable w c n).pool = s.pool := by simp [State.uncorrectable]
@[simp] theorem State.uncorrectable_cal (s : State) (w : Nat) (c : Bool) (n : Nat) : (s.uncorrectable w c n).cal = s.cal := by simp [State.uncorrectable]
@[simp] theorem State.uncorrectable_dec (s : State) (w : Nat) (c : Bool) (n : Nat) : (s.uncorrectable w c n).dec = s.dec := by simp [State.uncorrectable]
@[simp] theorem State.uncorrectable_seq (s : State) (w : Nat) (c : Bool) (n : Nat) : (s.uncorrectable w c n).seq = s.seq := by simp [State.uncorrectable]
@[simp] theorem State.uncorrectable_prs (s : State) (w : Nat) (c : Bool) (n : Nat) : (s.uncorrectable w c n).prs = s.prs := by simp [State.uncorrectable]
@[simp] theorem State.uncorrectable_axs (s : State) (w : Nat) (c : Bool) (n : Nat) : (s.uncorrectable w c n).axs = s.axs := by simp [State.uncorrectable]
@[simp] theorem State.uncorrectable_drv (s : State) (w : Nat) (c : Bool) (n : Nat) : (s.uncorrectable w c n).drv = s.drv := by simp [State.uncorrectable]
@[simp] theorem State.uncorrectable_sns (s : State) (w : Nat) (c : Bool) (n : Nat) : (s.uncorrectable w c n).sns = s.sns := by simp [State.uncorrectable]
@[simp] theorem State.uncorrectable_pnt (s : State) (w : Nat) (c : Bool) (n : Nat) : (s.uncorrectable w c n).pnt = s.pnt := by simp [State.uncorrectable]
@[simp] theorem State.uncorrectable_fle (s : State) (w : Nat) (c : Bool) (n : Nat) : (s.uncorrectable w c n).fle = s.fle := by simp [State.uncorrectable]
@[simp] theorem State.uncorrectable_tap (s : State) (w : Nat) (c : Bool) (n : Nat) : (s.uncorrectable w c n).tap = s.tap := by simp [State.uncorrectable]
@[simp] theorem State.uncorrectable_hifx (s : State) (w : Nat) (c : Bool) (n : Nat) : (s.uncorrectable w c n).hifx = s.hifx := by simp [State.uncorrectable]
@[simp] theorem State.uncorrectable_pending (s : State) (w : Nat) (c : Bool) (n : Nat) : (s.uncorrectable w c n).pending = s.pending := by simp [State.uncorrectable]

@[simp] theorem State.touch_inReset (s : State) (w : Nat) : (s.touch w).inReset = s.inReset := by unfold State.touch; split <;> simp
@[simp] theorem State.touch_dt (s : State) (w : Nat) : (s.touch w).dt = s.dt := by unfold State.touch; split <;> simp
@[simp] theorem State.touch_lastRead (s : State) (w : Nat) : (s.touch w).lastRead = s.lastRead := by unfold State.touch; split <;> simp
@[simp] theorem State.touch_outs (s : State) (w : Nat) : (s.touch w).outs = s.outs := by unfold State.touch; split <;> simp
@[simp] theorem State.touch_free (s : State) (w : Nat) : (s.touch w).free = s.free := by unfold State.touch; split <;> simp
@[simp] theorem State.touch_emi (s : State) (w : Nat) : (s.touch w).emi = s.emi := by unfold State.touch; split <;> simp
@[simp] theorem State.touch_ret (s : State) (w : Nat) : (s.touch w).ret = s.ret := by unfold State.touch; split <;> simp
@[simp] theorem State.touch_stl (s : State) (w : Nat) : (s.touch w).stl = s.stl := by unfold State.touch; split <;> simp
@[simp] theorem State.touch_pool (s : State) (w : Nat) : (s.touch w).pool = s.pool := by unfold State.touch; split <;> simp
@[simp] theorem State.touch_cal (s : State) (w : Nat) : (s.touch w).cal = s.cal := by unfold State.touch; split <;> simp
@[simp] theorem State.touch_dec (s : State) (w : Nat) : (s.touch w).dec = s.dec := by unfold State.touch; split <;> simp
@[simp] theorem State.touch_seq (s : State) (w : Nat) : (s.touch w).seq = s.seq := by unfold State.touch; split <;> simp
@[simp] theorem State.touch_prs (s : State) (w : Nat) : (s.touch w).prs = s.prs := by unfold State.touch; split <;> simp
@[simp] theorem State.touch_axs (s : State) (w : Nat) : (s.touch w).axs = s.axs := by unfold State.touch; split <;> simp
@[simp] theorem State.touch_drv (s : State) (w : Nat) : (s.touch w).drv = s.drv := by unfold State.touch; split <;> simp
@[simp] theorem State.touch_sns (s : State) (w : Nat) : (s.touch w).sns = s.sns := by unfold State.touch; split <;> simp
@[simp] theorem State.touch_pnt (s : State) (w : Nat) : (s.touch w).pnt = s.pnt := by unfold State.touch; split <;> simp
@[simp] theorem State.touch_fle (s : State) (w : Nat) : (s.touch w).fle = s.fle := by unfold State.touch; split <;> simp
@[simp] theorem State.touch_tap (s : State) (w : Nat) : (s.touch w).tap = s.tap := by unfold State.touch; split <;> simp
@[simp] theorem State.touch_hifx (s : State) (w : Nat) : (s.touch w).hifx = s.hifx := by unfold State.touch; split <;> simp
@[simp] theorem State.touch_pending (s : State) (w : Nat) : (s.touch w).pending = s.pending := by unfold State.touch; split <;> simp

@[simp] theorem State.touchRange_inReset (s : State) (a n : Nat) : (s.touchRange a n).inReset = s.inReset := foldl_same (fun s : State => s.inReset) _ (fun s w => by simp) _ s
@[simp] theorem State.touchRange_dt (s : State) (a n : Nat) : (s.touchRange a n).dt = s.dt := foldl_same (fun s : State => s.dt) _ (fun s w => by simp) _ s
@[simp] theorem State.touchRange_lastRead (s : State) (a n : Nat) : (s.touchRange a n).lastRead = s.lastRead := foldl_same (fun s : State => s.lastRead) _ (fun s w => by simp) _ s
@[simp] theorem State.touchRange_outs (s : State) (a n : Nat) : (s.touchRange a n).outs = s.outs := foldl_same (fun s : State => s.outs) _ (fun s w => by simp) _ s
@[simp] theorem State.touchRange_free (s : State) (a n : Nat) : (s.touchRange a n).free = s.free := foldl_same (fun s : State => s.free) _ (fun s w => by simp) _ s
@[simp] theorem State.touchRange_emi (s : State) (a n : Nat) : (s.touchRange a n).emi = s.emi := foldl_same (fun s : State => s.emi) _ (fun s w => by simp) _ s
@[simp] theorem State.touchRange_ret (s : State) (a n : Nat) : (s.touchRange a n).ret = s.ret := foldl_same (fun s : State => s.ret) _ (fun s w => by simp) _ s
@[simp] theorem State.touchRange_stl (s : State) (a n : Nat) : (s.touchRange a n).stl = s.stl := foldl_same (fun s : State => s.stl) _ (fun s w => by simp) _ s
@[simp] theorem State.touchRange_pool (s : State) (a n : Nat) : (s.touchRange a n).pool = s.pool := foldl_same (fun s : State => s.pool) _ (fun s w => by simp) _ s
@[simp] theorem State.touchRange_cal (s : State) (a n : Nat) : (s.touchRange a n).cal = s.cal := foldl_same (fun s : State => s.cal) _ (fun s w => by simp) _ s
@[simp] theorem State.touchRange_dec (s : State) (a n : Nat) : (s.touchRange a n).dec = s.dec := foldl_same (fun s : State => s.dec) _ (fun s w => by simp) _ s
@[simp] theorem State.touchRange_seq (s : State) (a n : Nat) : (s.touchRange a n).seq = s.seq := foldl_same (fun s : State => s.seq) _ (fun s w => by simp) _ s
@[simp] theorem State.touchRange_prs (s : State) (a n : Nat) : (s.touchRange a n).prs = s.prs := foldl_same (fun s : State => s.prs) _ (fun s w => by simp) _ s
@[simp] theorem State.touchRange_axs (s : State) (a n : Nat) : (s.touchRange a n).axs = s.axs := foldl_same (fun s : State => s.axs) _ (fun s w => by simp) _ s
@[simp] theorem State.touchRange_drv (s : State) (a n : Nat) : (s.touchRange a n).drv = s.drv := foldl_same (fun s : State => s.drv) _ (fun s w => by simp) _ s
@[simp] theorem State.touchRange_sns (s : State) (a n : Nat) : (s.touchRange a n).sns = s.sns := foldl_same (fun s : State => s.sns) _ (fun s w => by simp) _ s
@[simp] theorem State.touchRange_pnt (s : State) (a n : Nat) : (s.touchRange a n).pnt = s.pnt := foldl_same (fun s : State => s.pnt) _ (fun s w => by simp) _ s
@[simp] theorem State.touchRange_fle (s : State) (a n : Nat) : (s.touchRange a n).fle = s.fle := foldl_same (fun s : State => s.fle) _ (fun s w => by simp) _ s
@[simp] theorem State.touchRange_tap (s : State) (a n : Nat) : (s.touchRange a n).tap = s.tap := foldl_same (fun s : State => s.tap) _ (fun s w => by simp) _ s
@[simp] theorem State.touchRange_hifx (s : State) (a n : Nat) : (s.touchRange a n).hifx = s.hifx := foldl_same (fun s : State => s.hifx) _ (fun s w => by simp) _ s
@[simp] theorem State.touchRange_pending (s : State) (a n : Nat) : (s.touchRange a n).pending = s.pending := foldl_same (fun s : State => s.pending) _ (fun s w => by simp) _ s

@[simp] theorem State.writeWord_inReset (s : State) (a : Nat) (l : List Byte) (w : Nat) : (s.writeWord a l w).inReset = s.inReset := by simp [State.writeWord]
@[simp] theorem State.writeWord_dt (s : State) (a : Nat) (l : List Byte) (w : Nat) : (s.writeWord a l w).dt = s.dt := by simp [State.writeWord]
@[simp] theorem State.writeWord_lastRead (s : State) (a : Nat) (l : List Byte) (w : Nat) : (s.writeWord a l w).lastRead = s.lastRead := by simp [State.writeWord]
@[simp] theorem State.writeWord_outs (s : State) (a : Nat) (l : List Byte) (w : Nat) : (s.writeWord a l w).outs = s.outs := by simp [State.writeWord]
@[simp] theorem State.writeWord_free (s : State) (a : Nat) (l : List Byte) (w : Nat) : (s.writeWord a l w).free = s.free := by simp [State.writeWord]
@[simp] theorem State.writeWord_emi (s : State) (a : Nat) (l : List Byte) (w : Nat) : (s.writeWord a l w).emi = s.emi := by simp [State.writeWord]
@[simp] theorem State.writeWord_ret (s : State) (a : Nat) (l : List Byte) (w : Nat) : (s.writeWord a l w).ret = s.ret := by simp [State.writeWord]
@[simp] theorem State.writeWord_stl (s : State) (a : Nat) (l : List Byte) (w : Nat) : (s.writeWord a l w).stl = s.stl := by simp [State.writeWord]
@[simp] theorem State.writeWord_pool (s : State) (a : Nat) (l : List Byte) (w : Nat) : (s.writeWord a l w).pool = s.pool := by simp [State.writeWord]
@[simp] theorem State.writeWord_cal (s : State) (a : Nat) (l : List Byte) (w : Nat) : (s.writeWord a l w).cal = s.cal := by simp [State.writeWord]
@[simp] theorem State.writeWord_dec (s : State) (a : Nat) (l : List Byte) (w : Nat) : (s.writeWord a l w).dec = s.dec := by simp [State.writeWord]
@[simp] theorem State.writeWord_seq (s : State) (a : Nat) (l : List Byte) (w : Nat) : (s.writeWord a l w).seq = s.seq := by simp [State.writeWord]
@[simp] theorem State.writeWord_prs (s : State) (a : Nat) (l : List Byte) (w : Nat) : (s.writeWord a l w).prs = s.prs := by simp [State.writeWord]
@[simp] theorem State.writeWord_axs (s : State) (a : Nat) (l : List Byte) (w : Nat) : (s.writeWord a l w).axs = s.axs := by simp [State.writeWord]
@[simp] theorem State.writeWord_drv (s : State) (a : Nat) (l : List Byte) (w : Nat) : (s.writeWord a l w).drv = s.drv := by simp [State.writeWord]
@[simp] theorem State.writeWord_sns (s : State) (a : Nat) (l : List Byte) (w : Nat) : (s.writeWord a l w).sns = s.sns := by simp [State.writeWord]
@[simp] theorem State.writeWord_pnt (s : State) (a : Nat) (l : List Byte) (w : Nat) : (s.writeWord a l w).pnt = s.pnt := by simp [State.writeWord]
@[simp] theorem State.writeWord_fle (s : State) (a : Nat) (l : List Byte) (w : Nat) : (s.writeWord a l w).fle = s.fle := by simp [State.writeWord]
@[simp] theorem State.writeWord_tap (s : State) (a : Nat) (l : List Byte) (w : Nat) : (s.writeWord a l w).tap = s.tap := by simp [State.writeWord]
@[simp] theorem State.writeWord_hifx (s : State) (a : Nat) (l : List Byte) (w : Nat) : (s.writeWord a l w).hifx = s.hifx := by simp [State.writeWord]
@[simp] theorem State.writeWord_pending (s : State) (a : Nat) (l : List Byte) (w : Nat) : (s.writeWord a l w).pending = s.pending := by simp [State.writeWord]

@[simp] theorem State.storeWord_inReset (s : State) (a : Nat) (l : List Byte) (w : Nat) : (s.storeWord a l w).inReset = s.inReset := by unfold State.storeWord; (repeat' split) <;> simp
@[simp] theorem State.storeWord_dt (s : State) (a : Nat) (l : List Byte) (w : Nat) : (s.storeWord a l w).dt = s.dt := by unfold State.storeWord; (repeat' split) <;> simp
@[simp] theorem State.storeWord_lastRead (s : State) (a : Nat) (l : List Byte) (w : Nat) : (s.storeWord a l w).lastRead = s.lastRead := by unfold State.storeWord; (repeat' split) <;> simp
@[simp] theorem State.storeWord_outs (s : State) (a : Nat) (l : List Byte) (w : Nat) : (s.storeWord a l w).outs = s.outs := by unfold State.storeWord; (repeat' split) <;> simp
@[simp] theorem State.storeWord_free (s : State) (a : Nat) (l : List Byte) (w : Nat) : (s.storeWord a l w).free = s.free := by unfold State.storeWord; (repeat' split) <;> simp
@[simp] theorem State.storeWord_emi (s : State) (a : Nat) (l : List Byte) (w : Nat) : (s.storeWord a l w).emi = s.emi := by unfold State.storeWord; (repeat' split) <;> simp
@[simp] theorem State.storeWord_ret (s : State) (a : Nat) (l : List Byte) (w : Nat) : (s.storeWord a l w).ret = s.ret := by unfold State.storeWord; (repeat' split) <;> simp
@[simp] theorem State.storeWord_stl (s : State) (a : Nat) (l : List Byte) (w : Nat) : (s.storeWord a l w).stl = s.stl := by unfold State.storeWord; (repeat' split) <;> simp
@[simp] theorem State.storeWord_pool (s : State) (a : Nat) (l : List Byte) (w : Nat) : (s.storeWord a l w).pool = s.pool := by unfold State.storeWord; (repeat' split) <;> simp
@[simp] theorem State.storeWord_cal (s : State) (a : Nat) (l : List Byte) (w : Nat) : (s.storeWord a l w).cal = s.cal := by unfold State.storeWord; (repeat' split) <;> simp
@[simp] theorem State.storeWord_dec (s : State) (a : Nat) (l : List Byte) (w : Nat) : (s.storeWord a l w).dec = s.dec := by unfold State.storeWord; (repeat' split) <;> simp
@[simp] theorem State.storeWord_seq (s : State) (a : Nat) (l : List Byte) (w : Nat) : (s.storeWord a l w).seq = s.seq := by unfold State.storeWord; (repeat' split) <;> simp
@[simp] theorem State.storeWord_prs (s : State) (a : Nat) (l : List Byte) (w : Nat) : (s.storeWord a l w).prs = s.prs := by unfold State.storeWord; (repeat' split) <;> simp
@[simp] theorem State.storeWord_axs (s : State) (a : Nat) (l : List Byte) (w : Nat) : (s.storeWord a l w).axs = s.axs := by unfold State.storeWord; (repeat' split) <;> simp
@[simp] theorem State.storeWord_drv (s : State) (a : Nat) (l : List Byte) (w : Nat) : (s.storeWord a l w).drv = s.drv := by unfold State.storeWord; (repeat' split) <;> simp
@[simp] theorem State.storeWord_sns (s : State) (a : Nat) (l : List Byte) (w : Nat) : (s.storeWord a l w).sns = s.sns := by unfold State.storeWord; (repeat' split) <;> simp
@[simp] theorem State.storeWord_pnt (s : State) (a : Nat) (l : List Byte) (w : Nat) : (s.storeWord a l w).pnt = s.pnt := by unfold State.storeWord; (repeat' split) <;> simp
@[simp] theorem State.storeWord_fle (s : State) (a : Nat) (l : List Byte) (w : Nat) : (s.storeWord a l w).fle = s.fle := by unfold State.storeWord; (repeat' split) <;> simp
@[simp] theorem State.storeWord_tap (s : State) (a : Nat) (l : List Byte) (w : Nat) : (s.storeWord a l w).tap = s.tap := by unfold State.storeWord; (repeat' split) <;> simp
@[simp] theorem State.storeWord_hifx (s : State) (a : Nat) (l : List Byte) (w : Nat) : (s.storeWord a l w).hifx = s.hifx := by unfold State.storeWord; (repeat' split) <;> simp
@[simp] theorem State.storeWord_pending (s : State) (a : Nat) (l : List Byte) (w : Nat) : (s.storeWord a l w).pending = s.pending := by unfold State.storeWord; (repeat' split) <;> simp

@[simp] theorem State.store_inReset (s : State) (a : Nat) (l : List Byte) : (s.store a l).inReset = s.inReset := foldl_same (fun s : State => s.inReset) _ (fun s w => by simp) _ s
@[simp] theorem State.store_dt (s : State) (a : Nat) (l : List Byte) : (s.store a l).dt = s.dt := foldl_same (fun s : State => s.dt) _ (fun s w => by simp) _ s
@[simp] theorem State.store_lastRead (s : State) (a : Nat) (l : List Byte) : (s.store a l).lastRead = s.lastRead := foldl_same (fun s : State => s.lastRead) _ (fun s w => by simp) _ s
@[simp] theorem State.store_outs (s : State) (a : Nat) (l : List Byte) : (s.store a l).outs = s.outs := foldl_same (fun s : State => s.outs) _ (fun s w => by simp) _ s
@[simp] theorem State.store_free (s : State) (a : Nat) (l : List Byte) : (s.store a l).free = s.free := foldl_same (fun s : State => s.free) _ (fun s w => by simp) _ s
@[simp] theorem State.store_emi (s : State) (a : Nat) (l : List Byte) : (s.store a l).emi = s.emi := foldl_same (fun s : State => s.emi) _ (fun s w => by simp) _ s
@[simp] theorem State.store_ret (s : State) (a : Nat) (l : List Byte) : (s.store a l).ret = s.ret := foldl_same (fun s : State => s.ret) _ (fun s w => by simp) _ s
@[simp] theorem State.store_stl (s : State) (a : Nat) (l : List Byte) : (s.store a l).stl = s.stl := foldl_same (fun s : State => s.stl) _ (fun s w => by simp) _ s
@[simp] theorem State.store_pool (s : State) (a : Nat) (l : List Byte) : (s.store a l).pool = s.pool := foldl_same (fun s : State => s.pool) _ (fun s w => by simp) _ s
@[simp] theorem State.store_cal (s : State) (a : Nat) (l : List Byte) : (s.store a l).cal = s.cal := foldl_same (fun s : State => s.cal) _ (fun s w => by simp) _ s
@[simp] theorem State.store_dec (s : State) (a : Nat) (l : List Byte) : (s.store a l).dec = s.dec := foldl_same (fun s : State => s.dec) _ (fun s w => by simp) _ s
@[simp] theorem State.store_seq (s : State) (a : Nat) (l : List Byte) : (s.store a l).seq = s.seq := foldl_same (fun s : State => s.seq) _ (fun s w => by simp) _ s
@[simp] theorem State.store_prs (s : State) (a : Nat) (l : List Byte) : (s.store a l).prs = s.prs := foldl_same (fun s : State => s.prs) _ (fun s w => by simp) _ s
@[simp] theorem State.store_axs (s : State) (a : Nat) (l : List Byte) : (s.store a l).axs = s.axs := foldl_same (fun s : State => s.axs) _ (fun s w => by simp) _ s
@[simp] theorem State.store_drv (s : State) (a : Nat) (l : List Byte) : (s.store a l).drv = s.drv := foldl_same (fun s : State => s.drv) _ (fun s w => by simp) _ s
@[simp] theorem State.store_sns (s : State) (a : Nat) (l : List Byte) : (s.store a l).sns = s.sns := foldl_same (fun s : State => s.sns) _ (fun s w => by simp) _ s
@[simp] theorem State.store_pnt (s : State) (a : Nat) (l : List Byte) : (s.store a l).pnt = s.pnt := foldl_same (fun s : State => s.pnt) _ (fun s w => by simp) _ s
@[simp] theorem State.store_fle (s : State) (a : Nat) (l : List Byte) : (s.store a l).fle = s.fle := foldl_same (fun s : State => s.fle) _ (fun s w => by simp) _ s
@[simp] theorem State.store_tap (s : State) (a : Nat) (l : List Byte) : (s.store a l).tap = s.tap := foldl_same (fun s : State => s.tap) _ (fun s w => by simp) _ s
@[simp] theorem State.store_hifx (s : State) (a : Nat) (l : List Byte) : (s.store a l).hifx = s.hifx := foldl_same (fun s : State => s.hifx) _ (fun s w => by simp) _ s
@[simp] theorem State.store_pending (s : State) (a : Nat) (l : List Byte) : (s.store a l).pending = s.pending := foldl_same (fun s : State => s.pending) _ (fun s w => by simp) _ s

/-! ### The canonical form -/

theorem State.wf_setByte (s : State) (a : Nat) (v : Byte) (h : Memory.wf s.mem = true) : Memory.wf (s.setByte a v).mem = true :=
  FMap.wf_set _ s.mem a v h

theorem State.wf_setBytes (s : State) (a : Nat) (l : List Byte) (h : Memory.wf s.mem = true) :
    Memory.wf (s.setBytes a l).mem = true := by
  induction l generalizing s a with
  | nil => exact h
  | cons b l ih => exact ih _ _ (State.wf_setByte s a b h)

theorem State.wf_upset (s : State) (w j : Nat) (e : Byte) (h : Memory.wf s.mem = true) : Memory.wf (s.upset w j e).mem = true := by
  unfold State.upset
  simp only
  split
  · exact State.wf_setByte _ _ _ h
  · exact h

theorem State.wf_correct (s : State) (w : Nat) (l : List (Nat × Byte)) (h : Memory.wf s.mem = true) :
    Memory.wf (s.correct w l).mem = true := by
  simp only [State.correct, State.count_mem, State.setErrors_mem]
  refine foldl_keeps (fun t : State => Memory.wf t.mem = true) _ (fun t e ht => ?_) l s h
  split
  · exact State.wf_setByte _ _ _ ht
  · exact ht

theorem State.wf_touch (s : State) (w : Nat) (h : Memory.wf s.mem = true) : Memory.wf (s.touch w).mem = true := by
  unfold State.touch
  split
  · exact h
  · exact State.wf_correct s w _ h
  · simpa [State.uncorrectable] using h

/-- A read of a range keeps the canonical form. -/
theorem State.wf_touchRange (s : State) (a n : Nat) (h : Memory.wf s.mem = true) : Memory.wf (s.touchRange a n).mem = true :=
  foldl_keeps (fun t : State => Memory.wf t.mem = true) _ (fun t w => State.wf_touch t w) _ s h

theorem State.wf_writeWord (s : State) (a : Nat) (l : List Byte) (w : Nat) (h : Memory.wf s.mem = true) :
    Memory.wf (s.writeWord a l w).mem = true := by
  simp only [State.writeWord, State.setErrors_mem]
  exact State.wf_setBytes s _ _ h

/-- A write keeps the canonical form. -/
theorem State.wf_store (s : State) (a : Nat) (l : List Byte) (h : Memory.wf s.mem = true) : Memory.wf (s.store a l).mem = true := by
  refine foldl_keeps (fun t : State => Memory.wf t.mem = true) _ (fun t w ht => ?_) _ s h
  unfold State.storeWord
  split
  · exact State.wf_writeWord _ _ _ _ ht
  · split
    · exact State.wf_writeWord _ _ _ _ (State.wf_touch t w ht)
    · exact State.wf_touch t w ht

end Sys2Proof.Machine
end

