-- ==== Sys2Proof/Laws/Issue.lean ====
section
/-!
SUPPORT. Laws of the step, of what a command answers, and of an instruction's issue: once fetched, what its engine's registers are, and
which of its four courses it takes.
-/
namespace Sys2Proof.Machine

/-! ### The step -/

theorem step_nil (s : State) (h : s.pending = []) : step s = .next s := by simp [step, h]

theorem step_cons (s : State) (c : Instr) (l : List Instr) (h : s.pending = c :: l) : step s = exec c { s with pending := l } := by
  simp [step, h]

theorem act_held (s t : State) (h : s.inReset = true) : act s t = .next s := by simp [act, h]

/-- Out of reset, a command answers its effect, which leaves the queue alone. -/
theorem act_live (s t : State) (h : s.inReset = false) (hp : t.pending = s.pending) : act s t = .next t := by
  cases t
  simp_all [act]

/-! ### Engines -/

theorem State.pe_eq (s : State) (n : Nat) (h : n < 16) : s.pe n = s.seq.pes[n] := by
  simp [State.pe, Vector.getD, h]

@[simp] theorem State.pe_setPe (s : State) (n : Nat) (p : Pe) (h : n < 16) : (s.setPe n p).pe n = p := by
  simp [State.pe, State.setPe, h, Vector.getD]

theorem State.pe_setPe_other (s : State) (n m : Nat) (p : Pe) (h : m ≠ n) : (s.setPe n p).pe m = s.pe m := by
  unfold State.pe State.setPe
  split
  · by_cases hm : m < 16
    · have : n ≠ m := fun e => h e.symm
      simp [Vector.getD, hm, Vector.getElem_set, this]
    · simp [Vector.getD, hm]
  · rfl

@[simp] theorem State.pending_setPe (s : State) (n : Nat) (p : Pe) : (s.setPe n p).pending = s.pending := by
  unfold State.setPe; split <;> rfl

@[simp] theorem State.mem_setPe (s : State) (n : Nat) (p : Pe) : (s.setPe n p).mem = s.mem := by
  unfold State.setPe; split <;> rfl

@[simp] theorem State.inReset_setPe (s : State) (n : Nat) (p : Pe) : (s.setPe n p).inReset = s.inReset := by
  unfold State.setPe; split <;> rfl

@[simp] theorem State.pending_setEng (s : State) (e : Eng) (g : Engine) : (s.setEng e g).pending = s.pending := by
  cases e <;> simp [State.setEng, State.setFsq]

@[simp] theorem State.mem_setEng (s : State) (e : Eng) (g : Engine) : (s.setEng e g).mem = s.mem := by
  cases e <;> simp [State.setEng, State.setFsq]

@[simp] theorem State.eng_setEng (s : State) (e : Eng) (g : Engine) : (s.setEng e g).eng e = g := by
  cases e with
  | fsq => simp [State.setEng, State.eng, State.setFsq]
  | pe n =>
    have h : ∀ t : State, t.seq = (s.setPe n.val { s.pe n.val with eng := g }).seq → t.pe n.val
        = { s.pe n.val with eng := g } := by
      intro t ht
      have h2 := State.pe_setPe s n.val { s.pe n.val with eng := g } n.isLt
      unfold State.pe at h2 ⊢
      rw [ht]
      exact h2
    simp only [State.setEng, State.eng]
    rw [h _ (by simp)]

@[simp] theorem State.pending_counted (s : State) (e : Eng) : (s.counted e).pending = s.pending := by
  cases e <;> simp [State.counted]

@[simp] theorem State.mem_counted (s : State) (e : Eng) : (s.counted e).mem = s.mem := by
  cases e <;> simp [State.counted]

/-- Counting an instruction changes nothing but the count of a Point Engine (R356, R358). -/
theorem State.eng_counted (s : State) (e : Eng) :
    (s.counted e).eng e = match e with
      | .fsq => s.eng e
      | .pe _ => { s.eng e with count := (s.eng e).count + 1 } := by
  cases e with
  | fsq => rfl
  | pe n => simp [State.counted, State.eng, State.pe_setPe]

theorem State.eng_touchRange (s : State) (a n : Nat) (e : Eng) : (s.touchRange a n).eng e = s.eng e := by
  have h := State.touchRange_seq s a n
  cases e <;> simp [State.eng, State.pe, h]

/-- The engine of a fetched instruction. -/
theorem State.eng_fetched (s : State) (e : Eng) (len : Nat) :
    (s.fetched e len).eng e = match e with
      | .fsq => s.eng e
      | .pe _ => { s.eng e with count := (s.eng e).count + 1 } := by
  rw [State.fetched, State.eng_counted]
  cases e <;> simp [State.eng_touchRange]

@[simp] theorem State.pending_fetched (s : State) (e : Eng) (len : Nat) : (s.fetched e len).pending = s.pending := by
  simp [State.fetched]

@[simp] theorem State.pending_after (s : State) (e : Eng) (len : Nat) (f : Engine → Engine) :
    (s.after e len f).pending = s.pending := by
  simp [State.after]

theorem State.holds_fetched (s : State) (e : Eng) (len : Nat) (p : Pred) :
    ((s.fetched e len).eng e).holds p = (s.eng e).holds p := by
  rw [State.eng_fetched]; cases e <;> rfl

theorem State.bad_fetched (s : State) (e : Eng) (len : Nat) : ((s.fetched e len).eng e).bad = (s.eng e).bad := by
  rw [State.eng_fetched]; cases e <;> rfl

theorem State.rrb_fetched (s : State) (e : Eng) (len : Nat) : ((s.fetched e len).eng e).rrb = (s.eng e).rrb := by
  rw [State.eng_fetched]; cases e <;> rfl

theorem State.genNos_fetched (s : State) (e : Eng) (len : Nat) (rs : List Nat) :
    ((s.fetched e len).eng e).genNos rs = (s.eng e).genNos rs := by
  simp [Engine.genNos, Engine.phys, State.rrb_fetched]

/-! ### Issue -/

/-- An instruction that cannot issue changes nothing. -/
theorem State.issue_idle (s : State) (e : Eng) (p : Pred) (len : Nat) (ok : Bool) (reads : Engine → List Nat)
    (effect : State → Engine → State) (h : s.mayIssue e = false) : s.issue e p len ok reads effect = s := by
  simp [State.issue, h]

/-- A fault of R605 takes the ILLEGAL trap whatever the predicate. -/
theorem State.issue_illegal (s : State) (e : Eng) (p : Pred) (len : Nat) (reads : Engine → List Nat) (effect : State → Engine → State)
    (h : s.fetches e len) : s.issue e p len false reads effect = (s.fetched e len).trapAt e len 3 := by
  obtain ⟨-, h1, h2, h3⟩ := h
  have h4 : ¬ bankWords e < (s.eng e).pc + len := by omega
  simp [State.issue, h1, h3, h4, State.fetched]

/-- A false predicate leaves only the fetch, the count and the next PC (R373). -/
theorem State.issue_false (s : State) (e : Eng) (p : Pred) (len : Nat) (reads : Engine → List Nat) (effect : State → Engine → State)
    (h : s.fetches e len) (hp : (s.eng e).holds p = false) : s.issue e p len true reads effect = s.after e len id := by
  obtain ⟨-, h1, h2, h3⟩ := h
  have h4 : ¬ bankWords e < (s.eng e).pc + len := by omega
  have h5 := State.holds_fetched s e len p
  rw [hp, State.fetched] at h5
  simp [State.issue, h1, h3, h4, h5, State.after, State.fetched, State.goOn]

/-- An instruction that runs has its effect. -/
theorem State.issue_runs (s : State) (e : Eng) (p : Pred) (len : Nat) (reads : Engine → List Nat) (effect : State → Engine → State)
    (h : s.runs e p len (reads ((s.fetched e len).eng e))) :
    s.issue e p len true reads effect = effect (s.fetched e len) ((s.fetched e len).eng e) := by
  obtain ⟨⟨-, h1, h2, h3⟩, hp, hb⟩ := h
  have h4 : ¬ bankWords e < (s.eng e).pc + len := by omega
  have h5 := State.holds_fetched s e len p
  have h6 := State.bad_fetched s e len
  rw [hp] at h5
  simp only [State.fetched] at h5 h6 hb ⊢
  have h7 : ((reads (((s.touchRange (s.wordAt e (s.eng e).pc) (4 * len)).counted e).eng e)).any fun r =>
      (((s.touchRange (s.wordAt e (s.eng e).pc) (4 * len)).counted e).eng e).bad.contains r) = false := by
    rw [List.any_eq_false]
    intro r hr
    rw [h6, hb r hr]
    simp
  simp only [State.issue, h1, h3, h4, h5, h7]
  simp

/-- An instruction on general registers that runs changes the registers of its engine. -/
theorem State.regOp_runs (s : State) (e : Eng) (p : Pred) (len : Nat) (rs : List Nat) (f : Engine → Engine)
    (h : s.runs e p len ((s.eng e).genNos rs)) : s.regOp e p len true rs f = s.after e len f := by
  rw [State.regOp, State.issue_runs s e p len _ _ (by rwa [State.genNos_fetched])]
  rfl

end Sys2Proof.Machine
end

