-- ==== Sys2Proof/Tests/Slice0.lean ====
section
/-!
SUPPORT. Tests of single steps and decodings, and for each statement X of the certificates that has hypotheses a theorem witness_X: for each
of its clauses in turn, and for each case that a clause distinguishes, a state and operands that meet all its hypotheses together.
-/
namespace Sys2Proof.Tests
open Sys2Proof.Machine
set_option Elab.async false

/-! ### States -/

/-- A state with some fields written. -/
def withF (s : State) (l : List (Fld × Nat)) : State := l.foldl (fun s x => s.put x.1 x.2) s

/-- The state that a command answers. -/
def result : Host.Outcome State Fault Refusal → State
  | .next s => s
  | _ => State.reset

/-- After reset, the time base locked, the endpoint's memory space and MSI-X enabled. -/
def up : State := ((withF State.reset [(F.SYS_STAT_TBLOCK, 1), (F.TBS_STAT_LOCK, 1)]).setCfg 1 0x100002#32).setCfg 20 0x801F6011#32

/-- The predicate that always holds, and the one that never does. -/
def pT : Pred := ⟨false, 0#3⟩
def pF : Pred := ⟨true, 0#3⟩

/-- The FSQ runs, with changes to its registers. -/
def onFsq (f : Engine → Engine) : State :=
  let s := up.put F.SEQ_STAT_RUN 1
  s.setEng .fsq (f (s.eng .fsq))

/-- A dispatch of a kind. -/
def disp (kind : Nat) (ctx : Option Nat) : Disp := ⟨kind, ctx, 0, 0, none, [], [], none, []⟩

/-- Engine n works on a dispatch, with changes to its registers. -/
def onPe (n : Fin 16) (d : Disp) (f : Engine → Engine) : State :=
  let s := up.setPe n.val { (up.pe n.val) with work := some d }
  s.setEng (.pe n) (f (s.eng (.pe n)))

/-- Background work on engine 2. -/
def bg (f : Engine → Engine) : State := onPe 2 (disp 3 none) f

/-- A context of slot 4, opened by emitter 2 at 1000, and the same in a state. -/
def ctx0 : Ctx where
  id := 4
  slot := 4
  state := .open
  frame := 1
  column := 2
  pixrow := 3
  emitter := 2
  chan := 5
  merge := 0
  nshot := 2
  slots := 2
  fired := 0
  fshots := 0
  pstart := 0
  binsat := false
  skip := false
  startPred := false
  stale := false
  prov := false
  satb := false
  nsat := false
  replayed := false
  lost := false
  partialTaken := false
  late := false
  binw := 0
  nwin := 1
  nplaced := 0
  k := 4
  map := 0
  origin := 0
  nbin := 256
  t0 := 1000
  wstart := [0]
  evtot := 0
  evout := 0
  prec := 0
  pile := 0
  jidx := 0
  chans := [5]
  provChans := []
  set := none
  bank := 0
  early := false
  eshots := 0
  ebgmax := 0
  given := 0
  first := none
  last := 0
  skipSeen := false
  closing := false
  placing := false
  planned := []
  placedAt := none
  view := ⟨0, 0, 0, false, false, false, false, false⟩
  inflight := []
  clipped := []
  atOnce := false
  before := [0, 0, 0, 0]
  replay := []
  reacqAt := 0
  angtol := 0
  reprocess := false
  owed := 0
  passed := []
  destroyed := []
  resolved := false
  earlyDone := []
  earlyRun := false

/-- Contexts live. -/
def withCtx (s : State) (l : List Ctx) : State := { s with pool := { s.pool with ctxs := l } }

/-- The emission block changed. -/
def withEmi (s : State) (f : Emi → Emi) : State := { s with emi := f s.emi }

/-- PERMOK, no inhibit and a driver chain without words: the conditions of ARM. -/
def armable : State := withF up [(F.EMI_STAT_PERMOK, 1), (F.EMI_STAT_INH, 0)]

/-- Armed. -/
def armed : State := withF armable [(F.EMI_CTRL_ARM, 1), (F.EMI_STAT_ARMED, 1)]

/-- A timed command at coarse tick 2000 and sub-tick 5, FRAME 1 and COLUMN 2. -/
def tcmd (k : TKind) : TCmd := ⟨k, 2000, 5, 1, 2, false⟩

/-- An entry of CTX map m for emitter e: one channel, 5; bins of 2^0, 256 of them, one window, K = 4. -/
def mapped (s : State) (m e : Nat) : State :=
  s.setBytes (mapBase m e) ([32#8] ++ List.replicate 63 0#8 ++ [0#8, 0#8, 0#8, 1#8, 0#8, 1#8, 4#8])

/-- That entry. -/
def mapX : MapEntry := ⟨32, 0, 256, 0, 1, 4, 0⟩

/-- The return timing changed. -/
def withRet (s : State) (f : Ret → Ret) : State := { s with ret := f s.ret }

/-- Channel 5 enabled, its DLL and the start DLL locked, one gate open on it. -/
def listening : State :=
  withRet (withF up [(F.RET_CFG_EN 5, 1), (F.RGP_DLL_LOCK, 0xFFFF)]) fun r =>
    { r with gates := [⟨7, 5, 2, 0, 5000, none, false, false, 0⟩], startDll := true }

/-- The same without gates. -/
def between : State := withRet listening fun r => { r with gates := [] }

/-- A pulse on a timing path. -/
def pulsed (s : State) (i : Nat) (p : Pulse) : State := withRet s fun r => { r with paths := [(i, ⟨some p, 64 * p.c + p.f + 1⟩)] }

/-- A shot fired at coarse tick 1000 on start input 0, its start predicted there with a window around it. -/
def shot0 : Shot where
  slot := 0
  emitter := 2
  output := 2
  st := 0
  t := 16000
  tFire := 16000
  fired := true
  k := 0
  p := 16384000
  lo := 16300000
  hi := 16500000
  eValid := true
  other := false
  start := none
  members := []
  owners := []
  chans := []
  before := [0, 0, 0, 0]
  behind := false

/-- An undelayed event on channel 5 at coarse tick 1030, in gate 7, decided by the filter. -/
def ev0 : Ev := ⟨1030, 0, 4, 5, false, false, false, false, false, 5, ⟨0, true, false, false, false, 0⟩, [7], true, false⟩

/-- A group's queue written. -/
def queued (s : State) (g : Fin 16) (l : List QItem) : State :=
  withRet s fun r => { r with groups := r.groups.set g ⟨l, [], false⟩ }

/-- Shots in flight, and gate 7 theirs. -/
def shotsOn (s : State) (l : List Shot) (closed : Bool) : State :=
  withRet s fun r => { r with shots := l, gates := [⟨7, 5, 2, 0, 5000, l.head?.map (·.slot), closed, false, 0⟩] }

/-- The calibration beside its registers changed. -/
def withCal (s : State) (f : Cal → Cal) : State := { s with cal := f s.cal }

/-- The Decanter's lanes and blocks written. -/
def withDec (s : State) (l : Option Pass) (b : List Block) : State := { s with dec := { s.dec with lanes := s.dec.lanes.set 3 l, blocks := b } }

/-- The context queue. -/
def inQueue (s : State) (l : List Nat) : State := { s with pool := { s.pool with queue := l } }

/-- Decanter set 1: no filter, one candidate, both profiles of one entry. -/
def setLoaded (s : State) : State :=
  s.setBytes (setBase 1) ((List.replicate 8 0#8) ++ [16#8, 0#8, 1#8, 0#8, 0#8, 0#8, 0#8, 0#8, 1#8, 1#8, 1#8])

/-- The pending work of the closed context of slot 4 with set 1. -/
def ctxC : Ctx := { ctx0 with state := .closed, set := some 1 }

/-- A block of that context. -/
def blk0 : Block := ⟨.close, 4, 4, 0, List.replicate 416 0#8, none, false⟩

/-- Points and zones changed; the axes and the drive link changed. -/
def withPnt (s : State) (f : Pnt → Pnt) : State := { s with pnt := f s.pnt }
def onAxis (s : State) (a : Fin 4) (f : Axis → Axis) : State := s.setAxis a (f (s.axis a))
def withDrv (s : State) (f : Drive → Drive) : State := { s with drv := f s.drv }

/-- Axis 1 enabled, PERIOD 100, on input 3 of converter 2. -/
def axis1 : State :=
  withF up [(F.AXS_VMAX_VMAX 1, 5), (F.AXS_AMAX_AMAX 1, 5), (F.AXS_TIME_PERIOD 1, 100), (F.AXS_SENS_CONV 1, 2), (F.AXS_SENS_INPUT 1, 3),
    (F.AXS_CTRL_EN 1, 1), (ownFld 2 3, 1)]

/-- The same disabled. -/
def axisOff : State := withF axis1 [(F.AXS_CTRL_EN 1, 0), (ownFld 2 3, 0)]

/-- A period opened at 1600, with the reading r. -/
def period0 (r : Option Reading) : Period := ⟨1600, 0, r, false, false, false, false, false, 0, 0⟩

/-- A POINT record on its way to the zone monitor. -/
def zrec (k : ZKind) (untested : Bool) : ZRec :=
  ⟨k, 0, ⟨List.replicate 32 0#8, none, 0, 0, 0#32, false, false, false⟩, 1, 2, 3, 500, 9, 1000, false, untested⟩

/-- Zone map 0: one entry, enabled, that holds every point. -/
def zoned (s : State) : State :=
  s.setBytes 0x880000 [1#8]
    |>.setBytes (zoneEntry 0 0) [0#8, 0#8, 255#8, 255#8, 0#8, 0#8, 255#8, 255#8, 0#8, 0#8, 0#8, 255#8, 255#8, 255#8, 8#8]

/-- Converters and meters changed; converter 2 changed; the jobs of a channel, and the Press engines written. -/
def withSns (s : State) (f : Sns → Sns) : State := { s with sns := f s.sns }
def onAdc (s : State) (f : Adc → Adc) : State := withSns s fun x => { x with adcs := x.adcs.set 2 (f x.adcs[2]) }
def onMeter (s : State) (f : Meter → Meter) : State := withSns s fun x => { x with meters := x.meters.set 7 (f x.meters[7]) }
def withStl (s : State) (f : Stl → Stl) : State := { s with stl := f s.stl }
def withJobs (s : State) (v : Fin 4) (l : List Job) : State := withStl s fun x => { x with jobs := x.jobs.set v l }
def pressing (s : State) (e : Fin 4) (j : PressJob) : State := { s with prs := s.prs.set e (some ⟨j, 9, none⟩) }

/-- A record of 32 bytes in a stream buffer, and a stream job that holds it. -/
def item0 (c : Option Nat) : Item := ⟨List.replicate 32 7#8, c, 0, 0, 0#32, false, false, false⟩
def job0 (st : JobState) : Job := ⟨6, [item0 none], 0x01000400#32, st, 0⟩

/-- A ring of 4 descriptors at 0x400000, the first one waiting: 40 bytes compressed from 0x401000 to 0x402000. -/
def ringed (op : Byte) : State :=
  (withF up [(F.PRS_HBASE_BASE, 0x400000), (F.PRS_HSIZE_SIZE, 4), (F.PRS_HPROD_PROD, 1)]).setBytes 0x400000
    [op, 0#8, 0#8, 0#8, 0#8, 0x10#8, 0x40#8, 0#8, 40#8, 0#8, 0#8, 0#8, 0#8, 0x20#8, 0x40#8, 0#8, 0#8, 1#8, 0#8, 0#8]

/-- The job of that descriptor. -/
def host0 (op : Nat) (input : List Byte) : PressHost := ⟨0x400000, op, op, 0x401000, input.length, 0x402000, 256, input⟩

/-! ### Witnesses: engines -/

def bodyBad : State := (bg (fun g => (({g with pc := 3}).wr 3 1#32))).setErrors ((peBase 2 + 0x400) / 32) (errorSyndrome 4 9#8 ^^^ errorSyndrome 5 9#8 ^^^ errorSyndrome 6 9#8)
def tcs (f : Fsq → Fsq) (g : Engine → Engine) : State := let s := onFsq g; s.setFsq (f s.seq.fsq)
def fullq : State := let s := onFsq id; { s with emi := { s.emi with tq := List.replicate 512 ⟨.ctxc 1, 0, 0, 0, 0, false⟩ } }
def axon : State := let s := withF (onFsq id) [(F.AXS_CTRL_EN 3, 1)]; s.setAxis 3 { s.axis 3 with running := true }
def axr : State := let s := withF (tcs (fun f => {f with tc := 7, sub := 3}) id) [(F.AXS_CTRL_EN 3, 1), (F.AXS_CTRL_MODE 3, 1), (F.AXS_FTW_FTW 3, 1000)]
  s.setAxis 3 {s.axis 3 with running := true}
def axw : State := { axr with seq := { axr.seq with fsq := { axr.seq.fsq with wait := some (.axis 3 4 0 2) } } }
def marker (t : Nat) (w : Option FWait) : State := let s := tcs (fun f => {f with wait := w, tc := 7, sub := 3}) id; { s with fle := { s.fle with syncs := [t] } }
def ax (b : AluSrc) (v w : Word) : State := bg (fun g => (g.wr 5 v).wr 6 w)
def sat : State := bg (fun g => {(g.wr 5 0x7FFFFFFF#32).wr 6 0x7FFFFFFF#32 with a := g.a.set 7 0x7FFFFFFFFFFFFFFFFF#72, mode := 0x80#8})
def mem (a : Nat) (l : List Byte) (s : State) : State := s.setBytes a l
def px (k : Nat) (f : Engine → Engine) : State := withCtx (onPe 2 (disp k (some 4)) f) [{ctx0 with nplaced := 40, state := .work}]
def rec0 : List Byte := [1#8, 3#8, 0#8, 0#8, 0#8, 0#8, 0#8, 0#8, 0#8, 0#8, 0#8, 0#8, 100#8, 0#8, 0#8, 0#8, 4#8, 0#8, 0#8, 0#8, 5#8]
def emitting (d : Disp) : State := (withCtx (onPe 2 d (fun g => g.wrP 3 0x10000#32)) [{ctx0 with nplaced := 40, state := .work}]).setBytes (peBase 2 + 0x10000) rec0
def full8 : Disp := {disp 4 (some 4) with points := List.replicate 8 []}
def early0 : Disp := {disp 2 (some 4) with part := some ⟨ctx0, [1], []⟩, block := [0#8, 0#8, 4#8]}
def early1 : Disp := {early0 with block := [0#8, 0#8, 3#8]}
def cand (i n : Nat) : State := withCal between fun c => { c with total := [(i, 640000)], taps := (List.range 64).map fun f => (64 * i + f, n + f) }
def rc (l : List Nat) : State := withCal (withF between [(F.CAL_STDON_DONOR, 9)]) fun c => {c with queue := l}
def ls (v c : Nat) : Loss := ⟨c, v, 5, 1, 40, 6, 7⟩

theorem witness_StepRunsFrontCommand_1 :
    ∃ (s : State), s.pending = [] :=
  ⟨onFsq id, by decide +kernel⟩

theorem witness_EncodingRoundTrip_0 :
    ∃ (i : Instr) (e : Eng) (q : Parts), i.parts = some (e, q) ∧ legal i = true :=
  ⟨.li (.pe 0) pT 20#6 (.ext 0xFFFF#32), .pe 0, ((Instr.li (.pe 0) pT 20#6 (.ext 0xFFFF#32)).parts.get (by decide)).2, by decide +kernel⟩

theorem witness_EncodingRoundTrip_1 :
    ∃ (e : Eng) (w : Word) (x : Word) (i : Instr), decodeInstr e w x = some i :=
  ⟨.pe 0, 0x1AEA0000#32, 0xFFFF#32, .li (.pe 0) ⟨true, 3#3⟩ 20#6 (.ext 0xFFFF#32), by decide +kernel⟩

theorem witness_Predicates_0 :
    ∃ (i : Instr) (e : Eng) (q : Parts) (s : State), i.parts = some (e, q) ∧ legal i = true ∧ s.fetches e (extLen q.ext) ∧ (s.eng e).holds q.pred = false :=
  ⟨.addi .fsq pF 1#6 2#6 (.short 5#9), .fsq, (Instr.addi .fsq pF 1#6 2#6 (.short 5#9)).parts.get (by decide) |>.2, onFsq id, by delta State.fetches; decide +kernel⟩

theorem witness_Predicates_1 :
    ∃ (i : Nat) (j : Nat), i < 8 ∧ j < 8 :=
  ⟨3, 3, by decide +kernel⟩

theorem witness_EngineFrame_0 :
    ∃ (s : State) (e : Eng) (len : Nat) (e' : Eng) (n : Nat) (a : Nat), s.fetches e len ∧ e' ≠ e ∧ (a < s.wordAt e (s.eng e).pc / 32 * 32 ∨ (s.wordAt e (s.eng e).pc + 4 * len + 31) / 32 * 32 ≤ a) ∧ a ≠ F.SEQ_STAT_INTRAP.off ∧ (∀ (n : Nat), a ≠ (F.SEQ_PESTAT_TCAUSE n).off) ∧ (∀ (m : Nat), a ≠ (F.FLT_CORR_COUNT m).off) :=
  ⟨bg id, .pe 2, 1, Eng.fsq, 2, 0, ⟨by delta State.fetches; decide +kernel, by decide, by decide +kernel, by decide, fun n => by simp [F.SEQ_PESTAT_TCAUSE]; omega, fun m => by simp [F.FLT_CORR_COUNT]; omega⟩⟩

theorem witness_EngineFrame_1 :
    ∃ (r : Nat) (k : Nat), r < 64 ∧ k < 64 :=
  ⟨63, 63, by decide +kernel⟩

theorem witness_SequentialFlow_0 :
    ∃ (g : Engine), (∀ (l : LoopLv), l ∈ g.loops.getLast? → l.last ≠ g.pc) :=
  ⟨Engine.reset, by decide +kernel⟩

theorem witness_IllegalTakesTrap_0 :
    ∃ (w : Word) (x : Word) (s : State), decodeInstr Eng.fsq w x = none ∧ s.fetches Eng.fsq (wordLen w) ∧ (s.eng Eng.fsq).intrap = false :=
  ⟨0x40000000#32, 0#32, onFsq id, by delta State.fetches; decide +kernel⟩

theorem witness_IllegalTakesTrap_1 :
    ∃ (n : Fin 16) (w : Word) (x : Word) (s : State), decodeInstr (Eng.pe n) w x = none ∧ s.fetches (Eng.pe n) (wordLen w) ∧ (s.eng (Eng.pe n)).intrap = false ∧ s.flt.roots = [] :=
  ⟨2, 0x2C000000#32, 0#32, bg id, by delta State.fetches; decide +kernel⟩

theorem witness_SequentialFlow_1 :
    (∃ (g : Engine) (ls : List LoopLv) (l : LoopLv), g.loops = ls ++ [l] ∧ l.last = g.pc ∧ ls.length < 4 ∧ 1 < BitVec.toNat (g.lc.getD ls.length 0#32) ∧ (∀ (k : LoopLv), k ∈ ls → k.last ≠ g.pc) ∧ g.rrb < 32)
    ∧ (∃ (g : Engine) (ls : List LoopLv) (l : LoopLv), g.loops = ls ++ [l] ∧ l.last = g.pc ∧ ls.length < 4 ∧ BitVec.toNat (g.lc.getD ls.length 0#32) ≤ 1 ∧ (∀ (k : LoopLv), k ∈ ls → k.last ≠ g.pc) ∧ g.rrb < 32) :=
  ⟨⟨{ Engine.reset with pc := 9, loops := [⟨0,20,false⟩,⟨3,9,true⟩], lc := #v[5,2,0,0]}, [⟨0,20,false⟩], ⟨3,9,true⟩, by decide +kernel⟩,
    ⟨{ Engine.reset with pc := 9, loops := [⟨0,20,false⟩,⟨3,9,true⟩], lc := #v[5,1,0,0]}, [⟨0,20,false⟩], ⟨3,9,true⟩, by decide +kernel⟩⟩

theorem witness_FlowResults_0 :
    ∃ (e : Eng) (p : Pred) (s : State), s.runs e p 1 [] :=
  ⟨.fsq, pT, onFsq id, by delta State.runs State.fetches; decide +kernel⟩

theorem witness_FlowResults_1 :
    ∃ (e : Eng) (p : Pred) (rd : BitVec 6) (imm : Imm 15) (s : State), regOk e rd = true ∧ s.runs e p (immLen imm) [] :=
  ⟨.pe 2, pT, 63#6, .short 0x7fff#15, bg id, by delta State.runs State.fetches; decide +kernel⟩

theorem witness_FlowResults_2 :
    ∃ (e : Eng) (p : Pred) (rd : BitVec 6) (ra : BitVec 6) (imm : Imm 9) (s : State), regOk e rd = true ∧ regOk e ra = true ∧ s.runs e p (immLen imm) ((s.eng e).genNos [ra.toNat]) :=
  ⟨.fsq, pT, 31#6, 4#6, .short 0x1ff#9, onFsq (fun g => g.wr 4 7#32), by delta State.runs State.fetches; decide +kernel⟩

theorem witness_FlowResults_3 :
    ∃ (e : Eng) (p : Pred) (rd : BitVec 6) (ra : BitVec 6) (s : State), regOk e rd = true ∧ regOk e ra = true ∧ s.runs e p 1 ((s.eng e).genNos [ra.toNat]) :=
  ⟨.fsq, pT, 31#6, 4#6, onFsq (fun g => g.wr 4 7#32), by delta State.runs State.fetches; decide +kernel⟩

theorem witness_FlowResults_4 :
    ∃ (e : Eng) (p : Pred) (ra : BitVec 6) (imm : Imm 9) (s : State), regOk e ra = true ∧ s.runs e p (immLen imm) ((s.eng e).genNos [ra.toNat]) :=
  ⟨.fsq, pT, 4#6, .short 0#9, onFsq (fun g => g.wr 4 0x80000000#32), by delta State.runs State.fetches; decide +kernel⟩

theorem witness_FlowResults_5 :
    ∃ (e : Eng) (p : Pred) (s : State), s.runs e p 1 [] :=
  ⟨.fsq, pT, onFsq id, by delta State.runs State.fetches; decide +kernel⟩

theorem witness_Branches_0 :
    ∃ (e : Eng) (p : Pred) (target : BitVec 16) (s : State), s.runs e p 1 [] ∧ target.toNat < bankWords e :=
  ⟨.fsq, pT, 0xFFFF#16, onFsq id, by delta State.runs State.fetches; decide +kernel⟩

theorem witness_Branches_1 :
    ∃ (e : Eng) (p : Pred) (target : BitVec 16) (s : State), s.runs e p 1 [] ∧ target.toNat < bankWords e :=
  ⟨.pe 2, pT, 8191#16, bg id, by delta State.runs State.fetches; decide +kernel⟩

theorem witness_Branches_2 :
    ∃ (e : Eng) (p : Pred) (ra : BitVec 6) (s : State), regOk e ra = true ∧ s.runs e p 1 ((s.eng e).genNos [ra.toNat]) ∧ BitVec.toNat ((s.eng e).rd ra.toNat) < bankWords e :=
  ⟨.pe 2, pT, 3#6, bg (fun g => g.wr 3 8191#32), by delta State.runs State.fetches; decide +kernel⟩

theorem witness_Branches_3 :
    ∃ (e : Eng) (p : Pred) (target : BitVec 16) (s : State), s.runs e p 1 [] ∧ bankWords e ≤ target.toNat :=
  ⟨.pe 2, pT, 8192#16, bg id, by delta State.runs State.fetches; decide +kernel⟩

theorem witness_Branches_4 :
    ∃ (e : Eng) (p : Pred) (ra : BitVec 6) (s : State), regOk e ra = true ∧ s.runs e p 1 ((s.eng e).genNos [ra.toNat]) ∧ bankWords e ≤ BitVec.toNat ((s.eng e).rd ra.toNat) :=
  ⟨.fsq, pT, 3#6, onFsq (fun g => g.wr 3 65536#32), by delta State.runs State.fetches; decide +kernel⟩

theorem witness_Branches_5 :
    (∃ (g : Engine) (target : Nat) (l : LoopLv) (ls : List LoopLv), (∀ (l : LoopLv), l ∈ g.loops → l.top ≤ target ∧ target ≤ l.last) ∧ g.loops = l :: ls)
    ∧ (∃ (g : Engine) (target : Nat) (l : LoopLv) (ls : List LoopLv), g.loops = l :: ls ∧ (target < l.top ∨ l.last < target)) :=
  ⟨⟨{Engine.reset with loops := [⟨0,20,false⟩,⟨3,9,true⟩]}, 9, ⟨0,20,false⟩, [⟨3,9,true⟩], by decide +kernel⟩,
    ⟨{Engine.reset with loops := [⟨0,20,false⟩,⟨3,9,true⟩]}, 21, ⟨0,20,false⟩, [⟨3,9,true⟩], by decide +kernel⟩⟩

theorem witness_Loops_0 :
    ∃ (e : Eng) (p : Pred) (k : LoopCount) (last : BitVec 16) (s : State), s.runs e p (extLen k.extWord) ((s.eng e).genNos (countReads k)) ∧ ((s.fetched e (extLen k.extWord)).lastWord e last.toNat).snd = true ∧ ((s.fetched e (extLen k.extWord)).lastWord e last.toNat).fst.loopBad e (s.eng e) (extLen k.extWord) last.toNat false = false ∧ (s.eng e).countVal k ≠ 0#32 :=
  ⟨.fsq, pT, .imm 5#32, 9#16, onFsq (fun g => {g with pc := 3}), by delta State.runs State.fetches; decide +kernel⟩

theorem witness_Loops_1 :
    ∃ (n : Fin 16) (p : Pred) (k : LoopCount) (last : BitVec 16) (s : State), s.runs (Eng.pe n) p (extLen k.extWord) ((s.eng (Eng.pe n)).genNos (countReads k)) ∧ ((s.fetched (Eng.pe n) (extLen k.extWord)).lastWord (Eng.pe n) last.toNat).snd = true ∧ ((s.fetched (Eng.pe n) (extLen k.extWord)).lastWord (Eng.pe n) last.toNat).fst.loopBad (Eng.pe n) (s.eng (Eng.pe n)) (extLen k.extWord) last.toNat true = false ∧ (s.eng (Eng.pe n)).countVal k ≠ 0#32 :=
  ⟨2, pT, .reg 3#5, 8191#16, bg (fun g => (({g with pc := 3}).wr 3 1#32)), by delta State.runs State.fetches; decide +kernel⟩

theorem witness_Loops_2 :
    ∃ (e : Eng) (p : Pred) (k : LoopCount) (last : BitVec 16) (s : State), s.runs e p (extLen k.extWord) ((s.eng e).genNos (countReads k)) ∧ ((s.fetched e (extLen k.extWord)).lastWord e last.toNat).snd = true ∧ ((s.fetched e (extLen k.extWord)).lastWord e last.toNat).fst.loopBad e (s.eng e) (extLen k.extWord) last.toNat false = false ∧ (s.eng e).countVal k = 0#32 ∧ (∀ (l : LoopLv), l ∈ (s.eng e).loops → l.last ≠ last.toNat) :=
  ⟨.pe 2, pT, .reg 3#5, 8191#16, bg (fun g => (({g with pc := 3}).wr 3 0#32)), by delta State.runs State.fetches; decide +kernel⟩

theorem witness_Loops_3 :
    ∃ (n : Fin 16) (p : Pred) (k : LoopCount) (last : BitVec 16) (s : State), s.runs (Eng.pe n) p (extLen k.extWord) ((s.eng (Eng.pe n)).genNos (countReads k)) ∧ ((s.fetched (Eng.pe n) (extLen k.extWord)).lastWord (Eng.pe n) last.toNat).snd = true ∧ ((s.fetched (Eng.pe n) (extLen k.extWord)).lastWord (Eng.pe n) last.toNat).fst.loopBad (Eng.pe n) (s.eng (Eng.pe n)) (extLen k.extWord) last.toNat true = false ∧ (s.eng (Eng.pe n)).countVal k = 0#32 ∧ (∀ (l : LoopLv), l ∈ (s.eng (Eng.pe n)).loops → l.last ≠ last.toNat) :=
  ⟨2, pT, .reg 3#5, 8191#16, bg (fun g => (({g with pc := 3}).wr 3 0#32)), by delta State.runs State.fetches; decide +kernel⟩

theorem witness_Loops_4 :
    (∃ (e : Eng) (p : Pred) (k : LoopCount) (last : BitVec 16) (s : State), s.runs e p (extLen k.extWord) ((s.eng e).genNos (countReads k)) ∧ ((s.fetched e (extLen k.extWord)).lastWord e last.toNat).snd = true ∧ ((s.fetched e (extLen k.extWord)).lastWord e last.toNat).fst.loopBad e (s.eng e) (extLen k.extWord) last.toNat false = true)
    ∧ (∃ (e : Eng) (p : Pred) (k : LoopCount) (last : BitVec 16) (s : State), s.runs e p (extLen k.extWord) ((s.eng e).genNos (countReads k)) ∧ ((s.fetched e (extLen k.extWord)).lastWord e last.toNat).snd = false) :=
  ⟨⟨.pe 2, pT, .reg 3#5, 3#16, bg (fun g => (({g with pc := 3}).wr 3 0#32)), by delta State.runs State.fetches; decide +kernel⟩,
    ⟨.pe 2, pT, .reg 3#5, 0x100#16, bodyBad, by delta State.runs State.fetches; decide +kernel⟩⟩

theorem witness_Loops_5 :
    (∃ (n : Fin 16) (p : Pred) (k : LoopCount) (last : BitVec 16) (s : State), s.runs (Eng.pe n) p (extLen k.extWord) ((s.eng (Eng.pe n)).genNos (countReads k)) ∧ ((s.fetched (Eng.pe n) (extLen k.extWord)).lastWord (Eng.pe n) last.toNat).snd = true ∧ ((s.fetched (Eng.pe n) (extLen k.extWord)).lastWord (Eng.pe n) last.toNat).fst.loopBad (Eng.pe n) (s.eng (Eng.pe n)) (extLen k.extWord) last.toNat true = true)
    ∧ (∃ (n : Fin 16) (p : Pred) (k : LoopCount) (last : BitVec 16) (s : State), s.runs (Eng.pe n) p (extLen k.extWord) ((s.eng (Eng.pe n)).genNos (countReads k)) ∧ ((s.fetched (Eng.pe n) (extLen k.extWord)).lastWord (Eng.pe n) last.toNat).snd = false) :=
  ⟨⟨2, pT, .reg 3#5, 9#16, bg (fun g => (({g with pc := 3, loops := [⟨0,20,true⟩]}).wr 3 0#32)), by delta State.runs State.fetches; decide +kernel⟩,
    ⟨2, pT, .reg 3#5, 0x100#16, bodyBad, by delta State.runs State.fetches; decide +kernel⟩⟩

theorem witness_Loops_6 :
    (∃ (g : Engine) (last : Nat) (c : Word), c = 0#32 ∧ (∀ (l : LoopLv), l ∈ g.loops → l.last ≠ last))
    ∧ (∃ (c : Word), c ≠ 0#32) :=
  ⟨⟨Engine.reset, 9, 0#32, by decide +kernel⟩,
    ⟨5#32, by decide +kernel⟩⟩

theorem witness_TrapAndReturn_0 :
    ∃ (p : Pred) (s : State), s.runs Eng.fsq p 1 [] ∧ (s.eng Eng.fsq).intrap = false :=
  ⟨pT, onFsq id, by delta State.runs State.fetches; decide +kernel⟩

theorem witness_TrapAndReturn_1 :
    ∃ (n : Fin 16) (p : Pred) (s : State), s.runs (Eng.pe n) p 1 [] ∧ (s.eng (Eng.pe n)).intrap = false :=
  ⟨2, pT, bg id, by delta State.runs State.fetches; decide +kernel⟩

theorem witness_TrapAndReturn_2 :
    ∃ (e : Eng) (p : Pred) (s : State), s.runs e p 1 [] ∧ (s.eng e).intrap = true ∧ (s.eng e).doomed = false :=
  ⟨.pe 2, pT, bg (fun g => {g with intrap := true, tpc := 7}), by delta State.runs State.fetches; decide +kernel⟩

theorem witness_TrapAndReturn_3 :
    ∃ (n : Fin 16) (p : Pred) (s : State), s.runs (Eng.pe n) p 1 [] ∧ (s.eng (Eng.pe n)).intrap = true ∧ (s.eng (Eng.pe n)).doomed = true :=
  ⟨2, pT, bg (fun g => {g with intrap := true, tpc := 7, doomed := true}), by delta State.runs State.fetches; decide +kernel⟩

theorem witness_TrapAndReturn_4 :
    ∃ (e : Eng) (p : Pred) (s : State), s.runs e p 1 [] ∧ (s.eng e).intrap = false :=
  ⟨.pe 2, pT, bg id, by delta State.runs State.fetches; decide +kernel⟩

theorem witness_TrapAndReturn_5 :
    ∃ (n : Fin 16) (p : Pred) (d : Disp) (s : State), s.runs (Eng.pe n) p 1 [heldQueue] ∧ (s.pe ↑n).work = some d ∧ (d.kind = 2 ∨ d.kind = 3) ∧ (d.kind = 2 → s.pnt.recsHeld = [] ∧ s.seq.ended = []) ∧ (s.eng (Eng.pe n)).doomed = false ∧ (s.eng (Eng.pe n)).retire = false ∧ s.isPost ↑n = false :=
  ⟨2, pT, disp 3 none, bg id, by delta State.runs State.fetches; decide +kernel⟩

theorem witness_TrapAndReturn_6 :
    ∃ (n : Fin 16) (p : Pred) (d : Disp) (id : Nat) (s : State), s.runs (Eng.pe n) p 1 [heldQueue] ∧ (s.pe ↑n).work = some d ∧ (d.kind = 1 ∨ d.kind = 4) ∧ d.ctx = some id ∧ (s.eng (Eng.pe n)).doomed = false :=
  ⟨2, pT, disp 1 (some 4), 4, onPe 2 (disp 1 (some 4)) id, by delta State.runs State.fetches; decide +kernel⟩

theorem witness_TrapAndReturn_7 :
    ∃ (n : Fin 16) (p : Pred) (d : Disp) (s : State), s.runs (Eng.pe n) p 1 [heldQueue] ∧ (s.pe ↑n).work = some d ∧ d.kind = 5 :=
  ⟨2, pT, disp 5 none, onPe 2 (disp 5 none) id, by delta State.runs State.fetches; decide +kernel⟩

theorem witness_TrapAndReturn_8 :
    ∃ (n : Fin 16) (p : Pred) (s : State), s.runs (Eng.pe n) p 1 [] ∧ (s.eng (Eng.pe n)).bad.contains heldQueue = true ∧ (s.eng (Eng.pe n)).doomed = false :=
  ⟨2, pT, bg (fun g => {g with bad := [heldQueue]}), by delta State.runs State.fetches; decide +kernel⟩

theorem witness_TrapAndReturn_9 :
    ∃ (n : Fin 16) (p : Pred) (s : State), s.runs (Eng.pe n) p 1 [] ∧ (s.eng (Eng.pe n)).doomed = true ∧ s.manages (Eng.pe n) = false :=
  ⟨2, pT, bg (fun g => {g with bad := [heldQueue], doomed := true}), by delta State.runs State.fetches; decide +kernel⟩

theorem witness_SpecialRegisters_0 :
    ∃ (e : Eng) (p : Pred) (rd : BitVec 6) (sr : BitVec 5) (s : State), regOk e rd = true ∧ mfsOk e sr.toNat = true ∧ sr.toNat ≠ 13 ∧ s.runs e p 1 [] :=
  ⟨.pe 2, pT, 5#6, 0#5, bg id, by delta State.runs State.fetches; decide +kernel⟩

theorem witness_SpecialRegisters_1 :
    ∃ (n : Fin 16) (p : Pred) (ra : BitVec 6) (s : State), s.runs (Eng.pe n) p 1 ((s.eng (Eng.pe n)).genNos [ra.toNat]) ∧ BitVec.toNat ((s.eng (Eng.pe n)).rd ra.toNat) % 64 ≤ 40 :=
  ⟨2, pT, 5#6, bg (fun g => g.wr 5 0xE8#32), by delta State.runs State.fetches; decide +kernel⟩

theorem witness_SpecialRegisters_2 :
    ∃ (n : Fin 16) (p : Pred) (ra : BitVec 6) (s : State), s.runs (Eng.pe n) p 1 ((s.eng (Eng.pe n)).genNos [ra.toNat]) ∧ 40 < BitVec.toNat ((s.eng (Eng.pe n)).rd ra.toNat) % 64 :=
  ⟨2, pT, 5#6, bg (fun g => g.wr 5 0xE9#32), by delta State.runs State.fetches; decide +kernel⟩

theorem witness_SpecialRegisters_3 :
    ∃ (n : Fin 16) (p : Pred) (ra : BitVec 6) (s : State), s.runs (Eng.pe n) p 1 ((s.eng (Eng.pe n)).genNos [ra.toNat]) :=
  ⟨2, pT, 5#6, bg (fun g => {g.wr 5 0x1#32 with aov := true, msat := true}), by delta State.runs State.fetches; decide +kernel⟩

theorem witness_SpecialRegisters_4 :
    ∃ (e : Eng) (p : Pred) (ra : BitVec 6) (k : Nat) (s : State), regOk e ra = true ∧ k < 4 ∧ s.runs e p 1 ((s.eng e).genNos [ra.toNat]) :=
  ⟨.fsq, pT, 5#6, 3, onFsq (fun g => g.wr 5 0x1#32), by delta State.runs State.fetches; decide +kernel⟩

theorem witness_SpecialRegisters_5 :
    ∃ (n : Fin 16) (p : Pred) (s : State), s.runs (Eng.pe n) p 1 [] :=
  ⟨2, pT, bg id, by delta State.runs State.fetches; decide +kernel⟩

theorem witness_SpecialRegisters_6 :
    ∃ (n : Fin 16) (p : Pred) (ra : BitVec 6) (s : State), s.runs (Eng.pe n) p 1 ((s.eng (Eng.pe n)).genNos [ra.toNat]) :=
  ⟨2, pT, 5#6, bg id, by delta State.runs State.fetches; decide +kernel⟩

theorem witness_SpecialRegisters_7 :
    (∃ (k : Nat), k < 4)
    ∧ (∃ (e : Eng) (k : Nat), e.isFsq = false ∧ k < 4) :=
  ⟨⟨0, by decide +kernel⟩,
    ⟨.pe 2, 3, by decide +kernel⟩⟩

theorem witness_WordTransfers_0 :
    (∃ (e : Eng) (p : Pred) (rd : BitVec 6) (ra : BitVec 6) (disp : Imm 9) (s : State), regOk e rd = true ∧ regOk e ra = true ∧ s.runs e p (immLen disp) ((s.eng e).genNos [ra.toNat]) ∧ BitVec.toNat ((s.eng e).rd ra.toNat + immVal disp) % 4 = 0 ∧ 4194304 ≤ BitVec.toNat ((s.eng e).rd ra.toNat + immVal disp) ∧ BitVec.toNat ((s.eng e).rd ra.toNat + immVal disp) < 8388608 ∧ (s.fetched e (immLen disp)).errors (BitVec.toNat ((s.eng e).rd ra.toNat + immVal disp) / 32) = 0#32)
    ∧ (∃ (e : Eng) (p : Pred) (rd : BitVec 6) (ra : BitVec 6) (disp : Imm 9) (s : State), regOk e rd = true ∧ regOk e ra = true ∧ s.runs e p (immLen disp) ((s.eng e).genNos [ra.toNat]) ∧ BitVec.toNat ((s.eng e).rd ra.toNat + immVal disp) % 4 = 0 ∧ 4194304 ≤ BitVec.toNat ((s.eng e).rd ra.toNat + immVal disp) ∧ BitVec.toNat ((s.eng e).rd ra.toNat + immVal disp) < 8388608 ∧ (s.fetched e (immLen disp)).rangeOk (BitVec.toNat ((s.eng e).rd ra.toNat + immVal disp)) 4 = false) :=
  ⟨⟨.fsq, pT, 5#6, 6#6, .short 0x1fc#9, onFsq (fun g => g.wr 6 0x800000#32), by delta State.runs State.fetches; decide +kernel⟩,
    ⟨.fsq, pT, 5#6, 6#6, .short 0x1fc#9, {onFsq (fun g => g.wr 6 0x800000#32) with synd := [(0x7ffffc/32, 0x00112233#32)]}, by delta State.runs State.fetches; decide +kernel⟩⟩

theorem witness_WordTransfers_1 :
    ∃ (e : Eng) (p : Pred) (rs : BitVec 6) (ra : BitVec 6) (disp : Imm 9) (s : State) (b : Nat), regOk e rs = true ∧ regOk e ra = true ∧ s.runs e p (immLen disp) ((s.eng e).genNos [rs.toNat, ra.toNat]) ∧ BitVec.toNat ((s.eng e).rd ra.toNat + immVal disp) % 4 = 0 ∧ 4194304 ≤ BitVec.toNat ((s.eng e).rd ra.toNat + immVal disp) ∧ BitVec.toNat ((s.eng e).rd ra.toNat + immVal disp) < 8388608 ∧ (s.fetched e (immLen disp)).errors (BitVec.toNat ((s.eng e).rd ra.toNat + immVal disp) / 32) = 0#32 ∧ (b < BitVec.toNat ((s.eng e).rd ra.toNat + immVal disp) ∨ BitVec.toNat ((s.eng e).rd ra.toNat + immVal disp) + 4 ≤ b) :=
  ⟨.pe 2, pT, 5#6, 6#6, .ext 0x400000#32, bg (fun g => g.wr 5 0x80120034#32), 0, by delta State.runs State.fetches; decide +kernel⟩

theorem witness_WordTransfers_2 :
    ∃ (e : Eng) (p : Pred) (r : BitVec 6) (ra : BitVec 6) (disp : Imm 9) (s : State), regOk e r = true ∧ regOk e ra = true ∧ s.runs e p (immLen disp) ((s.eng e).genNos [r.toNat, ra.toNat]) ∧ BitVec.toNat ((s.eng e).rd ra.toNat + immVal disp) % 4 ≠ 0 :=
  ⟨.pe 2, pT, 5#6, 6#6, .ext 0x400001#32, bg (fun g => g.wr 5 0x80120034#32), by delta State.runs State.fetches; decide +kernel⟩

theorem witness_WordTransfers_3 :
    ∃ (p : Pred) (r : BitVec 6) (ra : BitVec 6) (disp : Imm 9) (s : State), r.toNat < 32 ∧ ra.toNat < 32 ∧ s.runs Eng.fsq p (immLen disp) ((s.eng Eng.fsq).genNos [r.toNat, ra.toNat]) ∧ (BitVec.toNat ((s.eng Eng.fsq).rd ra.toNat + immVal disp) < 4194304 ∨ 8388608 ≤ BitVec.toNat ((s.eng Eng.fsq).rd ra.toNat + immVal disp)) :=
  ⟨pT, 5#6, 6#6, .short 0x1fc#9, onFsq (fun g => g.wr 6 0x400000#32), by delta State.runs State.fetches; decide +kernel⟩

theorem witness_WordTransfers_4 :
    ∃ (n : Fin 16) (p : Pred) (r : BitVec 6) (ra : BitVec 6) (disp : Imm 9) (s : State), s.runs (Eng.pe n) p (immLen disp) ((s.eng (Eng.pe n)).genNos [r.toNat, ra.toNat]) ∧ s.manages (Eng.pe n) = false ∧ (BitVec.toNat ((s.eng (Eng.pe n)).rd ra.toNat + immVal disp) < 65536 ∨ 131072 ≤ BitVec.toNat ((s.eng (Eng.pe n)).rd ra.toNat + immVal disp)) ∧ (BitVec.toNat ((s.eng (Eng.pe n)).rd ra.toNat + immVal disp) < 4194304 ∨ 8388608 ≤ BitVec.toNat ((s.eng (Eng.pe n)).rd ra.toNat + immVal disp)) :=
  ⟨2, pT, 5#6, 6#6, .short 0x1fc#9, bg (fun g => g.wr 6 0x20004#32), by delta State.runs State.fetches; decide +kernel⟩

theorem witness_TimedInstructions_0 :
    ∃ (i : Instr) (p : Pred) (off : Option Word) (rs : List Nat) (k : TKind) (s : State), s.timedForm i p off rs k ∧ legal i = true ∧ s.runs Eng.fsq p (extLen off) ((s.eng Eng.fsq).genNos rs) ∧ s.emi.tq.length < 512 ∧ (k = TKind.mark false → s.is F.SEQ_BANK_FPENDV = false) :=
  ⟨.fire .fsq pT 4#6 (some 0x12345#32), pT, some 0x12345#32, [4,5], .fire 0x300000007 2 none, tcs (fun f => {f with tc := 5, sub := 15, row := 2}) (fun g => (g.wr 4 7#32).wr 5 3#32), .inl ⟨4#6, rfl, by decide, by decide +kernel, by decide +kernel⟩, by delta State.runs State.fetches; decide +kernel⟩

theorem witness_TimedInstructions_1 :
    ∃ (i : Instr) (p : Pred) (off : Option Word) (rs : List Nat) (k : TKind) (s : State), s.timedForm i p off rs k ∧ legal i = true ∧ s.runs Eng.fsq p (extLen off) ((s.eng Eng.fsq).genNos rs) ∧ 512 ≤ s.emi.tq.length :=
  ⟨.ctxc .fsq pT 4#6 none, pT, none, [4], .ctxc 0, fullq, .inr (.inr (.inr (.inr (.inr (.inr (.inl ⟨4#6, rfl, by decide, by decide +kernel⟩)))))), by delta State.runs State.fetches; decide +kernel⟩

theorem witness_TimedInstructions_2 :
    ∃ (p : Pred) (ra : BitVec 6) (rc : BitVec 6) (off : Option Word) (rs : List Nat) (i : Instr) (s : State), (i = Instr.fire Eng.fsq p ra off ∧ rs = span ra.toNat 2 ∨ i = Instr.firec Eng.fsq p ra rc off ∧ rs = span ra.toNat 2 ++ [rc.toNat]) ∧ legal i = true ∧ s.runs Eng.fsq p (extLen off) ((s.eng Eng.fsq).genNos rs) ∧ (s.eng Eng.fsq).mask ra = 0 :=
  ⟨pT, 4#6, 6#6, none, [4,5], .fire .fsq pT 4#6 none, onFsq id, by delta State.runs State.fetches; decide +kernel⟩

theorem witness_TimedInstructions_3 :
    ∃ (p : Pred) (ra : BitVec 6) (rl : BitVec 6) (off : Option Word) (s : State), legal (Instr.gate Eng.fsq p ra rl off) = true ∧ s.runs Eng.fsq p (extLen off) ((s.eng Eng.fsq).genNos (span ra.toNat 2 ++ [rl.toNat])) ∧ BitVec.toNat ((s.eng Eng.fsq).rd rl.toNat) % 65536 = 0 :=
  ⟨pT, 4#6, 6#6, none, onFsq (fun g => g.wr 6 0x10000#32), by delta State.runs State.fetches; decide +kernel⟩

theorem witness_TimedInstructions_4 :
    ∃ (p : Pred) (ra : BitVec 6) (s : State), ra.toNat < 32 ∧ s.runs Eng.fsq p 1 ((s.eng Eng.fsq).genNos [ra.toNat]) ∧ s.seq.fsq.tc + BitVec.toNat ((s.eng Eng.fsq).rd ra.toNat) < 2 ^ 64 ∧ s.seq.fsq.sub < 16 :=
  ⟨pT, 6#6, onFsq (fun g => g.wr 6 0xFFFFFFFF#32), by delta State.runs State.fetches; decide +kernel⟩

theorem witness_TimedInstructions_5 :
    ∃ (p : Pred) (v : Word) (s : State), s.runs Eng.fsq p 2 [] ∧ s.seq.fsq.tc + BitVec.toNat v < 2 ^ 64 ∧ s.seq.fsq.sub < 16 :=
  ⟨pT, 0x1234567F#32, tcs (fun f => {f with tc := 5, sub := 15}) id, by delta State.runs State.fetches; decide +kernel⟩

theorem witness_TimedInstructions_6 :
    ∃ (p : Pred) (ra : BitVec 6) (s : State), ra.toNat < 32 ∧ ra.toNat % 2 = 0 ∧ s.runs Eng.fsq p 1 ((s.eng Eng.fsq).genNos (span ra.toNat 2)) :=
  ⟨pT, 6#6, tcs (fun f => {f with tc := 5, sub := 0}) (fun g => g.wr 6 5#32), by delta State.runs State.fetches; decide +kernel⟩

theorem witness_Waits_0 :
    (∃ (p : Pred) (ra : BitVec 6) (a : Fin 4) (dir : BitVec 2) (s : State), ra.toNat < 32 ∧ dir.toNat ≠ 3 ∧ s.runs Eng.fsq p 1 ((s.eng Eng.fsq).genNos [ra.toNat]) ∧ s.axisOut ↑a = true ∧ s.seq.fsq.stopping = false)
    ∧ (∃ (p : Pred) (ra : BitVec 6) (a : Fin 4) (dir : BitVec 2) (s : State), ra.toNat < 32 ∧ dir.toNat ≠ 3 ∧ s.runs Eng.fsq p 1 ((s.eng Eng.fsq).genNos [ra.toNat]) ∧ s.axisOut ↑a = false ∧ s.crossing (↑a) (BitVec.toNat ((s.eng Eng.fsq).rd ra.toNat) % 2 ^ 24) dir.toNat (16 * s.seq.fsq.tc + s.seq.fsq.sub) = none) :=
  ⟨⟨pT, 6#6, 3, 2#2, onFsq id, by delta State.runs State.fetches; decide +kernel⟩,
    ⟨pT, 6#6, 3, 2#2, axon, by delta State.runs State.fetches; decide +kernel⟩⟩

theorem witness_Waits_1 :
    ∃ (p : Pred) (ra : BitVec 6) (a : Fin 4) (dir : BitVec 2) (c : Nat) (s : State), ra.toNat < 32 ∧ dir.toNat ≠ 3 ∧ s.runs Eng.fsq p 1 ((s.eng Eng.fsq).genNos [ra.toNat]) ∧ s.axisOut ↑a = false ∧ s.seq.fsq.stopping = false ∧ s.crossing (↑a) (BitVec.toNat ((s.eng Eng.fsq).rd ra.toNat) % 2 ^ 24) dir.toNat (16 * s.seq.fsq.tc + s.seq.fsq.sub) = some c :=
  ⟨pT, 6#6, 3, 0#2, 263, axr.setEng .fsq ((axr.eng .fsq).wr 6 4#32), by delta State.runs State.fetches; decide +kernel⟩

theorem witness_Waits_2 :
    ∃ (p : Pred) (m : Nat) (s : State), s.runs Eng.fsq p 1 [] ∧ s.seq.fsq.stopping = false ∧ s.markerTime = some m :=
  ⟨pT, 17600, marker 1600 none, by delta State.runs State.fetches; decide +kernel⟩

theorem witness_Waits_3 :
    ∃ (p : Pred) (s : State), s.runs Eng.fsq p 1 [] ∧ s.markerTime = none :=
  ⟨pT, onFsq id, by delta State.runs State.fetches; decide +kernel⟩

theorem witness_Waits_4 :
    ∃ (qd : Nat) (m : Nat) (s : State), s.inReset = false ∧ s.seq.fsq.wait = some (FWait.sync qd) ∧ s.seq.fsq.stopping = false ∧ s.markerTime = some m :=
  ⟨4, 17600, marker 1600 (some (.sync 4)), by decide +kernel⟩

theorem witness_Waits_5 :
    ∃ (a : Nat) (target : Nat) (dir : Nat) (qd : Nat) (c : Nat) (s : State), s.inReset = false ∧ s.seq.fsq.wait = some (FWait.axis a target dir qd) ∧ s.seq.fsq.stopping = false ∧ s.axisOut a = false ∧ s.crossing a target dir (16 * s.seq.fsq.tc + s.seq.fsq.sub) = some c :=
  ⟨3, 4, 0, 2, 263, axw, by decide +kernel⟩

theorem witness_Waits_6 :
    ∃ (w : FWait) (qd : Nat) (u : Nat) (s : State), s.inReset = false ∧ s.seq.fsq.wait = some w ∧ (w = FWait.sync qd ∨ ∃ a v d, w = FWait.axis a v d qd) ∧ s.seq.fsq.stopping = false ∧ 16 * (s.seq.fsq.tc + s.get F.SEQ_WTMO_WTMO) + s.seq.fsq.sub ≤ 16 * u :=
  ⟨.sync 4, 4, 0xFFFFFFFF, tcs (fun f => {f with wait := some (.sync 4), tc := 7, sub := 3}) id, by decide +kernel, by decide +kernel, .inl rfl, by decide +kernel⟩

theorem witness_AluResults :
    (∃ (n : Fin 16) (p : Pred) (ra : BitVec 6) (b : AluSrc) (s : State), s.runs (Eng.pe n) p (aluLen b) ((s.eng (Eng.pe n)).genNos (ra.toNat :: aluReads b)))
    ∧ (∃ (n : Fin 16) (p : Pred) (rd : BitVec 6) (ra : BitVec 6) (b : AluSrc) (s : State) (v : Word) (i : Instr), s.runs (Eng.pe n) p (aluLen b) ((s.eng (Eng.pe n)).genNos (ra.toNat :: aluReads b)) ∧ ((i = Instr.iAnd (Eng.pe n) p rd ra b ∧ ∀ (k : Nat), BitVec.getLsbD v k = (BitVec.getLsbD ((s.eng (Eng.pe n)).rd ra.toNat) k && BitVec.getLsbD ((s.eng (Eng.pe n)).aluVal b) k)) ∨ (i = Instr.iOr (Eng.pe n) p rd ra b ∧ ∀ (k : Nat), BitVec.getLsbD v k = (BitVec.getLsbD ((s.eng (Eng.pe n)).rd ra.toNat) k || BitVec.getLsbD ((s.eng (Eng.pe n)).aluVal b) k)) ∨ i = Instr.iXor (Eng.pe n) p rd ra b ∧ ∀ (k : Nat), BitVec.getLsbD v k = (BitVec.getLsbD ((s.eng (Eng.pe n)).rd ra.toNat) k != BitVec.getLsbD ((s.eng (Eng.pe n)).aluVal b) k))) :=
  ⟨⟨2, pT, 5#6, .imm6 0x3f#6, ax (.imm6 0x3f#6) 0x80000000#32 0x80000000#32, by delta State.runs State.fetches; decide +kernel⟩,
    ⟨2, pT, 7#6, 5#6, .reg 6#6, ax (.imm6 0x3f#6) 0x80000000#32 0x80000000#32, 0x80000000#32, .iAnd (.pe 2) pT 7#6 5#6 (.reg 6#6), ⟨by delta State.runs State.fetches; decide +kernel, .inl ⟨rfl, fun k => by
      rw [← BitVec.getLsbD_and]; exact congrArg (BitVec.getLsbD · k) (by decide +kernel)⟩⟩⟩⟩

theorem witness_ShiftResults_0 :
    ∃ (n : Fin 16) (p : Pred) (ra : BitVec 6) (b : ShSrc) (s : State), s.runs (Eng.pe n) p 1 ((s.eng (Eng.pe n)).genNos (ra.toNat :: shiftReads b)) :=
  ⟨2, pT, 5#6, .imm6 0x1f#6, ax (.imm6 0x3f#6) 0x81234560#32 32#32, by delta State.runs State.fetches; decide +kernel⟩

theorem witness_NormAndExpb_0 :
    ∃ (n : Fin 16) (p : Pred) (ra : BitVec 6) (s : State), s.runs (Eng.pe n) p 1 ((s.eng (Eng.pe n)).genNos [ra.toNat]) :=
  ⟨2, pT, 5#6, bg id, by delta State.runs State.fetches; decide +kernel⟩

theorem witness_NormAndExpb_1 :
    ∃ (n : Fin 16) (p : Pred) (an : BitVec 3) (s : State), s.runs (Eng.pe n) p 1 [64 + an.toNat] :=
  ⟨2, pT, 5#3, bg id, by delta State.runs State.fetches; decide +kernel⟩

theorem witness_NormAndExpb_2 :
    ∃ (w : Nat) (v : BitVec w) (i : Nat), 0 < w ∧ i < normOf v ∧ normOf v < w - 1 :=
  ⟨32, 0xF1230000#32, 0, by decide +kernel⟩

theorem witness_NormAndExpb_4 :
    ∃ (n : Fin 16) (p : Pred) (s : State), s.runs (Eng.pe n) p 1 [] :=
  ⟨2, pT, bg id, by delta State.runs State.fetches; decide +kernel⟩

theorem witness_NormAndExpb_5 :
    ∃ (n : Fin 16) (ra : BitVec 6) (k : BitVec 6) (s : State), 64 < ra.toNat + k.toNat ∧ 0 < k.toNat ∧ s.fetches (Eng.pe n) 1 :=
  ⟨2, 60#6, 5#6, bg id, by delta State.fetches; decide +kernel⟩

theorem witness_CompareAndSelect_0 :
    ∃ (n : Fin 16) (p : Pred) (ra : BitVec 6) (b : CmpSrc) (s : State), s.runs (Eng.pe n) p (cmpLen b) ((s.eng (Eng.pe n)).genNos (ra.toNat :: cmpReads b)) :=
  ⟨2, pT, 60#6, .ext 1#32, bg id, by delta State.runs State.fetches; decide +kernel⟩

theorem witness_CompareAndSelect_1 :
    ∃ (n : Fin 16) (p : Pred) (ra : BitVec 6) (rb : BitVec 6) (s : State), s.runs (Eng.pe n) p 1 ((s.eng (Eng.pe n)).genNos [ra.toNat, rb.toNat]) :=
  ⟨2, pT, 60#6, 61#6, bg id, by delta State.runs State.fetches; decide +kernel⟩

theorem witness_MultiplyAndDivide :
    ∃ (n : Fin 16) (p : Pred) (ra : BitVec 6) (rb : BitVec 6) (s : State), s.runs (Eng.pe n) p 1 ((s.eng (Eng.pe n)).genNos [ra.toNat, rb.toNat]) :=
  ⟨2, pT, 5#6, 6#6, ax (.imm6 0x3f#6) 0x80000000#32 0xFFFFFFFF#32, by delta State.runs State.fetches; decide +kernel⟩

theorem witness_MultiplyAccumulate_0 :
    ∃ (n : Fin 16) (p : Pred) (an : BitVec 3) (ra : BitVec 6) (rb : BitVec 6) (w : BitVec 2) (red : Bool) (u : Bool) (k : Int) (i : Instr) (s : State), (i = Instr.mac (Eng.pe n) p an ra rb w red u ∧ k = 1 ∨ i = Instr.macs (Eng.pe n) p an ra rb w red u ∧ k = -1) ∧ lanesOk an ra rb w = true ∧ s.runs (Eng.pe n) p 1 ((s.eng (Eng.pe n)).maccReads an.toNat ra rb (w.toNat + 1) red) ∧ ((s.eng (Eng.pe n)).aovt = false ∨ (s.eng (Eng.pe n)).maccOver an.toNat ra rb (w.toNat + 1) red u k = false) :=
  ⟨2, pT, 4#3, 5#6, 6#6, 3#2, false, false, 1, .mac (.pe 2) pT 4#3 5#6 6#6 3#2 false false, ax (.imm6 0x3f#6) 0x80000000#32 0xFFFFFFFF#32, by delta State.runs State.fetches; decide +kernel⟩

theorem witness_MultiplyAccumulate_1 :
    ∃ (n : Fin 16) (p : Pred) (an : BitVec 3) (ra : BitVec 6) (rb : BitVec 6) (w : BitVec 2) (red : Bool) (u : Bool) (k : Int) (i : Instr) (s : State), (i = Instr.mac (Eng.pe n) p an ra rb w red u ∧ k = 1 ∨ i = Instr.macs (Eng.pe n) p an ra rb w red u ∧ k = -1) ∧ lanesOk an ra rb w = true ∧ s.runs (Eng.pe n) p 1 ((s.eng (Eng.pe n)).maccReads an.toNat ra rb (w.toNat + 1) red) ∧ (s.eng (Eng.pe n)).aovt = true ∧ (s.eng (Eng.pe n)).intrap = false ∧ (s.eng (Eng.pe n)).maccOver an.toNat ra rb (w.toNat + 1) red u k = true :=
  ⟨2, pT, 7#3, 5#6, 6#6, 0#2, true, false, 1, .mac (.pe 2) pT 7#3 5#6 6#6 0#2 true false, sat, by delta State.runs State.fetches; decide +kernel⟩

theorem witness_MultiplyAccumulate_2 :
    ∃ (an : Nat) (n : Nat) (j : Nat), an < 8 ∧ n ≤ 4 ∧ j < 8 ∧ j ≠ an :=
  ⟨7, 4, 0, by decide +kernel⟩

theorem witness_MultiplyAccumulate_3 :
    ∃ (an : Nat) (n : Nat) (i : Nat) (j : Nat), an + n ≤ 8 ∧ i < n ∧ j < 8 ∧ (j < an ∨ an + n ≤ j) :=
  ⟨4, 4, 2, 0, by decide +kernel⟩

theorem witness_MultiplyAccumulate_4 :
    ∃ (n : Fin 16) (p : Pred) (ra : BitVec 6) (sh : BitVec 6) (s : State), sh.toNat ≤ 40 ∧ s.runs (Eng.pe n) p 1 ((s.eng (Eng.pe n)).genNos [ra.toNat]) :=
  ⟨2, pT, 5#6, 40#6, sat, by delta State.runs State.fetches; decide +kernel⟩

theorem witness_MultiplyAccumulate_5 :
    ∃ (n : Fin 16) (p : Pred) (sh : BitVec 6) (s : State), sh.toNat ≤ 40 ∧ s.runs (Eng.pe n) p 1 [] :=
  ⟨2, pT, 40#6, sat, by delta State.runs State.fetches; decide +kernel⟩

theorem witness_MultiplyAccumulate_6 :
    ∃ (n : Fin 16) (p : Pred) (an : BitVec 3) (s : State), s.runs (Eng.pe n) p 1 [64 + an.toNat] :=
  ⟨2, pT, 7#3, sat, by delta State.runs State.fetches; decide +kernel⟩

theorem witness_NormAndExpb_3 :
    ∃ (n : Fin 16) (p : Pred) (ra : BitVec 6) (k : BitVec 6) (s : State), 0 < k.toNat ∧ ra.toNat + k.toNat ≤ 64 ∧ s.runs (Eng.pe n) p 1 ((s.eng (Eng.pe n)).genNos (span ra.toNat k.toNat)) :=
  ⟨2, pT, 60#6, 4#6, bg (fun g => g.wr 62 0xF0#32), by delta State.runs State.fetches; decide +kernel⟩

theorem witness_LoadsAndStores_0 :
    ∃ (n : Fin 16) (p : Pred) (pa : BitVec 4) (sz : BitVec 2) (am : BitVec 2) (off : Imm 6) (s : State), modeOk pa sz am = true ∧ s.runs (Eng.pe n) p (immLen off) (addrReads pa am) ∧ (s.eng (Eng.pe n)).badCompanion pa am = false ∧ (s.eng (Eng.pe n)).accessAt pa sz am off % 2 ^ sz.toNat = 0 ∧ (s.eng (Eng.pe n)).accessAt pa sz am off < 131072 ∧ (s.fetched (Eng.pe n) (immLen off)).errors ((peBase ↑n + (s.eng (Eng.pe n)).accessAt pa sz am off) / 32) = 0#32 :=
  ⟨2, pT, 3#4, 1#2, 1#2, .short 0x3f#6, mem (0x140000+8) [0x80,0x90,0xA0] (bg (fun g => g.wrP 3 8#32)), by delta State.runs State.fetches; decide +kernel⟩

theorem witness_LoadsAndStores_1 :
    ∃ (n : Fin 16) (p : Pred) (r : BitVec 6) (pa : BitVec 4) (sz : BitVec 2) (am : BitVec 2) (off : Imm 6) (s : State) (b : Nat), modeOk pa sz am = true ∧ s.runs (Eng.pe n) p (immLen off) ((s.eng (Eng.pe n)).genNos [r.toNat] ++ addrReads pa am) ∧ (s.eng (Eng.pe n)).badCompanion pa am = false ∧ (s.eng (Eng.pe n)).accessAt pa sz am off % 2 ^ sz.toNat = 0 ∧ 65536 ≤ (s.eng (Eng.pe n)).accessAt pa sz am off ∧ (s.eng (Eng.pe n)).accessAt pa sz am off < 131072 ∧ (s.fetched (Eng.pe n) (immLen off)).errors ((peBase ↑n + (s.eng (Eng.pe n)).accessAt pa sz am off) / 32) = 0#32 ∧ (b < peBase ↑n + (s.eng (Eng.pe n)).accessAt pa sz am off ∨ peBase ↑n + (s.eng (Eng.pe n)).accessAt pa sz am off + 2 ^ sz.toNat ≤ b) :=
  ⟨2, pT, 63#6, 3#4, 2#2, 2#2, .short 0x3f#6, (bg (fun g => ((g.wrP 3 0x10008#32).wrP 11 0x10#32).wr 63 0x80123456#32)), 0, by delta State.runs State.fetches; decide +kernel⟩

theorem witness_LoadsAndStores_2 :
    ∃ (n : Fin 16) (p : Pred) (pd : BitVec 4) (ra : BitVec 6) (fn : BitVec 2) (imm : Imm 9) (s : State), s.runs (Eng.pe n) p (immLen imm) ((s.eng (Eng.pe n)).pmovReads pd ra fn) :=
  ⟨2, pT, 3#4, 5#6, 0#2, .short 0x1ff#9, bg id, by delta State.runs State.fetches; decide +kernel⟩

theorem witness_LoadsAndStores_3 :
    ∃ (g : Engine) (pa : BitVec 4) (x : Word) (l : Nat), x = g.rdP pa.toNat ∧ l = BitVec.toNat (g.rdP (pa.toNat + 8)) % 65536 ∧ l ≠ 0 :=
  ⟨((Engine.reset.wrP 3 0x10008#32).wrP 11 0x10#32), 3#4, 0x10008#32, 0x10, by decide +kernel⟩

theorem witness_BinsAndRecords_0 :
    (∃ (n : Fin 16) (p : Pred) (rd : BitVec 6) (pa : BitVec 4) (r : BitVec 3) (k : BitVec 2) (pi : Bool) (d : Disp) (s : State), r.toNat ≤ 4 ∧ rd.toNat + k.toNat ≤ 63 ∧ s.runs (Eng.pe n) p 1 [80 + pa.toNat] ∧ (s.pe ↑n).work = some d ∧ ((d.kind = 1 ∨ d.kind = 4) ∧ d.part = none ∨ d.kind = 2 ∧ ∃ q, d.part = some q ∧ q.errs = []) ∧ (s.fetched (Eng.pe n) 1).synd = [] ∧ pi = true)
    ∧ (∃ (n : Fin 16) (p : Pred) (rd : BitVec 6) (pa : BitVec 4) (r : BitVec 3) (k : BitVec 2) (pi : Bool) (d : Disp) (s : State), r.toNat ≤ 4 ∧ rd.toNat + k.toNat ≤ 63 ∧ s.runs (Eng.pe n) p 1 [80 + pa.toNat] ∧ (s.pe ↑n).work = some d ∧ ((d.kind = 1 ∨ d.kind = 4) ∧ d.part = none ∨ d.kind = 2 ∧ ∃ q, d.part = some q ∧ q.errs = []) ∧ (s.fetched (Eng.pe n) 1).synd = [] ∧ pi = false) :=
  ⟨⟨2, pT, 60#6, 3#4, 4#3, 3#2, true, disp 1 (some 4), px 1 (fun g => g.wrP 3 5#32), by delta State.runs State.fetches; decide +kernel⟩,
    ⟨2, pT, 60#6, 3#4, 0#3, 3#2, false, disp 4 (some 4), px 4 (fun g => g.wrP 3 0xFFFFFFFE#32), by delta State.runs State.fetches; decide +kernel⟩⟩

theorem witness_BinsAndRecords_1 :
    (∃ (d : Disp) (b : Int), 0 ≤ b ∧ b ≤ 2047 ∧ d.part = none ∧ b ≤ 127)
    ∧ (∃ (d : Disp) (r : Nat) (b : Int), 0 ≤ b ∧ b ≤ 2047 ∧ d.part = none ∧ b ≤ 127 ∧ r ≠ 0 ∧ r - 1 < d.placed ∧ d.kind ≠ 2)
    ∧ (∃ (d : Disp) (b : Int) (q : Partial), 0 ≤ b ∧ b ≤ 2047 ∧ d.part = some q)
    ∧ (∃ (d : Disp) (r : Nat) (b : Int), (b < 0 ∨ r = 0 ∧ 2047 < b ∨ r ≠ 0 ∧ (d.kind = 2 ∨ 127 < b ∨ d.placed ≤ r - 1)) ∧ 0 ≤ b ∧ b ≤ 2047 ∧ d.part = none) :=
  ⟨⟨disp 3 none, 5, by decide +kernel⟩,
    ⟨{disp 1 (some 4) with header := List.replicate 18 0#8 ++ [32#8]}, 1, 127, by decide +kernel⟩,
    ⟨{disp 2 (some 4) with part := some ⟨ctx0, [1], []⟩}, 2047, ⟨ctx0, [1], []⟩, by decide +kernel⟩,
    ⟨disp 2 (some 4), 1, 128, by decide +kernel⟩⟩

theorem witness_BinsAndRecords_2 :
    ∃ (n : Fin 16) (p : Pred) (rd : BitVec 6) (pa : BitVec 4) (r : BitVec 3) (k : BitVec 2) (d : Disp) (s : State), r.toNat ≤ 4 ∧ rd.toNat + k.toNat ≤ 63 ∧ s.runs (Eng.pe n) p 1 [80 + pa.toNat] ∧ (s.pe ↑n).work = some d ∧ (d.kind = 3 ∨ d.kind = 5) :=
  ⟨2, pT, 60#6, 3#4, 0#3, 3#2, disp 3 none, bg id, by delta State.runs State.fetches; decide +kernel⟩

theorem witness_BinsAndRecords_3 :
    ∃ (n : Fin 16) (p : Pred) (pa : BitVec 4) (d : Disp) (s : State), s.runs (Eng.pe n) p 1 [80 + pa.toNat] ∧ (s.pe ↑n).work = some d ∧ (BitVec.toNat ((s.eng (Eng.pe n)).rdP pa.toNat) % 32 ≠ 0 ∨ BitVec.toNat ((s.eng (Eng.pe n)).rdP pa.toNat) < 65536 ∨ 131072 ≤ BitVec.toNat ((s.eng (Eng.pe n)).rdP pa.toNat)) :=
  ⟨2, pT, 3#4, disp 3 none, bg (fun g => g.wrP 3 0x20000#32), by delta State.runs State.fetches; decide +kernel⟩

theorem witness_BinsAndRecords_4 :
    ∃ (n : Fin 16) (p : Pred) (pa : BitVec 4) (ty : BitVec 8) (d : Disp) (s : State), s.runs (Eng.pe n) p 1 [80 + pa.toNat] ∧ (s.pe ↑n).work = some d ∧ accepts d.kind ty.toNat = false ∧ BitVec.toNat ((s.eng (Eng.pe n)).rdP pa.toNat) % 32 = 0 ∧ 65536 ≤ BitVec.toNat ((s.eng (Eng.pe n)).rdP pa.toNat) ∧ BitVec.toNat ((s.eng (Eng.pe n)).rdP pa.toNat) < 131072 :=
  ⟨2, pT, 3#4, 1#8, disp 3 none, bg (fun g => g.wrP 3 0x1FFE0#32), by delta State.runs State.fetches; decide +kernel⟩

theorem witness_BinsAndRecords_6 :
    (∃ (n : Fin 16) (p : Pred) (pa : BitVec 4) (d : Disp) (s : State) (c : Ctx), s.runs (Eng.pe n) p 1 [80 + pa.toNat] ∧ (s.pe ↑n).work = some d ∧ BitVec.toNat ((s.eng (Eng.pe n)).rdP pa.toNat) % 32 = 0 ∧ 65536 ≤ BitVec.toNat ((s.eng (Eng.pe n)).rdP pa.toNat) ∧ BitVec.toNat ((s.eng (Eng.pe n)).rdP pa.toNat) < 131072 ∧ (s.fetched (Eng.pe n) 1).synd = [] ∧ (d.kind = 1 ∨ d.kind = 4) ∧ d.points.length < 8 ∧ d.ctx.bind s.ctx? = some c)
    ∧ (∃ (n : Fin 16) (p : Pred) (pa : BitVec 4) (d : Disp) (s : State), s.runs (Eng.pe n) p 1 [80 + pa.toNat] ∧ (s.pe ↑n).work = some d ∧ BitVec.toNat ((s.eng (Eng.pe n)).rdP pa.toNat) % 32 = 0 ∧ 65536 ≤ BitVec.toNat ((s.eng (Eng.pe n)).rdP pa.toNat) ∧ BitVec.toNat ((s.eng (Eng.pe n)).rdP pa.toNat) < 131072 ∧ (s.fetched (Eng.pe n) 1).synd = [] ∧ (d.kind = 1 ∨ d.kind = 4) ∧ 8 ≤ d.points.length)
    ∧ (∃ (n : Fin 16) (p : Pred) (pa : BitVec 4) (d : Disp) (s : State) (c : Ctx) (q : Partial) (cand : Nat), s.runs (Eng.pe n) p 1 [80 + pa.toNat] ∧ (s.pe ↑n).work = some d ∧ BitVec.toNat ((s.eng (Eng.pe n)).rdP pa.toNat) % 32 = 0 ∧ 65536 ≤ BitVec.toNat ((s.eng (Eng.pe n)).rdP pa.toNat) ∧ BitVec.toNat ((s.eng (Eng.pe n)).rdP pa.toNat) < 131072 ∧ (s.fetched (Eng.pe n) 1).synd = [] ∧ d.kind = 2 ∧ d.ctx.bind s.ctx? = some c ∧ d.part = some q ∧ (s.eng (Eng.pe n)).doomed = false ∧ cand = field ((s.fetched (Eng.pe n) 1).bytes (peBase ↑n + BitVec.toNat ((s.eng (Eng.pe n)).rdP pa.toNat)) 32) 1 1 % 8 ∧ cand < field d.block 2 1 ∧ c.earlyDone.contains cand = false ∧ c.resolved = false ∧ ((List.filter (fun x => !x.resolved) s.pnt.outstanding).length < 16384))
    ∧ (∃ (n : Fin 16) (p : Pred) (pa : BitVec 4) (d : Disp) (s : State) (c : Ctx) (q : Partial) (cand : Nat), s.runs (Eng.pe n) p 1 [80 + pa.toNat] ∧ (s.pe ↑n).work = some d ∧ BitVec.toNat ((s.eng (Eng.pe n)).rdP pa.toNat) % 32 = 0 ∧ 65536 ≤ BitVec.toNat ((s.eng (Eng.pe n)).rdP pa.toNat) ∧ BitVec.toNat ((s.eng (Eng.pe n)).rdP pa.toNat) < 131072 ∧ (s.fetched (Eng.pe n) 1).synd = [] ∧ d.kind = 2 ∧ d.ctx.bind s.ctx? = some c ∧ d.part = some q ∧ (s.eng (Eng.pe n)).doomed = false ∧ cand = field ((s.fetched (Eng.pe n) 1).bytes (peBase ↑n + BitVec.toNat ((s.eng (Eng.pe n)).rdP pa.toNat)) 32) 1 1 % 8 ∧ (field d.block 2 1 ≤ cand ∨ c.earlyDone.contains cand = true ∨ c.resolved = true))
    ∧ (∃ (n : Fin 16) (p : Pred) (pa : BitVec 4) (d : Disp) (s : State), s.runs (Eng.pe n) p 1 [80 + pa.toNat] ∧ (s.pe ↑n).work = some d ∧ BitVec.toNat ((s.eng (Eng.pe n)).rdP pa.toNat) % 32 = 0 ∧ 65536 ≤ BitVec.toNat ((s.eng (Eng.pe n)).rdP pa.toNat) ∧ BitVec.toNat ((s.eng (Eng.pe n)).rdP pa.toNat) < 131072 ∧ (s.fetched (Eng.pe n) 1).synd = [] ∧ (d.kind = 3 ∨ d.kind = 5)) :=
  ⟨⟨2, pT, 3#4, disp 1 (some 4), emitting (disp 1 (some 4)), {ctx0 with nplaced := 40, state := .work}, by delta State.runs State.fetches; decide +kernel⟩,
    ⟨2, pT, 3#4, full8, emitting full8, by delta State.runs State.fetches; decide +kernel⟩,
    ⟨2, pT, 3#4, early0, emitting early0, {ctx0 with nplaced := 40, state := .work}, ⟨ctx0, [1], []⟩, 3, by delta State.runs State.fetches; decide +kernel⟩,
    ⟨2, pT, 3#4, early1, emitting early1, {ctx0 with nplaced := 40, state := .work}, ⟨ctx0, [1], []⟩, 3, by delta State.runs State.fetches; decide +kernel⟩,
    ⟨2, pT, 3#4, disp 3 none, emitting (disp 3 none), by delta State.runs State.fetches; decide +kernel⟩⟩

/-! ### Witnesses: emission -/

def m1s1 : State := withEmi up (fun e => {e with lastEdge := some 0})
def m1s3 : State := withEmi up (fun e => {e with lastEdge := some 0})
def m1s4 : State := withEmi up (fun e => {e with echoes := [5,9]})
def m1s5 : State := withEmi armed (fun e => {e with lastEdge := some 7, watch := true})
def m1s7 : State := withEmi armed (fun e => {e with pulses := [⟨3, 4, 60⟩]})
def m1s8 : State := withEmi armed (fun e => {e with resuming := true})
def cfgv (t b : Nat) : Word := BitVec.ofNat 32 (t * 2 ^ F.EMI_CFG_TFACT.lo + b * 2 ^ F.EMI_CFG_BLANK.lo)
def m1s11 : State := withEmi armed (fun e => {e with pulses := [⟨3, 4, 60⟩]})
def m1s12 : State := withEmi armed (fun e => {e with pulses := [⟨3, 4, 60⟩], rowWait := some (7, 9)})
def m1t : State := withEmi armed (fun e => {e with tokens := 0, tokenLog := [(0, true)]})
def rowq (m : Nat) : State := withEmi (withF armed [(F.EMI_CFG_MODE, m)]) (fun e => {e with tq := [⟨.row 5, 9, 3, 0, 0, false⟩], rowHigh := some 2, pulses := [⟨3, 16 * 9 + 4, 500⟩], rows := [⟨4, some 2, 5⟩]})
def rowp : State := withEmi (rowq 1) (fun e => {e with pulses := [⟨3, 16 * 9, 16 * 9 + 4⟩]})
def rowSame : State := withEmi (rowq 1) (fun e => {e with rows := [⟨4, some 5, 147⟩]})
def m1s13 : State := withEmi armed (fun e => {e with rowNext := some 5})
def m1s14 : State := withEmi armed (fun e => {e with blanking := true})
def chained : State := withF armed [(F.EMI_CHCFG_LEN, 2)]
def chImg : State := chained.setBytes 0x840704 [1,2,3,4]
def chHeld : State := withEmi chImg (fun e => {e with chainEdge := some 4})
def chRun (fact : Nat) : State := withEmi (withF chained [(F.EMI_CHCFG_FACT,fact)]) (fun e => {e with chainBusy := true, chainAt := some 1000, chainBuf := [0#32, 0x04030201#32]})
def edr1 : List (Nat × Nat) := (List.range 32).map fun k => (1000 + 640 * k, 1000 + 640 * k + if (chainBits [0x04030201#32])[k]?.getD false then 480 else 160)
def chPend : State := withEmi chained (fun e => {e with chainEdge := some 4, guard := true, chainPend := some [0#32, 5#32]})
def chGuard : State := withEmi (withF chained [(F.EMI_CHCFG_LGUARD, 1)]) (fun e => {e with chainEdge := some 4, chainPrev := some 1})
def derImg : State := withEmi chImg (fun e => {e with derImage := some 7})
def derHeld : State := withEmi derImg (fun e => {e with chainEdge := some 4})
def edge1 : State := result (exec (.permitEdge true 5) up)

theorem witness_Permit_0 :
    ∃ (s : State) (level : Bool) (t : Nat) (l : Nat), s.inReset = false ∧ s.is F.SYS_STAT_TBLOCK = true ∧ level ≠ s.emi.permit ∧ s.emi.lastEdge = some l ∧ l + 3200 ≤ t :=
  ⟨m1s1, true, 3200, 0, by decide +kernel⟩

theorem witness_Permit_1 :
    ∃ (s : State) (level : Bool), s.inReset = false ∧ s.is F.SYS_STAT_TBLOCK = true ∧ level ≠ s.emi.permit ∧ s.emi.lastEdge = none :=
  ⟨up, true, by decide +kernel⟩

theorem witness_Permit_2 :
    ∃ (s : State) (level : Bool) (t : Nat) (l : Nat), s.inReset = false ∧ s.is F.SYS_STAT_TBLOCK = true ∧ level ≠ s.emi.permit ∧ s.emi.lastEdge = some l ∧ t < l + 3200 :=
  ⟨m1s3, true, 3199, 0, by decide +kernel⟩

theorem witness_Permit_3 :
    ∃ (s : State) (t : Nat) (e : Nat) (es : List Nat), s.inReset = false ∧ s.is F.SYS_STAT_TBLOCK = true ∧ s.emi.echoes = e :: es ∧ e ≤ t + 1 :=
  ⟨m1s4, 4, 5, [9], by decide +kernel⟩

theorem witness_Permit_4 :
    ∃ (s : State) (t : Nat) (l : Nat), s.inReset = false ∧ s.is F.SYS_STAT_TBLOCK = true ∧ s.emi.lastEdge = some l ∧ s.emi.watch = true ∧ l + 16160 ≤ t :=
  ⟨m1s5, 16167, 7, by decide +kernel⟩

theorem witness_Arming_0 :
    ∃ (s : State) (src : Src), s.inReset = false ∧ s.hears src = true ∧ s.mayArm = true ∧ s.is F.EMI_STAT_ARMED = false :=
  ⟨armable, .host, by decide +kernel⟩

theorem witness_Arming_1 :
    ∃ (s : State) (src : Src), s.inReset = false ∧ s.hears src = true ∧ s.mayArm = false :=
  ⟨up, .host, by decide +kernel⟩

theorem witness_Arming_2 :
    ∃ (s : State) (src : Src), s.inReset = false ∧ s.hears src = true :=
  ⟨armed, .host, by decide +kernel⟩

theorem witness_Arming_3 :
    ∃ (s : State) (src : Src) (arm : Bool), s.inReset = false ∧ s.hears src = true ∧ s.is F.EMI_STAT_PERMOK = true ∧ s.is F.EMI_STAT_TFLT = false ∧ s.chainOk = true ∧ (arm = true → s.is F.SYS_STAT_TBLOCK = true ∧ s.tap.instr ≠ TapInstr.extest) :=
  ⟨withF armed [(F.EMI_STAT_PTRIP,1),(F.EMI_STAT_TFLATCH,1),(F.EMI_STAT_CHFLT,1)], .host, false, by decide +kernel⟩

theorem witness_Arming_4 :
    ∃ (s : State) (src : Src), s.inReset = false ∧ s.hears src = true ∧ (s.is F.EMI_STAT_PERMOK = false ∨ s.is F.EMI_STAT_TFLT = true ∨ s.chainOk = false) :=
  ⟨up, .host, by decide +kernel⟩

theorem witness_Inhibits_0 :
    ∃ (s : State), s.inReset = false ∧ s.emi.rowWait = none :=
  ⟨m1s7, by decide +kernel⟩

theorem witness_Inhibits_1 :
    ∃ (s : State), s.inReset = false ∧ s.is F.EMI_STAT_INH = true :=
  ⟨withF armed [(F.EMI_STAT_INH,1)], by decide +kernel⟩

theorem witness_Inhibits_2 :
    (∃ (s : State), s.inReset = false ∧ s.is F.EMI_STAT_TFLT = false ∧ s.get F.EMI_CFG_TFACT ≠ 2 ∧ (s.get F.EMI_CFG_TFACT = 1 ∨ s.get F.EMI_CFG_TFACT = 2))
    ∧ (∃ (s : State), s.inReset = false ∧ s.is F.EMI_STAT_TFLT = false ∧ s.get F.EMI_CFG_TFACT = 2 ∧ (s.get F.EMI_CFG_TFACT = 1 ∨ s.get F.EMI_CFG_TFACT = 2)) :=
  ⟨⟨armed, by decide +kernel⟩,
    ⟨withF armed [(F.EMI_CFG_TFACT,2)], by decide +kernel⟩⟩

theorem witness_Inhibits_3 :
    ∃ (s : State), s.inReset = false ∧ s.is F.EMI_STAT_TFLT = true ∧ s.get F.EMI_CFG_TFACT = 1 :=
  ⟨withF armed [(F.EMI_CFG_TFACT,1),(F.EMI_STAT_TFLT,1)], by decide +kernel⟩

theorem witness_Inhibits_4 :
    ∃ (s : State), s.inReset = false ∧ s.is F.EMI_STAT_TFLT = false ∧ s.is F.EMI_STAT_TFLATCH = false :=
  ⟨m1s8, by decide +kernel⟩

theorem witness_Inhibits_5 :
    (∃ (s : State) (src : Src) (v : Word), s.inReset = false ∧ s.hears src = true ∧ F.EMI_CFG_TFACT.of v ≠ 3 ∧ 4 ≤ F.EMI_CFG_BLANK.of v ∧ F.EMI_CFG_BLANK.of v ≤ 256 ∧ F.EMI_CFG_MODE.of v = s.get F.EMI_CFG_MODE ∧ F.EMI_CFG_TFACT.of v = 2 ∧ s.is F.EMI_STAT_TFLT = true)
    ∧ (∃ (s : State) (src : Src) (v : Word), s.inReset = false ∧ s.hears src = true ∧ F.EMI_CFG_TFACT.of v ≠ 3 ∧ 4 ≤ F.EMI_CFG_BLANK.of v ∧ F.EMI_CFG_BLANK.of v ≤ 256 ∧ F.EMI_CFG_MODE.of v = s.get F.EMI_CFG_MODE ∧ F.EMI_CFG_TFACT.of v = 1 ∧ s.is F.EMI_STAT_TFLT = true ∧ (F.EMI_CFG_TFACT.of v ≠ 2 ∨ s.is F.EMI_STAT_TFLT = false))
    ∧ (∃ (s : State) (src : Src) (v : Word), s.inReset = false ∧ s.hears src = true ∧ F.EMI_CFG_TFACT.of v ≠ 3 ∧ 4 ≤ F.EMI_CFG_BLANK.of v ∧ F.EMI_CFG_BLANK.of v ≤ 256 ∧ F.EMI_CFG_MODE.of v = s.get F.EMI_CFG_MODE ∧ F.EMI_CFG_TFACT.of v = 0 ∧ s.is F.EMI_STAT_TFLATCH = false ∧ (F.EMI_CFG_TFACT.of v ≠ 2 ∨ s.is F.EMI_STAT_TFLT = false)) :=
  ⟨⟨withF armed [(F.EMI_STAT_TFLT,1)], .host, cfgv 2 4, by decide +kernel⟩,
    ⟨withF armed [(F.EMI_STAT_TFLT,1)], .host, cfgv 1 256, by decide +kernel⟩,
    ⟨withF armed [(F.EMI_STAT_TFLT,1)], .host, cfgv 0 256, by decide +kernel⟩⟩

theorem witness_Inhibits_6 :
    ∃ (s : State) (src : Src) (v : Word), s.inReset = false ∧ s.hears src = true ∧ F.EMI_CFG_TFACT.of v = 3 :=
  ⟨armed, .host, cfgv 3 3, by decide +kernel⟩

theorem witness_PulsesAndRows_0 :
    ∃ (s : State) (n : Fin 64) (p : FirePulse), s.inReset = false ∧ s.emi.pulses = [p] ∧ p.output = ↑n ∧ s.emi.rowWait = none :=
  ⟨m1s11, 3, ⟨3, 4, 60⟩, by decide +kernel⟩

theorem witness_PulsesAndRows_1 :
    ∃ (s : State) (n : Fin 64) (p : FirePulse) (r : Nat) (t : Nat), s.inReset = false ∧ s.emi.pulses = [p] ∧ p.output = ↑n ∧ s.emi.rowWait = some (r, t) ∧ p.lead ≤ t ∧ t < p.trail :=
  ⟨m1s12, 3, ⟨3, 4, 60⟩, 7, 9, by decide +kernel⟩

theorem witness_PulsesAndRows_2 :
    ∃ (s : State) (tf : Nat), s.inReset = false ∧ (List.Pairwise (fun x y => x.fst ≤ y.fst) s.emi.tokenLog) ∧ (∀ (x : Nat × Bool), x ∈ s.emi.tokenLog → x.fst ≤ 16 * s.dt) ∧ 16 * s.dt ≤ tf :=
  ⟨m1t, 0, by decide +kernel⟩

theorem witness_PulsesAndRows_3 :
    ∃ (s : State) (r : Nat) (tc : Nat) (sub : Nat) (fr : Nat) (co : Nat) (e : Nat) (tf : Nat), s.inReset = false ∧ s.is F.SYS_STAT_TBLOCK = true ∧ s.emi.tq = [{ kind := TKind.row r, tc := tc, sub := sub, frame := fr, column := co }] ∧ s.matrix = true ∧ s.emi.rowWait = none ∧ (∀ (e : RowEv), e ∈ s.emi.rows.head? → e.row = some r → 16 * tc + sub < e.blankEnd) ∧ (∀ (p : FirePulse), p ∈ s.emi.pulses → ¬(p.lead ≤ 16 * tc + sub ∧ 16 * tc + sub < p.trail)) ∧ (∀ (x : Change), x ∈ s.emi.past → 16 * x.t < tf) ∧ 16 * tc + sub ≤ tf ∧ tf < 16 * tc + sub + 1280 * s.get F.EMI_CFG_BLANK :=
  ⟨rowq 1, 5, 9, 3, 0, 0, 0, 1000, by decide +kernel⟩

theorem witness_PulsesAndRows_4 :
    ∃ (s : State) (r : Nat) (tc : Nat) (sub : Nat) (fr : Nat) (co : Nat) (x : RowEv), s.inReset = false ∧ s.is F.SYS_STAT_TBLOCK = true ∧ s.emi.tq = [{ kind := TKind.row r, tc := tc, sub := sub, frame := fr, column := co }] ∧ s.matrix = true ∧ s.emi.rowWait = none ∧ s.emi.rows.head? = some x ∧ x.row = some r ∧ x.blankEnd ≤ 16 * tc + sub :=
  ⟨rowSame, 5, 9, 3, 0, 0, ⟨4, some 5, 147⟩, by decide +kernel⟩

theorem witness_PulsesAndRows_5 :
    ∃ (s : State) (r : Nat) (tc : Nat) (sub : Nat) (fr : Nat) (co : Nat) (p : FirePulse), s.inReset = false ∧ s.is F.SYS_STAT_TBLOCK = true ∧ s.emi.tq = [{ kind := TKind.row r, tc := tc, sub := sub, frame := fr, column := co }] ∧ s.matrix = true ∧ s.emi.rowWait = none ∧ (∀ (e : RowEv), e ∈ s.emi.rows.head? → e.row = some r → 16 * tc + sub < e.blankEnd) ∧ p ∈ s.emi.pulses ∧ p.lead ≤ 16 * tc + sub ∧ 16 * tc + sub < p.trail :=
  ⟨rowp, 5, 9, 3, 0, 0, ⟨3, 144, 148⟩, by decide +kernel⟩

theorem witness_PulsesAndRows_6 :
    ∃ (s : State) (r : Nat) (tc : Nat) (sub : Nat) (fr : Nat) (co : Nat), s.inReset = false ∧ s.is F.SYS_STAT_TBLOCK = true ∧ s.emi.tq = [{ kind := TKind.row r, tc := tc, sub := sub, frame := fr, column := co }] ∧ s.matrix = false :=
  ⟨rowq 0, 5, 9, 3, 0, 0, by decide +kernel⟩

theorem witness_PulsesAndRows_7 :
    ∃ (s : State) (r : Nat), s.inReset = false ∧ s.emi.rowNext = some r :=
  ⟨m1s13, 5, by decide +kernel⟩

theorem witness_PulsesAndRows_8 :
    ∃ (s : State), s.inReset = false :=
  ⟨m1s14, by decide +kernel⟩

theorem witness_DriverChain_0 :
    (∃ (s : State) (src : Src) (img : Fin 8) (t : Nat) (ws : List Word), s.inReset = false ∧ s.hears src = true ∧ s.is F.EMI_STAT_CHBUSY = false ∧ s.get F.EMI_CHCFG_LEN ≠ 0 ∧ s.chainImage ↑img = some ws ∧ (∀ (w : Nat), w ∈ wordsOf (8650752 + 256 * ↑img) (4 * s.get F.EMI_CHCFG_LEN) → s.errors w = 0#32) ∧ s.chainHeld t = false)
    ∧ (∃ (s : State) (src : Src) (img : Fin 8) (t : Nat) (ws : List Word), s.inReset = false ∧ s.hears src = true ∧ s.is F.EMI_STAT_CHBUSY = false ∧ s.get F.EMI_CHCFG_LEN ≠ 0 ∧ s.chainImage ↑img = some ws ∧ (∀ (w : Nat), w ∈ wordsOf (8650752 + 256 * ↑img) (4 * s.get F.EMI_CHCFG_LEN) → s.errors w = 0#32) ∧ s.chainHeld t = true) :=
  ⟨⟨chImg, .host, 7, 5, [0#32,0x04030201#32], by decide +kernel⟩,
    ⟨chHeld, .host, 7, 96003, [0#32,0x04030201#32], by decide +kernel⟩⟩

theorem witness_DriverChain_1 :
    ∃ (s : State) (src : Src), s.inReset = false ∧ s.hears src = true ∧ (s.is F.EMI_STAT_CHBUSY = true ∨ s.get F.EMI_CHCFG_LEN = 0) :=
  ⟨withF chained [(F.EMI_STAT_CHBUSY,1)], .host, by decide +kernel⟩

theorem witness_DriverChain_2 :
    ∃ (s : State) (t0 : Nat) (k : Nat) (d : Nat) (b : Bool), s.emi.chainAt = some t0 ∧ (chainBits s.emi.chainBuf)[k]? = some b ∧ d < 640 :=
  ⟨chRun 1, 1000, 63, 479, true, by decide +kernel⟩

theorem witness_DriverChain_3 :
    ∃ (s : State) (t0 : Nat) (t : Nat), s.emi.chainAt = some t0 ∧ (t < t0 ∨ t0 + 20480 * s.emi.chainBuf.length ≤ t) :=
  ⟨chRun 1, 1000, 999, by decide +kernel⟩

theorem witness_DriverChain_4 :
    (∃ (s : State) (edr : List (Nat × Nat)) (rx : List Bool) (r : Nat), s.inReset = false ∧ s.emi.chainBusy = true ∧ rx = s.edrBits edr ∧ (r = if rx.length = 0 then 5 else if rx.length < 32 then 3 else if 32 < rx.length then 4 else if rx = chainBits [s.emi.chainBuf.getLastD 0#32] then 1 else 2) ∧ (r = 1 ∨ s.is F.EMI_CHCFG_FACT = false))
    ∧ (∃ (s : State) (edr : List (Nat × Nat)) (rx : List Bool) (r : Nat), s.inReset = false ∧ s.emi.chainBusy = true ∧ rx = s.edrBits edr ∧ (r = if rx.length = 0 then 5 else if rx.length < 32 then 3 else if 32 < rx.length then 4 else if rx = chainBits [s.emi.chainBuf.getLastD 0#32] then 1 else 2) ∧ r ≠ 1 ∧ s.is F.EMI_CHCFG_FACT = true) :=
  ⟨⟨chRun 1, edr1, chainBits [0x04030201#32], 1, by decide +kernel⟩,
    ⟨chRun 1, [], [], 5, by decide +kernel⟩⟩

theorem witness_DriverChain_5 :
    ∃ (s : State) (edr : List (Nat × Nat)), (∀ (p : Nat × Nat), p ∈ edr → s.emi.chainAt.getD 0 ≤ p.fst ∧ p.fst ≤ s.edrEnd) :=
  ⟨chRun 1, [(1000, 1320), (2000, 2321)], by decide +kernel⟩

theorem witness_DriverChain_6 :
    ∃ (s : State) (e : Nat), s.inReset = false ∧ s.emi.chainEdge = some e :=
  ⟨chHeld, 4, by decide +kernel⟩

theorem witness_DriverChain_7 :
    ∃ (s : State) (e : Nat), s.inReset = false ∧ s.emi.chainEdge = some e ∧ s.emi.chainPend = none :=
  ⟨chHeld, 4, by decide +kernel⟩

theorem witness_DriverChain_8 :
    ∃ (s : State) (e : Nat) (ws : List Word), s.inReset = false ∧ s.emi.chainEdge = some e ∧ s.emi.chainPend = some ws ∧ s.emi.chainBusy = false :=
  ⟨chPend, 4, [0#32, 5#32], by decide +kernel⟩

theorem witness_DriverChain_9 :
    ∃ (s : State) (tf : Nat) (edge : Nat), (s.emi.chainEdge = some edge ∨ s.emi.chainPrev = some edge) ∧ s.isAt F.EMI_CHCFG_LGUARD tf = true ∧ 16 * (edge + 72000) ≤ tf ∧ tf < 16 * (edge + 96000) :=
  ⟨chGuard, 16 * 96004 - 1, 4, by decide +kernel⟩

theorem witness_Derating_0 :
    ∃ (s : State) (t : Nat) (img : Nat) (ws : List Word), s.inReset = false ∧ s.emi.derImage = some img ∧ s.emi.chainBusy = false ∧ s.emi.chainPend = none ∧ s.chainHeld t = false ∧ s.get F.EMI_CHCFG_LEN ≠ 0 ∧ s.chainImage img = some ws ∧ (∀ (w : Nat), w ∈ wordsOf (8650752 + 256 * img) (4 * s.get F.EMI_CHCFG_LEN) → s.errors w = 0#32) :=
  ⟨derImg, 4, 7, [0#32,0x04030201#32], by decide +kernel⟩

theorem witness_Derating_1 :
    ∃ (s : State) (t : Nat) (img : Nat), s.inReset = false ∧ s.emi.derImage = some img ∧ (s.emi.chainBusy = true ∨ s.emi.chainPend.isSome = true ∨ s.chainHeld t = true) :=
  ⟨derHeld, 96003, 7, by decide +kernel⟩

theorem witness_Derating_2 :
    ∃ (s : State) (t : Nat) (img : Nat), s.inReset = false ∧ s.emi.derImage = some img ∧ s.emi.chainBusy = false ∧ s.emi.chainPend = none ∧ s.chainHeld t = false ∧ s.get F.EMI_CHCFG_LEN = 0 :=
  ⟨derImg.put F.EMI_CHCFG_LEN 0, 4, 7, by decide +kernel⟩

theorem witness_Derating_3 :
    ∃ (s : State) (src : Src) (v : Word), s.inReset = false ∧ s.hears src = true ∧ s.is F.EMI_DRCFG_EN = false ∧ s.derateOk = true ∧ (∀ (w : Nat), w ∈ wordsOf 8652800 32 ++ wordsOf 8652832 (16 * (s.derateCount - 1)) → s.errors w = 0#32) ∧ s.is (ownFld (F.EMI_DRCFG_CONV.of v) (F.EMI_DRCFG_INPUT.of v)) = false :=
  ⟨armed.setBytes 0x840800 [1], .host, 0#32, by decide +kernel⟩

theorem witness_Derating_4 :
    ∃ (s : State) (src : Src) (v : Word), s.inReset = false ∧ s.hears src = true ∧ s.is F.EMI_DRCFG_EN = false ∧ (s.derateOk = false ∨ s.is (ownFld (F.EMI_DRCFG_CONV.of v) (F.EMI_DRCFG_INPUT.of v)) = true) ∧ (∀ (w : Nat), w ∈ wordsOf 8652800 32 ++ wordsOf 8652832 (16 * (s.derateCount - 1)) → s.errors w = 0#32) :=
  ⟨armed, .host, 0#32, by decide +kernel⟩

theorem witness_Derating_5 :
    ∃ (s : State), (∀ (w : Nat), w ∈ wordsOf 8652800 32 ++ wordsOf 8652832 (16 * (s.derateCount - 1)) → s.errors w = 0#32) :=
  ⟨armed, by decide +kernel⟩

theorem witness_PermitOkAfterTwoEdges :
    ∃ (s : State) (u : State) (v : State) (a : Bool) (b : Bool) (t1 : Nat) (t2 : Nat), s.is F.SYS_STAT_TBLOCK = true ∧ s.inReset = false ∧ (s.emi.lastEdge = none ∨ ∃ l, s.emi.lastEdge = some l ∧ l + 3200 ≤ t1) ∧ a ≠ s.emi.permit ∧ b ≠ a ∧ t1 + 3200 ≤ t2 ∧ t2 ≤ t1 + 16000 ∧ exec (Instr.permitEdge a t1) s = Host.Outcome.next u ∧ exec (Instr.permitEdge b t2) u = Host.Outcome.next v :=
  ⟨up, edge1, result (exec (.permitEdge false 16005) edge1), true, false, 5, 16005, by decide +kernel, by decide +kernel, .inl rfl, by decide +kernel, by decide +kernel, by decide +kernel, by decide +kernel, rfl, rfl⟩

/-! ### Witnesses: timed queue -/

def q_q1 (k : TKind) (s : State) : State := withEmi s fun e => { e with tq := [tcmd k] }
def en (s : State) : State := withF s [(F.EMI_FOUT_EN 3, 1), (F.EMI_FOUT_WIDTH 3, 5), (F.EMI_FOUT_TRIM 3, 0xFF)]
def fires : State := q_q1 (.fire 8 0 none) (en armed)
def firec : State := q_q1 (.fire 8 0 (some (-3))) (en armed)
def firesOff : State := q_q1 (.fire 8 0 none) ((en armed).put (F.EMI_FOUT_EN 3) 0)
def firesStcs : State := withRet fires fun r => { r with stcsNext := some 0 }
def qrow : State := q_q1 (.row 3) armed
def qmark : State := q_q1 (.mark true) armed
def qctxo : State := q_q1 (.ctxo 3 1) (mapped armed 0 3)
def qctxc : State := q_q1 (.ctxc 2) (withCtx armed [ctx0])
def qpar : State := q_q1 (.parity (.row 3)) armed
def stalled (k : TKind) (pend : Nat) : State := let s := (onFsq id).put F.SEQ_BANK_FPENDV pend; s.setFsq {s.seq.fsq with stall := some ⟨k, 31, 2⟩, tc := 6, sub := 3}
def qframe : State := q_q1 (.mark false) armed
def qframe1 : State := q_q1 (.mark false) (withF armed [(F.DEC_STAT_PEND,1),(F.DEC_STAT_PSET,1),(F.SEQ_BANK_PPENDV,1),(F.SEQ_BANK_PPEND,1)])
def qmap7 : State := q_q1 (.map 7) armed
def qctxo2 : State := q_q1 (.ctxo 3 2) (mapped armed 0 3)
def qctxoS : State := qctxo2.put F.CTX_STAT_QSKIP 1
def qctxoN : State := q_q1 (.ctxo 3 2) armed
def qctxo64 : State := q_q1 (.ctxo 64 2) armed
def late (s : State) : State := { s with dt := 2000 }

theorem witness_FireSlots_0 :
    (∃ (s : State) (n : Nat) (row : Nat) (tc : Nat) (sub : Nat) (fr : Nat) (co : Nat) (code : Option Int), s.inReset = false ∧ s.is F.SYS_STAT_TBLOCK = true ∧ n < 64 ∧ s.emi.tq = [{ kind := TKind.fire (2 ^ n) row code, tc := tc, sub := sub, frame := fr, column := co }] ∧ s.emi.codeMarks = [] ∧ s.emi.rowWait = none ∧ (∀ (c : Ctx), c ∈ s.pool.ctxs → c.state ≠ CtxState.reacq) ∧ (∀ (g : Gate), g ∈ s.ret.gates → g.cut = false) ∧ (∀ (w : Nat), w ∈ wordsOf (10813472 + 8 * n) 5 ++ wordsOf (mapBase s.mapNow (s.emitterOf row n)) 128 → s.errors w = 0#32) ∧ ((s.setQ []).at tc).skipReason n (s.emitterOf row n) row (↑(16 * tc + sub) + 16 * s.dither (s.emi.codeK.nat (s.emitterOf row n)) code + sint 8 (s.get (F.EMI_FOUT_TRIM n))).toNat ≠ 0)
    ∧ (∃ (s : State) (n : Nat) (row : Nat) (tc : Nat) (sub : Nat) (fr : Nat) (co : Nat) (code : Option Int), s.inReset = false ∧ s.is F.SYS_STAT_TBLOCK = true ∧ n < 64 ∧ s.emi.tq = [{ kind := TKind.fire (2 ^ n) row code, tc := tc, sub := sub, frame := fr, column := co }] ∧ s.emi.codeMarks = [] ∧ s.emi.rowWait = none ∧ (∀ (c : Ctx), c ∈ s.pool.ctxs → c.state ≠ CtxState.reacq) ∧ (∀ (g : Gate), g ∈ s.ret.gates → g.cut = false) ∧ (∀ (w : Nat), w ∈ wordsOf (10813472 + 8 * n) 5 ++ wordsOf (mapBase s.mapNow (s.emitterOf row n)) 128 → s.errors w = 0#32) ∧ ((s.setQ []).at tc).skipReason n (s.emitterOf row n) row (↑(16 * tc + sub) + 16 * s.dither (s.emi.codeK.nat (s.emitterOf row n)) code + sint 8 (s.get (F.EMI_FOUT_TRIM n))).toNat = 0 ∧ s.emi.tokenLog = [])
    ∧ (∃ (s : State) (n : Nat) (row : Nat) (tc : Nat) (sub : Nat) (fr : Nat) (co : Nat) (code : Option Int), s.inReset = false ∧ s.is F.SYS_STAT_TBLOCK = true ∧ n < 64 ∧ s.emi.tq = [{ kind := TKind.fire (2 ^ n) row code, tc := tc, sub := sub, frame := fr, column := co }] ∧ s.emi.codeMarks = [] ∧ s.emi.rowWait = none ∧ (∀ (c : Ctx), c ∈ s.pool.ctxs → c.state ≠ CtxState.reacq) ∧ (∀ (g : Gate), g ∈ s.ret.gates → g.cut = false) ∧ (∀ (w : Nat), w ∈ wordsOf (10813472 + 8 * n) 5 ++ wordsOf (mapBase s.mapNow (s.emitterOf row n)) 128 → s.errors w = 0#32) ∧ ((s.setQ []).at tc).skipReason n (s.emitterOf row n) row (↑(16 * tc + sub) + 16 * s.dither (s.emi.codeK.nat (s.emitterOf row n)) code + sint 8 (s.get (F.EMI_FOUT_TRIM n))).toNat = 0 ∧ s.emi.tokenLog = [] ∧ s.ret.stcsNext = some (s.get (F.EMI_FOUT_STC n))) :=
  ⟨⟨firesOff, 3, 0, 2000, 5, 1, 2, none, by decide +kernel⟩,
    ⟨fires, 3, 0, 2000, 5, 1, 2, none, by decide +kernel⟩,
    ⟨firesStcs, 3, 0, 2000, 5, 1, 2, none, by decide +kernel⟩⟩

theorem witness_FireSlots_1 :
    ∃ (r : Nat), r ≠ 0 :=
  ⟨1, by decide +kernel⟩

theorem witness_LateCommands_0 :
    ∃ (s : State) (i : Nat) (t : Nat) (c : TCmd), s.inReset = false ∧ s.is F.SYS_STAT_TBLOCK = true ∧ s.emi.tq[i]? = some c ∧ ((∃ r, c.kind = TKind.row r) ∨ (∃ m, c.kind = TKind.map m) ∨ (∃ b, c.kind = TKind.mark b) ∨ ∃ a v, c.kind = TKind.setpt a v) ∧ (c.late = true ∨ c.tc < t + 64) :=
  ⟨qrow, 0, 1937, tcmd (.row 3), ⟨by decide +kernel, by decide +kernel, by decide +kernel, .inl ⟨3, rfl⟩, by decide⟩⟩

theorem witness_LateCommands_1 :
    ∃ (s : State) (i : Nat) (t : Nat) (c : TCmd), s.inReset = false ∧ s.is F.SYS_STAT_TBLOCK = true ∧ s.emi.tq[i]? = some c ∧ c.late = false ∧ t + 64 ≤ s.lateAt c ∧ (∀ (k : TKind), c.kind ≠ k.parity) :=
  ⟨qrow, 0, 1936, tcmd (.row 3), by decide +kernel, by decide +kernel, by decide +kernel, by decide +kernel, by decide +kernel, fun _ => nofun⟩

theorem witness_LateCommands_2 :
    ∃ (s : State) (i : Nat) (t : Nat) (n : Nat) (row : Nat) (tc : Nat) (sub : Nat) (fr : Nat) (co : Nat) (code : Option Int) (late : Bool), s.inReset = false ∧ s.is F.SYS_STAT_TBLOCK = true ∧ n < 64 ∧ s.emi.tq[i]? = some { kind := TKind.fire (2 ^ n) row code, tc := tc, sub := sub, frame := fr, column := co, late := late } ∧ (late = true ∨ tc - (s.get F.EMI_CFG_AMP + 8) < t + 64) ∧ (∀ (g : Gate), g ∈ s.ret.gates → g.cut = false) ∧ (∀ (w : Nat), s.errors w = 0#32) :=
  ⟨firec, 0, 1929, 3, 0, 2000, 5, 1, 2, some (-3), false, by decide +kernel, by decide +kernel, by decide +kernel, by decide +kernel, by decide +kernel, by decide +kernel, fun _ => rfl⟩

theorem witness_LateCommands_3 :
    ∃ (s : State) (i : Nat) (t : Nat) (e : Nat) (nshot : Nat) (tc : Nat) (sub : Nat) (fr : Nat) (co : Nat) (late : Bool), s.inReset = false ∧ s.is F.SYS_STAT_TBLOCK = true ∧ s.emi.tq[i]? = some { kind := TKind.ctxo e nshot, tc := tc, sub := sub, frame := fr, column := co, late := late } ∧ (late = true ∨ tc < t + 64) ∧ (∀ (w : Nat), s.errors w = 0#32) :=
  ⟨qctxo, 0, 1937, 3, 1, 2000, 5, 1, 2, false, by decide +kernel, by decide +kernel, by decide +kernel, by decide +kernel, fun _ => rfl⟩

theorem witness_LateCommands_4 :
    ∃ (s : State) (i : Nat) (t : Nat) (tc : Nat) (sub : Nat) (fr : Nat) (co : Nat) (late : Bool) (k : TKind) (c : Ctx), s.inReset = false ∧ s.is F.SYS_STAT_TBLOCK = true ∧ s.emi.tq[i]? = some { kind := k, tc := tc, sub := sub, frame := fr, column := co, late := late } ∧ (late = true ∨ tc < t + 64) ∧ (k = TKind.ctxc c.emitter ∨ ∃ n row len ch m, n < 64 ∧ k = TKind.gate (2 ^ n) row len ∧ s.emitterOf row n = c.emitter ∧ ch ∈ c.chans ∧ m = (s.setQ (s.emi.tq.eraseIdx i)).mapAt (16 * tc + sub) i ∧ ch ∈ s.channelsOf m c.emitter) ∧ s.pool.ctxs = [c] ∧ c.live = true ∧ c.closing = false ∧ s.shotInProgress c.id = false ∧ s.lossPending c = false ∧ (∀ (w : Nat), s.errors w = 0#32) :=
  ⟨qctxc, 0, 1937, 2000, 5, 1, 2, false, .ctxc 2, ctx0, by decide +kernel, by decide +kernel, by decide +kernel, by decide +kernel, .inl rfl, by decide +kernel, by decide +kernel, by decide +kernel, by decide +kernel, by decide +kernel, fun _ => rfl⟩

theorem witness_LateCommands_5 :
    ∃ (s : State) (i : Nat) (r : Nat) (tc : Nat) (sub : Nat) (fr : Nat) (co : Nat) (late : Bool), s.inReset = false ∧ s.is F.SYS_STAT_TBLOCK = true ∧ s.emi.tq[i]? = some { kind := (TKind.row r).parity, tc := tc, sub := sub, frame := fr, column := co, late := late } :=
  ⟨qpar, 0, 3, 2000, 5, 1, 2, false, by decide +kernel⟩

theorem witness_LateCommands_6 :
    ∃ (s : State) (x : Stall), s.inReset = false ∧ s.seq.fsq.stall = some x ∧ s.emi.tq.length < 512 ∧ s.seq.fsq.stopping = false :=
  ⟨stalled (.ctxc 3) 0, ⟨.ctxc 3, 31, 2⟩, by decide +kernel⟩

theorem witness_LateCommands_7 :
    ∃ (s : State), s.inReset = false ∧ (s.seq.fsq.stall = none ∨ 512 ≤ s.emi.tq.length) :=
  ⟨up, by decide +kernel⟩

theorem witness_QueuedCommands_0 :
    ∃ (s : State) (tc : Nat) (sub : Nat) (fr : Nat) (co : Nat), s.inReset = false ∧ s.is F.SYS_STAT_TBLOCK = true ∧ s.emi.tq = [{ kind := TKind.mark true, tc := tc, sub := sub, frame := fr, column := co }] :=
  ⟨qmark, 2000, 5, 1, 2, by decide +kernel⟩

theorem witness_QueuedCommands_1 :
    (∃ (s : State) (tc : Nat) (sub : Nat) (fr : Nat) (co : Nat), s.inReset = false ∧ s.is F.SYS_STAT_TBLOCK = true ∧ s.emi.tq = [{ kind := TKind.mark false, tc := tc, sub := sub, frame := fr, column := co }] ∧ s.is F.PNT_ZSEL_PEND = false ∧ s.is F.DEC_STAT_PEND = false ∧ s.is F.SEQ_BANK_PPENDV = false)
    ∧ (∃ (s : State) (tc : Nat) (sub : Nat) (fr : Nat) (co : Nat), s.inReset = false ∧ s.is F.SYS_STAT_TBLOCK = true ∧ s.emi.tq = [{ kind := TKind.mark false, tc := tc, sub := sub, frame := fr, column := co }] ∧ s.is F.PNT_ZSEL_PEND = false ∧ s.is F.DEC_STAT_PEND = true ∧ s.is F.SEQ_BANK_PPENDV = true) :=
  ⟨⟨qframe, 2000, 5, 1, 2, by decide +kernel⟩,
    ⟨qframe1, 2000, 5, 1, 2, by decide +kernel⟩⟩

theorem witness_QueuedCommands_2 :
    ∃ (s : State) (m : Nat) (tc : Nat) (sub : Nat) (fr : Nat) (co : Nat), s.inReset = false ∧ s.is F.SYS_STAT_TBLOCK = true ∧ m < 8 ∧ s.emi.tq = [{ kind := TKind.map m, tc := tc, sub := sub, frame := fr, column := co }] :=
  ⟨qmap7, 7, 2000, 5, 1, 2, by decide +kernel⟩

theorem witness_QueuedCommands_3 :
    ∃ (s : State) (e : Nat) (nshot : Nat) (tc : Nat) (sub : Nat) (fr : Nat) (co : Nat) (slot : Nat) (x : MapEntry) (chs : List Nat), s.inReset = false ∧ s.is F.SYS_STAT_TBLOCK = true ∧ s.emi.tq = [{ kind := TKind.ctxo e nshot, tc := tc, sub := sub, frame := fr, column := co }] ∧ nshot ≠ 0 ∧ (s.matrix = true ∨ e ≤ 63) ∧ s.is F.CTX_STAT_QSKIP = false ∧ (∀ (w : Nat), w ∈ wordsOf (mapBase s.mapNow e) 128 → s.errors w = 0#32) ∧ s.mapEntry s.mapNow e = some x ∧ x.blocks = [chs] ∧ s.openOf e = [] ∧ s.hasPosition chs = true ∧ s.freeSlot = some slot ∧ (∀ (d : Ctx), d ∈ s.pool.ctxs → d.id < s.pool.seq) :=
  ⟨qctxo2, 3, 2, 2000, 5, 1, 2, 0, mapX, [5], by decide +kernel⟩

theorem witness_QueuedCommands_4 :
    ∃ (s : State) (e : Nat) (nshot : Nat) (tc : Nat) (sub : Nat) (fr : Nat) (co : Nat) (x : MapEntry), s.inReset = false ∧ s.is F.SYS_STAT_TBLOCK = true ∧ s.emi.tq = [{ kind := TKind.ctxo e nshot, tc := tc, sub := sub, frame := fr, column := co }] ∧ nshot ≠ 0 ∧ (s.matrix = true ∨ e ≤ 63) ∧ s.is F.CTX_STAT_QSKIP = true ∧ (∀ (w : Nat), w ∈ wordsOf (mapBase s.mapNow e) 128 → s.errors w = 0#32) ∧ s.mapEntry s.mapNow e = some x :=
  ⟨qctxoS, 3, 2, 2000, 5, 1, 2, mapX, by decide +kernel⟩

theorem witness_QueuedCommands_5 :
    (∃ (s : State) (e : Nat) (nshot : Nat) (tc : Nat) (sub : Nat) (fr : Nat) (co : Nat), s.inReset = false ∧ s.is F.SYS_STAT_TBLOCK = true ∧ s.emi.tq = [{ kind := TKind.ctxo e nshot, tc := tc, sub := sub, frame := fr, column := co }] ∧ nshot ≠ 0 ∧ (s.matrix = true ∨ e ≤ 63) ∧ (∀ (w : Nat), w ∈ wordsOf (mapBase s.mapNow e) 128 → s.errors w = 0#32) ∧ s.mapEntry s.mapNow e = none ∧ s.is F.CTX_STAT_QSKIP = false)
    ∧ (∃ (s : State) (e : Nat) (nshot : Nat) (tc : Nat) (sub : Nat) (fr : Nat) (co : Nat), s.inReset = false ∧ s.is F.SYS_STAT_TBLOCK = true ∧ s.emi.tq = [{ kind := TKind.ctxo e nshot, tc := tc, sub := sub, frame := fr, column := co }] ∧ nshot ≠ 0 ∧ (s.matrix = true ∨ e ≤ 63) ∧ (∀ (w : Nat), w ∈ wordsOf (mapBase s.mapNow e) 128 → s.errors w = 0#32) ∧ s.mapEntry s.mapNow e = none ∧ s.is F.CTX_STAT_QSKIP = true) :=
  ⟨⟨qctxoN, 3, 2, 2000, 5, 1, 2, by decide +kernel⟩,
    ⟨qctxoN.put F.CTX_STAT_QSKIP 1, 3, 2, 2000, 5, 1, 2, by decide +kernel⟩⟩

theorem witness_QueuedCommands_6 :
    ∃ (s : State) (nshot : Nat) (e : Nat) (tc : Nat) (sub : Nat) (fr : Nat) (co : Nat), s.inReset = false ∧ s.is F.SYS_STAT_TBLOCK = true ∧ s.emi.tq = [{ kind := TKind.ctxo e nshot, tc := tc, sub := sub, frame := fr, column := co }] ∧ (nshot = 0 ∨ s.matrix = false ∧ 63 < e) :=
  ⟨qctxo64, 2, 64, 2000, 5, 1, 2, by decide +kernel⟩

theorem witness_QueuedCommands_7 :
    ∃ (s : State) (e : Nat) (tc : Nat) (sub : Nat) (fr : Nat) (co : Nat) (c : Ctx), s.inReset = false ∧ s.is F.SYS_STAT_TBLOCK = true ∧ s.emi.tq = [{ kind := TKind.ctxc e, tc := tc, sub := sub, frame := fr, column := co }] ∧ s.pool.ctxs = [c] ∧ c.live = true ∧ c.emitter = e ∧ c.closing = false ∧ s.shotInProgress c.id = false ∧ s.lossPending c = false :=
  ⟨qctxc, 2, 2000, 5, 1, 2, ctx0, by decide +kernel⟩

/-! ### Witnesses: return path, contexts and calibration -/

def pls : Pulse := ⟨100, 3, true, false, false, true, ⟨0, true, false, false, false, 0⟩⟩
def pIn : State := (pulsed listening 5 pls).put (F.RET_CFG_SLOPE 5) 1
def plo : Pulse := {pls with stamp := {pls.stamp with fine := false}}
def pOut : State := (pulsed listening 5 plo).put (F.RET_CFG_SLOPE 5) 1
def st0 : State := withF between [(F.RGP_STCFG_EN 0, 1)]
def xs : StartX := ⟨0, 1000, 1024000, 9, false⟩
def st1 : State := withRet st0 fun r => {r with starts := [xs], shots := [shot0]}
def fail (i : Nat) (s : State) : State := withRet s fun r => {r with checks := [(i, 15)]}
def spv (o : Nat) (sv hb : Bool) (s : State) : State := withRet (withF s [(F.RGP_SPC_OWNER 0, o), (F.RGP_SPC_TARGET 0, 5)]) fun r => {r with spares := r.spares.set 0 ⟨100, sv, hb⟩, spans := [5]}
def trimDone : State := withCal (spv 1 true true between) fun c => { c with trimming := [⟨5, 0, 0, true, true, []⟩] }
def th (s : State) : State := s.put (F.RET_CFG_TAUTO 5) 0
def startOut : State := withF (withRet between (fun r => {r with startDll := false})) [(F.RGP_STCFG_EN 0, 1)]
def qg (k : TKind) (s : State) : State := withEmi s fun e => { e with tq := [tcmd k] }
def gateQ : State := qg (.gate 8 0 50) (mapped up 0 3)
def gateShot : Shot := {shot0 with emitter := 3, t := 16 * 2050 - 1}
def gateS : State := withRet gateQ fun r => { r with shots := [gateShot] }
def und : Ev := {ev0 with passed := false}
def undQ : State := queued up 0 [.ev und]
def und2 : Ev := {und with stamp := {und.stamp with coin := 0x21}}
def strt : Start := ⟨1024000, false, false, 0⟩
def shx : Shot := {shot0 with start := some strt, members := [4], chans := [5]}
def onHist (e : Ev) (c : Ctx) : State := withCtx (shotsOn (queued (up.put F.FLE_SUS_EN 0) 0 [.ev e]) [shx] true) [c]
def hist : State := onHist ev0 ctx0
def zoomC : Ctx := {ctx0 with state := .zoom, placedAt := some 900, nplaced := 1, wstart := [1880]}
def farC : Ctx := {ctx0 with nbin := 7}
def evPrec : Ev := {ev0 with c := 999, stamp := {ev0.stamp with pos := 1008}}
def lossQ : State := withCtx (shotsOn (queued up 0 [.loss 5 900 1100, .ev ev0]) [shx] true) [ctx0]
def c9 : Ctx := {ctx0 with nshot := 9, nwin := 0}
def cK : Ctx := {ctx0 with nshot := 9, k := 1}
def skipped : Shot := {shx with fired := false}
def cPl : Ctx := {ctx0 with placing := true, planned := [3]}
def rq : Ctx := {ctx0 with state := .reacq, replay := [⟨true, 0, [], [], none⟩], reacqAt := 5}
def candBad : State := withCal (cand 512 9969) (fun c => {c with taps := [(64*512, 640000)]})
def swp (w : Sweep) : State := withCal (withF between [(F.RET_THR_HCODE 5, 100), (F.CAL_THR_SSTEP, 4)]) fun c => {c with sweeps := [(5, some w)]}
def swDone : Sweep := ⟨20, 3, 1000, 4, [(4, 1000), (8, 800), (12, 300), (16, 40)]⟩
def rated : State := withCal (withF between [(F.RET_CFG_TAUTO 5, 0), (F.FLT_CFG_STUCK, 0)]) (fun c => {c with rate := [(5, 20000000)]})
def servoed : State := withCal ((withF (between.setBytes (recBase 5 + 16) [2]) [(F.RET_CFG_TAUTO 5, 1), (F.FLT_CFG_STUCK, 0), (F.RET_THR_LCODE 5, 40)]).setBytes (recBase 5 + 432) [0, 2, 0, 0, 100]) (fun c => {c with rate := [(5, 7)], cross := [(5, 90)]})
def trm : State := withCal (withF between [(F.RGP_SPC_READY 0, 1), (F.RET_STAT_CALST 5, 1), (F.RET_RATE_COUNT 5, 16384)]) fun c => {c with trims := [5]}
def r532 (s : State) : State := s.setBytes (recBase 532 + 16) [1]
def stq : State := withCal (r532 between) fun c => {c with queue := [531, 512]}
def stc (c : StCal) : State := withCal (r532 trm) fun x => {x with stcal := some c}
def trimC (tot : Nat) (serv : Bool) : State := withRet (withCal up (fun x => {x with trimming := [⟨5, 0, 2, false, false, [1, -2]⟩], total := [(5, tot)], taps := [(320, 9000), (321, 2500)]})) fun r => { r with spares := r.spares.set 0 ⟨0, serv, false⟩ }
def pls8 : Pulse := ⟨100, 3, true, false, false, true, ⟨0, true, false, false, false, 0⟩⟩
def fullGroup : State := queued ((pulsed listening 5 pls8).put (F.RET_CFG_SLOPE 5) 1) 0 (List.replicate 8192 (.ev {ev0 with chan := 6, passed := false}))
def gate7 : Gate := ⟨7, 5, 2, 0, 5000, none, false, false, 0⟩
def trmQ : State := withCal trm fun x => {x with queue := [530, 531]}

theorem witness_ReturnWords_0 :
    (∃ (s : State) (ch : Fin 512) (via : Via) (t : Nat) (f : Fin 64) (ok : Bool) (j : Nat), s.inReset = false ∧ s.stamps (↑ch) via = true ∧ s.slope ↑ch ≠ 2 ∧ (s.path (viaNum (↑ch) via)).dead (64 * t + ↑f) = false ∧ (∀ (w : Nat), s.errors w = 0#32) ∧ j ≠ viaNum (↑ch) via ∧ ok = true)
    ∧ (∃ (s : State) (ch : Fin 512) (via : Via) (t : Nat) (f : Fin 64) (ok : Bool) (j : Nat), s.inReset = false ∧ s.stamps (↑ch) via = true ∧ s.slope ↑ch ≠ 2 ∧ (s.path (viaNum (↑ch) via)).dead (64 * t + ↑f) = false ∧ (∀ (w : Nat), s.errors w = 0#32) ∧ j ≠ viaNum (↑ch) via ∧ ok = false) :=
  ⟨⟨listening, 5, .own, 100, 63, true, 0, by decide +kernel, by decide +kernel, by decide +kernel, by decide +kernel, fun _ => rfl, by decide +kernel⟩,
    ⟨pulsed listening 5 pls, 5, .own, 104, 3, false, 0, by decide +kernel, by decide +kernel, by decide +kernel, by decide +kernel, fun _ => rfl, by decide +kernel⟩⟩

theorem witness_ReturnWords_1 :
    ∃ (s : State) (ch : Fin 512) (via : Via) (t : Nat) (f : Fin 64), s.inReset = false ∧ s.stamps (↑ch) via = true ∧ s.slope ↑ch ≠ 2 ∧ (s.path (viaNum (↑ch) via)).dead (64 * t + ↑f) = true ∧ s.carries (↑ch) via = true :=
  ⟨pulsed listening 5 pls, 5, .own, 104, 2, by decide +kernel⟩

theorem witness_ReturnWords_2 :
    (∃ (s : State) (ch : Fin 512) (via : Via) (p : Pulse), s.inReset = false ∧ s.stamps (↑ch) via = true ∧ s.slope ↑ch = 1 ∧ (s.path (viaNum (↑ch) via)).pulse = some p ∧ p.due = true ∧ s.carries (↑ch) via = true ∧ p.stamp.fine = true ∧ s.gatesAt (↑ch) p.c ≠ [] ∧ (List.filter s.queued (s.group (↑ch / 32)).queue).length < 8192)
    ∧ (∃ (s : State) (ch : Fin 512) (via : Via) (p : Pulse), s.inReset = false ∧ s.stamps (↑ch) via = true ∧ s.slope ↑ch = 1 ∧ (s.path (viaNum (↑ch) via)).pulse = some p ∧ p.due = true ∧ s.carries (↑ch) via = true ∧ p.stamp.fine = true ∧ s.gatesAt (↑ch) p.c ≠ [] ∧ 8192 ≤ (List.filter s.queued (s.group (↑ch / 32)).queue).length) :=
  ⟨⟨pIn, 5, .own, pls, by decide +kernel⟩,
    ⟨fullGroup, 5, .own, pls8, by decide +kernel⟩⟩

theorem witness_ReturnWords_3 :
    ∃ (s : State) (ch : Fin 512) (via : Via) (p : Pulse), s.inReset = false ∧ s.stamps (↑ch) via = true ∧ s.slope ↑ch = 1 ∧ (s.path (viaNum (↑ch) via)).pulse = some p ∧ p.due = true ∧ s.carries (↑ch) via = true ∧ (s.gatesAt (↑ch) p.c = [] ∨ p.stamp.fine = false) :=
  ⟨pOut, 5, .own, plo, by decide +kernel⟩

theorem witness_ReturnWords_4 :
    ∃ (s : State) (ch : Fin 512) (p : Pulse), s.inReset = false ∧ (∀ (via : Via), via ∈ viasOf → via ≠ Via.own → (s.path (viaNum (↑ch) via)).pulse = none) ∧ (s.path ↑ch).pulse = some p ∧ p.due = true ∧ s.stamps (↑ch) Via.own = true ∧ s.carries (↑ch) Via.own = true ∧ p.stamp.fine = true ∧ s.gatesAt (↑ch) p.c ≠ [] ∧ (List.filter s.queued (s.group (↑ch / 32)).queue).length < 8192 :=
  ⟨(pulsed listening 5 pls), 5, pls, by decide +kernel⟩

theorem witness_ReturnWords_5 :
    ∃ (s : State) (ch : Fin 512) (i : Nat) (p : Pulse), s.inReset = false ∧ s.is F.SYS_STAT_TBLOCK = true ∧ s.is (F.RET_CFG_EN ↑ch) = true ∧ s.is (F.RET_STAT_OOS ↑ch) = false ∧ i < 32 ∧ s.stamps (↑ch) Via.own = true ∧ (s.path ↑ch).pulse = some p :=
  ⟨(pulsed listening 5 pls), 5, 0, pls, by decide +kernel⟩

theorem witness_ReturnWords_6 :
    ∃ (s : State) (i : Nat), s.inReset = false ∧ i < 32 :=
  ⟨(pulsed listening 5 pls), 0, by decide +kernel⟩

theorem witness_Thresholds_2 :
    ∃ (s : State) (src : Src) (ch : Fin 512), s.inReset = false ∧ s.hears src = true ∧ s.is (F.RET_CFG_TAUTO ↑ch) = true :=
  ⟨between.put (F.RET_CFG_TAUTO 5) 1, .host, 5, by decide +kernel⟩

theorem witness_Thresholds_3 :
    ∃ (s : State) (ch : Fin 512), s.inReset = false ∧ s.noGate ↑ch = true ∧ s.cal.pending = [] :=
  ⟨withRet between (fun r => {r with inForce := [(20,3),(21,7),(22,8),(23,9)]}), 5, by decide +kernel⟩

theorem witness_Thresholds_4 :
    ∃ (s : State) (ch : Fin 512), s.inReset = false ∧ s.noGate ↑ch = false :=
  ⟨listening, 5, by decide +kernel⟩

theorem witness_StartPairing_0 :
    (∃ (s : State) (st : Fin 4) (t : Nat) (f : Fin 64), s.inReset = false ∧ s.is F.SYS_STAT_TBLOCK = true ∧ s.startTimed ↑st = true ∧ s.is (F.RGP_STSTAT_SPARED ↑st) = false ∧ (∀ (w : Nat), s.errors w = 0#32) ∧ (s.ret.startLast.nat ↑st = 0 ∨ s.ret.startLast.nat ↑st - 1 + 256 ≤ 64 * t + ↑f) ∧ s.ret.startDll = true)
    ∧ (∃ (s : State) (st : Fin 4) (t : Nat) (f : Fin 64), s.inReset = false ∧ s.is F.SYS_STAT_TBLOCK = true ∧ s.startTimed ↑st = true ∧ s.is (F.RGP_STSTAT_SPARED ↑st) = false ∧ (∀ (w : Nat), s.errors w = 0#32) ∧ (s.ret.startLast.nat ↑st = 0 ∨ s.ret.startLast.nat ↑st - 1 + 256 ≤ 64 * t + ↑f) ∧ s.ret.startDll = false) :=
  ⟨⟨st0, 0, 100, 63, by decide +kernel, by decide +kernel, by decide +kernel, by decide +kernel, fun _ => rfl, by decide +kernel⟩,
    ⟨startOut, 0, 100, 63, by decide +kernel, by decide +kernel, by decide +kernel, by decide +kernel, fun _ => rfl, by decide +kernel⟩⟩

theorem witness_StartPairing_1 :
    ∃ (s : State) (st : Fin 4) (t : Nat) (a : StartX) (h : Shot), s.inReset = false ∧ s.ret.starts = [a] ∧ a.st = ↑st ∧ a.c + s.get (F.RGP_STCFG_PWIN ↑st) ≤ t ∧ (nearest a.x (List.filter (fun g => g.covers (↑st) a.x) s.ret.shots) = some h) ∧ h.start = none :=
  ⟨st1, 0, 100000, xs, shot0, by decide +kernel⟩

theorem witness_StartPairing_2 :
    ∃ (s : State) (st : Fin 4) (t : Nat) (a : StartX) (h : Shot), s.inReset = false ∧ s.ret.starts = [a] ∧ a.st = ↑st ∧ a.c + s.get (F.RGP_STCFG_PWIN ↑st) ≤ t ∧ (nearest a.x (List.filter (fun g => g.covers (↑st) a.x) s.ret.shots) = some h) ∧ h.start ≠ none :=
  ⟨withRet st1 (fun r => {r with shots := [{shot0 with start := some ⟨99, false, false, 0⟩}]}), 0, 100000, xs, {shot0 with start := some ⟨99, false, false, 0⟩}, by decide +kernel⟩

theorem witness_StartPairing_3 :
    ∃ (x : Int) (l : List Shot) (h : Shot) (g : Shot), nearest x l = some h ∧ g ∈ l ∧ (16 * x - h.p).natAbs = (16 * x - g.p).natAbs :=
  ⟨5, [shot0, {shot0 with tFire := 15999}], {shot0 with tFire := 15999}, shot0, by decide +kernel⟩

theorem witness_StartPairing_4 :
    ∃ (s : State) (st : Fin 4) (t : Nat) (a : StartX), s.inReset = false ∧ s.ret.starts = [a] ∧ a.st = ↑st ∧ a.c + s.get (F.RGP_STCFG_PWIN ↑st) ≤ t ∧ (∀ (h : Shot), h ∈ s.ret.shots → h.covers (↑st) a.x = false) :=
  ⟨withRet st1 (fun r => {r with shots := [{shot0 with hi := 0}]}), 0, 100000, xs, by decide +kernel⟩

theorem witness_StartPairing_5 :
    (∃ (s : State) (h : Shot), s.inReset = false ∧ s.ret.shots = [h] ∧ h.fired = true ∧ h.start = none ∧ s.ret.starts = [] ∧ s.is (F.RGP_STCFG_EN h.st) = true ∧ h.eValid = false ∧ h.other = false)
    ∧ (∃ (s : State) (h : Shot), s.inReset = false ∧ s.ret.shots = [h] ∧ h.fired = true ∧ h.start = none ∧ s.ret.starts = [] ∧ s.is (F.RGP_STCFG_EN h.st) = true ∧ h.eValid = false ∧ h.other = true) :=
  ⟨⟨withRet st1 (fun r => {r with starts := [], shots := [{shot0 with eValid := false}]}), {shot0 with eValid := false}, by decide +kernel⟩,
    ⟨withRet st1 (fun r => {r with starts := [], shots := [{shot0 with eValid := false, other := true}]}), {shot0 with eValid := false, other := true}, by decide +kernel⟩⟩

theorem witness_StartPairing_6 :
    ∃ (s : State) (h : Shot), s.inReset = false ∧ s.ret.shots = [h] ∧ h.fired = true ∧ h.start = none ∧ s.ret.starts = [] ∧ h.st < 4 ∧ s.startTimed h.st = true ∧ h.eValid = true ∧ h.other = false ∧ s.is (F.RGP_STSTAT_DARK h.st) = false ∧ s.is (F.RGP_STSTAT_SPARED h.st) = false ∧ s.is (F.RGP_STSTAT_FAULT h.st) = false ∧ s.get (F.RGP_STSTAT_MISSRUN h.st) = 15 ∧ s.is F.RGP_STCS_FAIL = false ∧ s.is F.RGP_STCS_ACTIVE = false :=
  ⟨(withRet st1 (fun r => {r with starts := [], shots := [shot0]})).put (F.RGP_STSTAT_MISSRUN 0) 15, shot0, by decide +kernel⟩

theorem witness_PathFaults_0 :
    ∃ (s : State) (g : Fin 17), s.inReset = false ∧ s.dllLocked ↑g = true ∧ (∀ (c : Ctx), c ∈ s.pool.ctxs → c.live = true → ∀ (ch : Nat), ch ∈ c.chans → ch / 32 ≠ ↑g) :=
  ⟨between, 0, by decide +kernel⟩

theorem witness_PathFaults_1 :
    ∃ (s : State) (g : Fin 17), s.inReset = false ∧ s.dllLocked ↑g = false ∧ s.is F.SYS_STAT_TBLOCK = true :=
  ⟨up, 15, by decide +kernel⟩

theorem witness_PathFaults_2 :
    ∃ (s : State) (ch : Fin 512), s.inReset = false ∧ s.failing ↑ch = true ∧ s.is (F.RET_STAT_OOS ↑ch) = false ∧ s.is (F.RGP_SPC_FAIL (↑ch / 32)) = false ∧ s.get (F.RGP_SPC_OWNER (↑ch / 32)) = 0 ∧ s.noGate ↑ch = true :=
  ⟨fail 5 between, 5, by decide +kernel⟩

theorem witness_PathFaults_3 :
    ∃ (s : State) (k : Fin 16), s.inReset = false ∧ s.failing (512 + ↑k) = true ∧ s.is (F.RGP_SPC_FAIL ↑k) = false ∧ s.get (F.RGP_SPC_OWNER ↑k) = 0 :=
  ⟨fail 512 between, 0, by decide +kernel⟩

theorem witness_PathFaults_4 :
    ∃ (s : State) (p : Path), s.inReset = false ∧ s.failing (pathNum p) = false :=
  ⟨between, .spare 3, by decide +kernel⟩

theorem witness_PathFaults_5 :
    ∃ (s : State) (k : Fin 16) (t : Nat), s.inReset = false ∧ s.get (F.RGP_SPC_OWNER ↑k) ≠ 0 ∧ (s.spare ↑k).serving = false ∧ (s.spare ↑k).handback = false ∧ (s.spare ↑k).t0 + 256 ≤ t ∧ s.noGate (32 * ↑k + s.get (F.RGP_SPC_TARGET ↑k)) = true :=
  ⟨spv 2 false false between, 0, 356, by decide +kernel⟩

theorem witness_PathFaults_6 :
    ∃ (s : State) (k : Fin 16) (t : Nat), s.inReset = false ∧ s.get (F.RGP_SPC_OWNER ↑k) = 2 ∧ (s.spare ↑k).serving = false ∧ (s.spare ↑k).t0 + 25600 ≤ t :=
  ⟨spv 2 false false listening, 0, 25700, by decide +kernel⟩

theorem witness_PathFaults_7 :
    ∃ (s : State) (src : Src) (k : Fin 16) (v : Word), s.inReset = false ∧ s.hears src = true ∧ s.replaced (32 * ↑k + (F.RGP_SPC_RCHAN ↑k).of v) = true :=
  ⟨spv 2 true false between, .host, 0, BitVec.ofNat 32 (5 * 2 ^ (F.RGP_SPC_RCHAN 0).lo), by decide +kernel⟩

theorem witness_PathFaults_8 :
    ∃ (s : State) (src : Src) (k : Fin 16) (v : Word), s.inReset = false ∧ s.hears src = true ∧ s.replaced (32 * ↑k + (F.RGP_SPC_RCHAN ↑k).of v) = false ∧ s.is (F.RGP_SPC_FAIL ↑k) = false ∧ s.get (F.RGP_SPC_OWNER ↑k) = 0 ∧ s.noGate (32 * ↑k + (F.RGP_SPC_RCHAN ↑k).of v) = true :=
  ⟨between, .host, 0, 0x5#32, by decide +kernel⟩

theorem witness_PathFaults_9 :
    (∃ (s : State) (k : Fin 16), s.inReset = false ∧ s.get (F.RGP_SPC_OWNER ↑k) = 1 ∧ (s.spare ↑k).handback = true ∧ s.noGate (32 * ↑k + s.get (F.RGP_SPC_TARGET ↑k)) = true)
    ∧ (∃ (s : State) (k : Fin 16), s.inReset = false ∧ s.get (F.RGP_SPC_OWNER ↑k) = 1 ∧ (s.spare ↑k).handback = true ∧ s.noGate (32 * ↑k + s.get (F.RGP_SPC_TARGET ↑k)) = true ∧ (∃ c, c ∈ s.cal.trimming ∧ c.ch = 32 * ↑k + s.get (F.RGP_SPC_TARGET ↑k) ∧ c.adopted = true)) :=
  ⟨⟨spv 1 true true between, 0, by decide +kernel⟩,
    ⟨trimDone, 0, by decide +kernel⟩⟩

theorem witness_Thresholds_0 :
    (∃ (s : State) (src : Src) (ch : Fin 512) (v : Word), s.inReset = false ∧ s.hears src = true ∧ s.is (F.RET_CFG_TAUTO ↑ch) = false ∧ (F.RET_THR_LCODE ↑ch).of v < (F.RET_THR_HCODE ↑ch).of v ∧ s.noGate ↑ch = false)
    ∧ (∃ (s : State) (src : Src) (ch : Fin 512) (v : Word), s.inReset = false ∧ s.hears src = true ∧ s.is (F.RET_CFG_TAUTO ↑ch) = false ∧ (F.RET_THR_LCODE ↑ch).of v < (F.RET_THR_HCODE ↑ch).of v ∧ s.noGate ↑ch = true ∧ s.ret.inForce.nat (4 * ↑ch + 1) = 0) :=
  ⟨⟨th listening, .host, 5, 0x00050004#32, by decide +kernel⟩,
    ⟨th between, .host, 5, 0x00050000#32, by decide +kernel⟩⟩

theorem witness_Thresholds_1 :
    ∃ (s : State) (src : Src) (ch : Fin 512) (v : Word), s.inReset = false ∧ s.hears src = true ∧ s.is (F.RET_CFG_TAUTO ↑ch) = false ∧ (F.RET_THR_HCODE ↑ch).of v ≤ (F.RET_THR_LCODE ↑ch).of v :=
  ⟨th between, .host, 5, 0x00050005#32, by decide +kernel⟩

theorem witness_GatesAndBins_0 :
    ∃ (s : State) (n : Nat) (row : Nat) (len : Nat) (tc : Nat) (sub : Nat) (fr : Nat) (co : Nat) (ch : Nat), s.inReset = false ∧ s.is F.SYS_STAT_TBLOCK = true ∧ n < 64 ∧ s.emi.tq = [{ kind := TKind.gate (2 ^ n) row len, tc := tc, sub := sub, frame := fr, column := co }] ∧ (∀ (w : Nat), w ∈ wordsOf (mapBase s.mapNow (s.emitterOf row n)) 128 → s.errors w = 0#32) ∧ s.channelsOf s.mapNow (s.emitterOf row n) = [ch] ∧ s.cal.pending = [] ∧ (∀ (h : Shot), h ∈ s.ret.shots → h.emitter = s.emitterOf row n → h.t < 16 * tc) :=
  ⟨gateQ, 3, 0, 50, 2000, 5, 1, 2, 5, by decide +kernel⟩

theorem witness_GatesAndBins_1 :
    ∃ (s : State) (n : Nat) (row : Nat) (len : Nat) (tc : Nat) (sub : Nat) (fr : Nat) (co : Nat) (ch : Nat) (h : Shot), s.inReset = false ∧ s.is F.SYS_STAT_TBLOCK = true ∧ n < 64 ∧ s.emi.tq = [{ kind := TKind.gate (2 ^ n) row len, tc := tc, sub := sub, frame := fr, column := co }] ∧ (∀ (w : Nat), w ∈ wordsOf (mapBase s.mapNow (s.emitterOf row n)) 128 → s.errors w = 0#32) ∧ s.channelsOf s.mapNow (s.emitterOf row n) = [ch] ∧ s.ret.spans.contains ch = false ∧ s.ret.shots = [h] ∧ h.emitter = s.emitterOf row n ∧ 16 * tc ≤ h.t ∧ h.t < 16 * (tc + len) :=
  ⟨gateS, 3, 0, 50, 2000, 5, 1, 2, 5, gateShot, by decide +kernel⟩

theorem witness_GatesAndBins_2 :
    (∃ (s : State), s.inReset = false ∧ s.cal.pending = [])
    ∧ (∃ (s : State) (g : Gate), s.inReset = false ∧ s.cal.pending = [] ∧ g ∈ s.ret.gates ∧ g.closed = false)
    ∧ (∃ (s : State) (ch : Fin 512) (t : Nat) (g : Gate), s.inReset = false ∧ s.cal.pending = [] ∧ g ∈ s.ret.gates ∧ g.closed = false ∧ (g.ch ≠ ↑ch ∨ t < g.closes)) :=
  ⟨⟨listening, by decide +kernel⟩,
    ⟨listening, gate7, by decide +kernel⟩,
    ⟨listening, 5, 4999, gate7, by decide +kernel⟩⟩

theorem witness_GatesAndBins_3 :
    (∃ (s : State) (g : Fin 16) (e : Ev), s.inReset = false ∧ (s.group ↑g).queue = [QItem.ev e] ∧ e.passed = false ∧ s.decidable e = false)
    ∧ (∃ (s : State) (g : Fin 16) (e : Ev), s.inReset = false ∧ (s.group ↑g).queue = [QItem.ev e] ∧ e.passed = false ∧ s.decidable e = true ∧ agrees e.stamp.coin (s.group ↑g).recent e = true)
    ∧ (∃ (s : State) (g : Fin 16) (e : Ev), s.inReset = false ∧ (s.group ↑g).queue = [QItem.ev e] ∧ e.passed = false ∧ s.decidable e = true ∧ agrees e.stamp.coin (s.group ↑g).recent e = false) :=
  ⟨⟨undQ, 0, und, by decide +kernel⟩,
    ⟨{ undQ with dt := 1040 }, 0, und, by decide +kernel⟩,
    ⟨{ queued up 0 [.ev und2] with dt := 1040 }, 0, und2, by decide +kernel⟩⟩

theorem witness_GatesAndBins_4 :
    (∃ (s : State) (g : Fin 16) (e : Ev) (h : Shot) (st : Start) (c : Ctx) (b : Int) (k : Nat) (a : Nat), s.inReset = false ∧ s.takesEvent (↑g) e h st c ∧ -16 < delta e st ∧ b = (max (delta e st) 0 - ↑(1024 * c.origin)).fdiv ↑(16 * 2 ^ (8 + c.binw)) ∧ c.nbin ≤ 2048 ∧ 0 ≤ b ∧ b < ↑c.nbin ∧ s.coarse c.slot b.toNat < 4095 ∧ k < 2048 ∧ k ≠ b.toNat ∧ c.nplaced ≤ 4 ∧ (a < slotBase c.slot ∨ slotBase c.slot + 3776 ≤ a))
    ∧ (∃ (s : State) (g : Fin 16) (e : Ev) (h : Shot) (st : Start) (c : Ctx) (b : Int) (k : Nat) (a : Nat), s.inReset = false ∧ s.takesEvent (↑g) e h st c ∧ -16 < delta e st ∧ b = (max (delta e st) 0 - ↑(1024 * c.origin)).fdiv ↑(16 * 2 ^ (8 + c.binw)) ∧ c.nbin ≤ 2048 ∧ 0 ≤ b ∧ b < ↑c.nbin ∧ 4095 ≤ s.coarse c.slot b.toNat ∧ k < 2048 ∧ c.nplaced ≤ 4 ∧ (a < slotBase c.slot ∨ slotBase c.slot + 3776 ≤ a))
    ∧ (∃ (s : State) (g : Fin 16) (e : Ev) (h : Shot) (st : Start) (c : Ctx) (b : Int) (k : Nat) (w : Nat) (j : Nat) (a : Nat), s.inReset = false ∧ s.takesEvent (↑g) e h st c ∧ -16 < delta e st ∧ b = (max (delta e st) 0 - ↑(1024 * c.origin)).fdiv ↑(16 * 2 ^ (8 + c.binw)) ∧ c.nbin ≤ 2048 ∧ 0 ≤ b ∧ b < ↑c.nbin ∧ s.coarse c.slot b.toNat < 4095 ∧ k < 2048 ∧ k ≠ b.toNat ∧ c.reached h = true ∧ c.windowsAt (max (delta e st) 0) = [(w, j)] ∧ w < 4 ∧ s.fine c.slot w j < 1023 ∧ c.nplaced ≤ 4 ∧ (a < slotBase c.slot ∨ slotBase c.slot + 3776 ≤ a))
    ∧ (∃ (s : State) (g : Fin 16) (e : Ev) (h : Shot) (st : Start) (c : Ctx) (b : Int) (a : Nat), s.inReset = false ∧ s.takesEvent (↑g) e h st c ∧ -16 < delta e st ∧ b = (max (delta e st) 0 - ↑(1024 * c.origin)).fdiv ↑(16 * 2 ^ (8 + c.binw)) ∧ c.nbin ≤ 2048 ∧ 0 ≤ b ∧ c.nplaced ≤ 4 ∧ (a < slotBase c.slot ∨ slotBase c.slot + 3776 ≤ a) ∧ (b < 0 ∨ ↑c.nbin ≤ b) ∧ (a < slotBase c.slot ∨ slotBase c.slot + 64 ≤ a)) :=
  ⟨⟨hist, 0, ev0, shx, strt, ctx0, 7, 0, 0, by decide +kernel, by delta State.takesEvent; decide +kernel, by decide +kernel⟩,
    ⟨hist.setBytes (slotBase 4 + 64 + 9) [0, 0xF0, 0xFF], 0, ev0, shx, strt, ctx0, 7, 0, 0, by decide +kernel, by delta State.takesEvent; decide +kernel, by decide +kernel⟩,
    ⟨onHist ev0 zoomC, 0, ev0, shx, strt, zoomC, 7, 0, 0, 5, 0, by decide +kernel, by delta State.takesEvent; decide +kernel, by decide +kernel⟩,
    ⟨onHist ev0 farC, 0, ev0, shx, strt, farC, 7, 0, by decide +kernel, by delta State.takesEvent; decide +kernel, by decide +kernel⟩⟩

theorem witness_GatesAndBins_5 :
    ∃ (s : State) (g : Fin 16) (e : Ev) (h : Shot) (st : Start) (c : Ctx) (a : Nat), s.inReset = false ∧ s.takesEvent (↑g) e h st c ∧ delta e st ≤ -16 ∧ (a < slotBase c.slot ∨ slotBase c.slot + 64 ≤ a) :=
  ⟨onHist evPrec ctx0, 0, evPrec, shx, strt, ctx0, 0, by decide +kernel, by delta State.takesEvent; decide +kernel, by decide +kernel⟩

theorem witness_GatesAndBins_6 :
    ∃ (s : State) (g : Fin 16) (e : Ev), s.inReset = false ∧ (s.group ↑g).queue = [QItem.ev e] ∧ e.bad = false ∧ s.ready e = true ∧ s.shotsOf e = [] :=
  ⟨queued up 0 [.ev {ev0 with gates := []}], 0, {ev0 with gates := []}, by decide +kernel⟩

theorem witness_GatesAndBins_7 :
    ∃ (s : State) (g : Fin 16) (ch : Nat) (f : Nat) (l : Nat) (q : List QItem), s.inReset = false ∧ (s.group ↑g).queue = QItem.loss ch f l :: q ∧ (s.lossGates ch f l).all s.settled = true :=
  ⟨lossQ, 0, 5, 900, 1100, [.ev ev0], by decide +kernel⟩

theorem witness_ShotsAndPlacement_0 :
    ∃ (s : State) (h : Shot) (c : Ctx), s.inReset = false ∧ s.ret.shots = [h] ∧ s.shotReady h c.chans = true ∧ s.shotReady h (List.range 512) = true ∧ h.fired = true ∧ h.members = [c.id] ∧ s.pool.ctxs = [c] ∧ c.live = true ∧ c.closing = false ∧ h.hi < 16384 * ↑s.dt ∧ s.ret.starts = [] ∧ (∀ (g : Gate), g ∈ s.ret.gates → g.slot = some h.slot → s.lossAhead g = false) ∧ c.early = false ∧ c.nwin = 0 ∧ c.slots + 1 < c.nshot :=
  ⟨late (withCtx (shotsOn up [shx] true) [c9]), shx, c9, by decide +kernel⟩

theorem witness_ShotsAndPlacement_1 :
    ∃ (s : State) (h : Shot) (c : Ctx), s.inReset = false ∧ s.ret.shots = [h] ∧ s.shotReady h c.chans = true ∧ h.fired = true ∧ h.members = [c.id] ∧ s.pool.ctxs = [c] ∧ c.state = CtxState.open ∧ c.closing = false ∧ c.early = false ∧ c.k = c.fired + 1 ∧ 1 ≤ c.nwin ∧ c.prov = false ∧ c.slots + 1 < c.nshot ∧ s.synd = [] :=
  ⟨late (withCtx (shotsOn up [shx] true) [cK]), shx, cK, by decide +kernel⟩

theorem witness_ShotsAndPlacement_2 :
    ∃ (s : State) (h : Shot) (c : Ctx), s.inReset = false ∧ s.ret.shots = [h] ∧ s.shotReady h c.chans = true ∧ s.shotReady h (List.range 512) = true ∧ h.fired = false ∧ h.members = [c.id] ∧ s.pool.ctxs = [c] ∧ c.live = true ∧ c.nshot ≤ c.slots + 1 ∧ s.lossPending c = false ∧ (∀ (g : Gate), g ∈ s.ret.gates → g.slot = some h.slot → s.lossAhead g = false) :=
  ⟨late (withCtx (shotsOn up [skipped] true) [ctx0]), skipped, ctx0, by decide +kernel⟩

theorem witness_ShotsAndPlacement_3 :
    ∃ (s : State) (h : Shot) (c : Ctx), s.inReset = false ∧ s.ret.shots = [h] ∧ h.members = [c.id] ∧ s.pool.ctxs = [c] ∧ s.shotReady h c.chans = false :=
  ⟨late (withCtx (shotsOn up [shx] false) [ctx0]), shx, ctx0, by decide +kernel⟩

theorem witness_ShotsAndPlacement_4 :
    ∃ (s : State) (c : Ctx), s.inReset = false ∧ s.pool.ctxs = [c] ∧ c.placing = true ∧ s.synd = [] :=
  ⟨withCtx up [cPl], cPl, by decide +kernel⟩

theorem witness_ShotsAndPlacement_5 :
    ∃ (s : State) (c : Ctx) (t : Nat), s.inReset = false ∧ s.pool.ctxs = [c] ∧ c.state = CtxState.reacq ∧ (∃ r, r ∈ c.replay ∧ r.found = none) ∧ c.reacqAt + 1600000 * s.get F.FLT_RWAIT_RMAX ≤ t ∧ s.ret.shots = [] ∧ s.lossPending c = false :=
  ⟨withCtx up [rq], rq, 16000000000, by decide +kernel⟩

theorem witness_CalibrationTables_0 :
    ∃ (s : State) (ch : Fin 512) (f : Nat), s.inReset = false ∧ 640000 ≤ s.cal.total.nat ↑ch ∧ s.synd = [] ∧ s.cal.pending = [] ∧ s.noGate ↑ch = true ∧ ((candidate fun f => s.cal.taps.nat (64 * ↑ch + f)).snd ≤ 64) ∧ f < 64 :=
  ⟨cand 5 9969, 5, 0, by decide +kernel⟩

theorem witness_CalibrationTables_1 :
    ∃ (s : State) (p : Path), s.inReset = false ∧ 640000 ≤ s.cal.total.nat (pathNum p) ∧ (64 < (candidate fun f => s.cal.taps.nat (64 * pathNum p + f)).snd) :=
  ⟨candBad, .spare 0, by decide +kernel⟩

theorem witness_CalibrationTables_2 :
    (∃ (s : State) (ch : Fin 512) (w : Sweep) (v : Sweep), s.inReset = false ∧ (FMap.get (fun x => none) s.cal.sweeps ↑ch = some w) ∧ (v = if w.pk < w.r then { code := w.code, r := w.r, pk := w.r, mu := w.code, counts := w.counts } else w) ∧ (¬(v.mu < w.code ∧ 256 * w.r < v.pk)) ∧ w.code + s.get F.CAL_THR_SSTEP < s.get (F.RET_THR_HCODE ↑ch))
    ∧ (∃ (s : State) (ch : Fin 512) (w : Sweep) (v : Sweep), s.inReset = false ∧ (FMap.get (fun x => none) s.cal.sweeps ↑ch = some w) ∧ (v = if w.pk < w.r then { code := w.code, r := w.r, pk := w.r, mu := w.code, counts := w.counts } else w) ∧ (¬(v.mu < w.code ∧ 256 * w.r < v.pk)) ∧ s.get (F.RET_THR_HCODE ↑ch) ≤ w.code + s.get F.CAL_THR_SSTEP) :=
  ⟨⟨swp ⟨8, 300, 200, 0, []⟩, 5, ⟨8, 300, 200, 0, []⟩, ⟨8, 300, 300, 8, []⟩, by decide +kernel⟩,
    ⟨swp ⟨96, 300, 200, 0, []⟩, 5, ⟨96, 300, 200, 0, []⟩, ⟨96, 300, 300, 96, []⟩, by decide +kernel⟩⟩

theorem witness_CalibrationTables_3 :
    ∃ (s : State) (ch : Fin 512) (w : Sweep) (v : Sweep) (a : Nat × Nat) (b : Nat × Nat), s.inReset = false ∧ (FMap.get (fun x => none) s.cal.sweeps ↑ch = some w) ∧ (v = if w.pk < w.r then { code := w.code, r := w.r, pk := w.r, mu := w.code, counts := w.counts } else w) ∧ v.mu < w.code ∧ 256 * w.r < v.pk ∧ oneSigma v.mu v.pk (w.counts ++ [(w.code, w.r)]) = some (a, b) ∧ s.synd = [] :=
  ⟨swp swDone, 5, swDone, swDone, (8, 800), (12, 300), by decide +kernel⟩

theorem witness_CalibrationTables_5 :
    ∃ (s : State) (ch : Fin 512), s.inReset = false ∧ s.is (F.RET_CFG_TAUTO ↑ch) = true ∧ bit (s.get F.RGP_DLL_LOCK) (↑ch / 32) = true ∧ s.hasThr ↑ch = false ∧ (FMap.get (fun x => none) s.cal.sweeps ↑ch = none) :=
  ⟨between.put (F.RET_CFG_TAUTO 5) 1, 5, by decide +kernel⟩

theorem witness_CalibrationTables_6 :
    ∃ (s : State) (ch : Fin 512), s.inReset = false ∧ s.is (F.RET_CFG_TAUTO ↑ch) = false ∧ s.is F.FLT_CFG_STUCK = false :=
  ⟨rated, 5, by decide +kernel⟩

theorem witness_CalibrationTables_7 :
    ∃ (s : State) (ch : Fin 512), s.inReset = false ∧ s.is (F.RET_CFG_TAUTO ↑ch) = true ∧ s.hasThr ↑ch = true ∧ s.is F.FLT_CFG_STUCK = false ∧ s.synd = [] :=
  ⟨servoed, 5, by decide +kernel⟩

theorem witness_CalibrationTables_8 :
    ∃ (s : State) (p : Path), s.inReset = false ∧ (∀ (ch : Fin 512), p ≠ Path.ret ch) ∧ s.synd = [] :=
  ⟨between, .stcs, by decide +kernel⟩

theorem witness_CalibrationTables_9 :
    ∃ (s : State) (ch : Fin 512), s.inReset = false ∧ s.get (F.RET_STAT_CALST ↑ch) = 0 ∧ s.hasFine ↑ch = false :=
  ⟨between, 5, by decide +kernel⟩

theorem witness_CalibrationTables_10 :
    ∃ (s : State) (src : Src) (v : Word) (ch : Nat), s.inReset = false ∧ s.hears src = true ∧ ch = F.CAL_ZWR_CHAN.of v ∧ ch < 512 ∧ s.synd = [] ∧ s.cal.pending = [] ∧ s.noGate ch = true :=
  ⟨between, .host, 511#32, 511, by decide +kernel⟩

theorem witness_CalibrationTables_11 :
    ∃ (s : State) (src : Src), s.inReset = false ∧ s.hears src = true ∧ s.is F.CAL_STAT_LOADED = true :=
  ⟨between.put F.CAL_STAT_LOADED 1, .host, by decide +kernel⟩

theorem witness_CalibrationTables_12 :
    ∃ (s : State) (src : Src), s.inReset = false ∧ s.hears src = true ∧ s.is F.CAL_STAT_LOADED = false ∧ s.cal.touched = [] :=
  ⟨between, .host, by decide +kernel⟩

theorem witness_CalibrationTables_13 :
    ∃ (s : State) (src : Src), s.inReset = false ∧ s.hears src = true ∧ s.is F.CAL_STAT_LOADED = false :=
  ⟨between, .host, by decide +kernel⟩

theorem witness_Recalibrations_0 :
    ∃ (s : State), s.inReset = false ∧ s.cal.queue.contains 532 = true ∧ s.stcsFree = true ∧ (∀ (q : Nat × Nat), q ∈ s.cal.shadow → q.fst ≠ 532) :=
  ⟨rc [512, 532], by decide +kernel⟩

theorem witness_Recalibrations_1 :
    ∃ (s : State) (k : Fin 16) (d : Nat), s.inReset = false ∧ s.cal.queue.contains (512 + ↑k) = true ∧ s.spareIdle ↑k = true ∧ s.spareDonor ↑k = some d ∧ (∀ (q : Nat × Nat), q ∈ s.cal.shadow → q.fst ≠ 512 + ↑k) :=
  ⟨rc [512, 532], 0, 0, by decide +kernel⟩

theorem witness_Recalibrations_2 :
    ∃ (s : State) (ch : Fin 512), s.inReset = false ∧ s.cal.trims = [↑ch] ∧ s.mayTrim ↑ch = true :=
  ⟨trm, 5, by decide +kernel⟩

theorem witness_Recalibrations_3 :
    ∃ (s : State) (st : Fin 4), s.inReset = false ∧ s.cal.queue.contains (528 + ↑st) = true ∧ (∀ (j : Nat), j < ↑st → s.cal.queue.contains (528 + j) = false) ∧ s.cal.queue.contains 532 = false ∧ (∀ (q : Nat × Nat), q ∈ s.cal.shadow → q.fst ≠ 532) ∧ s.stcsReady = true ∧ s.synd = [] :=
  ⟨stq, 3, by decide +kernel⟩

theorem witness_Recalibrations_4 :
    (∃ (s : State) (src : Src) (v : Word), s.inReset = false ∧ s.hears src = true ∧ F.CAL_REQ_TRIM.isOf v = true)
    ∧ (∃ (s : State) (src : Src) (v : Word), s.inReset = false ∧ s.hears src = true ∧ F.CAL_REQ_START.isOf v = true) :=
  ⟨⟨trm, .host, BitVec.ofNat 32 (2 ^ F.CAL_REQ_TRIM.lo), by decide +kernel⟩,
    ⟨trm, .host, BitVec.ofNat 32 (2 ^ F.CAL_REQ_START.lo), by decide +kernel⟩⟩

theorem witness_Recalibrations_5 :
    (∃ (s : State) (src : Src) (v : Word), s.inReset = false ∧ s.hears src = true ∧ F.CAL_REQ_TRIM.isOf v = false ∧ 4 ≤ F.CAL_REQ_SIDX.of v ∧ F.CAL_REQ_SIDX.of v = 4 ∧ s.stcsFree = true)
    ∧ (∃ (s : State) (src : Src) (v : Word), s.inReset = false ∧ s.hears src = true ∧ F.CAL_REQ_TRIM.isOf v = false ∧ 4 ≤ F.CAL_REQ_SIDX.of v ∧ (F.CAL_REQ_SIDX.of v ≠ 4 ∨ s.stcsFree = false)) :=
  ⟨⟨rc [], .host, BitVec.ofNat 32 (4 * 2 ^ F.CAL_REQ_SIDX.lo), by decide +kernel⟩,
    ⟨rc [], .host, BitVec.ofNat 32 (5 * 2 ^ F.CAL_REQ_SIDX.lo), by decide +kernel⟩⟩

theorem witness_Recalibrations_6 :
    (∃ (s : State) (src : Src) (v : Word), s.inReset = false ∧ s.hears src = true ∧ F.CAL_REQ_TRIM.isOf v = false ∧ F.CAL_REQ_SIDX.of v < 4 ∧ s.synd = [] ∧ s.stcsReady = true)
    ∧ (∃ (s : State) (src : Src) (v : Word), s.inReset = false ∧ s.hears src = true ∧ F.CAL_REQ_TRIM.isOf v = false ∧ F.CAL_REQ_SIDX.of v < 4 ∧ s.synd = [] ∧ s.stcsReady = false) :=
  ⟨⟨r532 trm, .host, BitVec.ofNat 32 (3 * 2 ^ F.CAL_REQ_SIDX.lo), by decide +kernel⟩,
    ⟨trm, .host, BitVec.ofNat 32 (3 * 2 ^ F.CAL_REQ_SIDX.lo), by decide +kernel⟩⟩

theorem witness_Recalibrations_7 :
    ∃ (s : State) (src : Src) (v : Word), s.inReset = false ∧ s.hears src = true ∧ F.CAL_REQ_START.isOf v = false ∧ s.mayTrim (F.CAL_REQ_CHAN.of v) = true ∧ F.CAL_REQ_CHAN.of v < 512 :=
  ⟨trm, .host, BitVec.ofNat 32 (5 * 2 ^ F.CAL_REQ_CHAN.lo), by decide +kernel⟩

theorem witness_Recalibrations_8 :
    ∃ (s : State) (src : Src) (v : Word), s.inReset = false ∧ s.hears src = true ∧ F.CAL_REQ_START.isOf v = false ∧ s.mayTrim (F.CAL_REQ_CHAN.of v) = false :=
  ⟨between, .host, BitVec.ofNat 32 (511 * 2 ^ F.CAL_REQ_CHAN.lo), by decide +kernel⟩

theorem witness_Recalibrations_9 :
    ∃ (s : State) (c : StCal) (t : Nat), s.inReset = false ∧ s.cal.stcal = some c ∧ c.switched = false ∧ c.st < 4 ∧ s.is F.RGP_STCS_ACTIVE = false ∧ c.t0 + 256 ≤ t ∧ (s.noWindow c.st t = true ∨ c.t0 + 25600 ≤ t) ∧ s.noWindow c.st t = true :=
  ⟨stc ⟨3, 100, false, true, false⟩, ⟨3, 100, false, true, false⟩, 356, by decide +kernel⟩

theorem witness_Recalibrations_10 :
    ∃ (s : State) (c : StCal) (t : Nat), s.inReset = false ∧ s.cal.stcal = some c ∧ c.adopted = true ∧ c.st < 4 ∧ s.noWindow c.st t = true ∧ c.switched = true :=
  ⟨stc ⟨3, 100, true, true, true⟩, ⟨3, 100, true, true, true⟩, 356, by decide +kernel⟩

theorem witness_Recalibrations_11 :
    ∃ (s : State) (c : StCal) (st : Fin 4), s.inReset = false ∧ s.cal.stcal = some c ∧ c.st = ↑st ∧ c.adopted = false ∧ (c.switched = false ∨ s.noWindow c.st s.dt = true) :=
  ⟨stc ⟨3, 100, true, true, false⟩, ⟨3, 100, true, true, false⟩, 3, by decide +kernel⟩

theorem witness_Recalibrations_12 :
    ∃ (s : State) (ch : Fin 512) (c : TrimCal) (f : Nat), s.inReset = false ∧ s.cal.trimming = [c] ∧ c.ch = ↑ch ∧ c.adopted = false ∧ f < 64 :=
  ⟨trimC 9 true, 5, ⟨5, 0, 2, false, false, [1, -2]⟩, 0, by decide +kernel⟩

theorem witness_Recalibrations_13 :
    (∃ (s : State), s.inReset = false)
    ∧ (∃ (s : State) (i : Nat), s.inReset = false ∧ i ∈ s.cal.queue) :=
  ⟨⟨trm, by decide +kernel⟩,
    ⟨trmQ, 530, by decide +kernel⟩⟩

theorem witness_Recalibrations_14 :
    ∃ (s : State) (ch : Fin 512) (c : TrimCal) (f : Nat), s.inReset = false ∧ s.cal.trimming = [c] ∧ c.ch = ↑ch ∧ c.final = false ∧ 160000 ≤ s.cal.total.nat ↑ch ∧ (s.spare (↑ch / 32)).serving = true ∧ f < 64 :=
  ⟨trimC 160000 true, 5, ⟨5, 0, 2, false, false, [1, -2]⟩, 0, by decide +kernel⟩

/-! ### Witnesses: Decanter and dispatch -/

def mkPart (c : Ctx) (n : List Nat) : Partial := ⟨c, c.header ++ packBins n, []⟩
def ctxP : Ctx := {ctxC with state := .open, nbin := 8, ebgmax := 900, eshots := 200}
def part0 : Partial := mkPart ctxP [5,6,200,7]
def withParts (s : State) (l : List Partial) : State := { s with pool := { s.pool with parts := l } }
def clsP (k : PassKind) (st : Option Nat) : State := withDec (withCtx (setLoaded up) [{ctx0 with state := .work, set := st}]) (some ⟨k, 4, none⟩) [blk0]
def erl (p : Partial) : State := withDec (withCtx (setLoaded up) [ctx0]) (some ⟨.early, 4, some p⟩) [blk0]
def part1 : Partial := mkPart ctxP [3,3,200,3,2,3,3,3]
def part2 : Partial := mkPart ctxP [0,0,0,0,0,0,0,0]
def part3 : Partial := mkPart {ctxP with ebgmax := 0} [90,90,90,90,90,90,90,90]
def erl2 : State := ((erl part2).setBytes (setBase 1 + 0x84) [0, 0, 1]).setBytes (setBase 1 + 0x104) [0, 0, 1]
def partN : Partial := mkPart {ctxP with set := none} [5]
def served : State := withF up [(F.SEQ_CTRL_PEEN, 0xF0)]
def stg (d : Disp) (n : Nat) : State := up.setPe n { up.pe n with staged := some d }
def cut (k b : Nat) : State := onPe 2 {disp k none with budget := some b} (fun g => {g with count := 7})
def rowStop : State := withEmi (up.setFsq {up.seq.fsq with flush := true}) (fun e => {e with tq := [tcmd (.row 3)]})
def fs : Word := BitVec.ofNat 32 (2 ^ F.SEQ_BANK_FSEL.lo + 2 ^ F.SEQ_BANK_FGO.lo)
def ps : Word := BitVec.ofNat 32 (2 ^ F.SEQ_BANK_PSEL.lo + 2 ^ F.SEQ_BANK_PGO.lo)

theorem witness_DecanterPasses_0 :
    ∃ (s : State) (l : Fin 16) (c : Ctx) (k : Fin 16), s.inReset = false ∧ s.laneFailed ↑l = false ∧ s.dec.lanes[l] = none ∧ s.synd = [] ∧ s.pool.queue = [c.id] ∧ s.pool.ctxs = [c] ∧ c.state = CtxState.closed ∧ k ≠ l :=
  ⟨inQueue (withCtx up [ctxC]) [4], 3, ctxC, Fin.ofNat 16 0, by decide +kernel⟩

theorem witness_DecanterPasses_1 :
    ∃ (s : State) (l : Fin 16) (c : Ctx) (p : Partial), s.inReset = false ∧ s.laneFailed ↑l = false ∧ s.dec.lanes[l] = none ∧ s.synd = [] ∧ s.pool.queue = [] ∧ s.pool.parts = [p] ∧ p.errs = [] ∧ p.ctx.id = c.id ∧ s.pool.ctxs = [c] :=
  ⟨withParts (withCtx up [ctx0]) [part0], 3, ctx0, part0, by decide +kernel⟩

theorem witness_DecanterPasses_2 :
    ∃ (s : State) (l : Fin 16) (c : Ctx) (k : PassKind) (q : Option Partial) (x : Nat), s.inReset = false ∧ s.dec.lanes[l] = some { kind := k, ctx := c.id, part := q } ∧ k ≠ PassKind.early ∧ s.pool.ctxs = [c] ∧ c.set = some x ∧ s.synd = [] :=
  ⟨clsP .close (some 1), 3, {ctx0 with state := .work, set := some 1}, .close, none, 1, by decide +kernel⟩

theorem witness_DecanterPasses_3 :
    ∃ (s : State) (l : Fin 16) (c : Ctx) (k : PassKind) (q : Option Partial), s.inReset = false ∧ s.dec.lanes[l] = some { kind := k, ctx := c.id, part := q } ∧ k ≠ PassKind.early ∧ s.pool.ctxs = [c] ∧ c.set = none ∧ s.synd = [] :=
  ⟨clsP .close none, 3, {ctx0 with state := .work, set := none}, .close, none, by decide +kernel⟩

theorem witness_DecanterPasses_4 :
    (∃ (s : State) (l : Fin 16) (c : Ctx) (p : Partial) (x : Nat), s.inReset = false ∧ s.dec.lanes[l] = some { kind := PassKind.early, ctx := c.id, part := some p } ∧ s.pool.ctxs = [c] ∧ p.ctx.set = some x ∧ x < 2 ∧ s.synd = [] ∧ confident p.ctx (runPass x (s.readSet x) PassKind.early p.ctx.slot (List.map p.bin (List.range p.ctx.nbin))) = true ∧ (runPass x (s.readSet x) PassKind.early p.ctx.slot (List.map p.bin (List.range p.ctx.nbin))).nfound ≠ 0)
    ∧ (∃ (s : State) (l : Fin 16) (c : Ctx) (p : Partial) (x : Nat), s.inReset = false ∧ s.dec.lanes[l] = some { kind := PassKind.early, ctx := c.id, part := some p } ∧ s.pool.ctxs = [c] ∧ p.ctx.set = some x ∧ x < 2 ∧ s.synd = [] ∧ confident p.ctx (runPass x (s.readSet x) PassKind.early p.ctx.slot (List.map p.bin (List.range p.ctx.nbin))) = true ∧ (runPass x (s.readSet x) PassKind.early p.ctx.slot (List.map p.bin (List.range p.ctx.nbin))).nfound = 0)
    ∧ (∃ (s : State) (l : Fin 16) (c : Ctx) (p : Partial) (x : Nat), s.inReset = false ∧ s.dec.lanes[l] = some { kind := PassKind.early, ctx := c.id, part := some p } ∧ s.pool.ctxs = [c] ∧ p.ctx.set = some x ∧ x < 2 ∧ s.synd = [] ∧ confident p.ctx (runPass x (s.readSet x) PassKind.early p.ctx.slot (List.map p.bin (List.range p.ctx.nbin))) = false) :=
  ⟨⟨erl part0, 3, ctx0, part0, 1, by decide +kernel⟩,
    ⟨erl2, 3, ctx0, part2, 1, by decide +kernel⟩,
    ⟨erl part3, 3, ctx0, part3, 1, by decide +kernel⟩⟩

theorem witness_DecanterPasses_5 :
    ∃ (s : State) (l : Fin 16) (c : Ctx) (p : Partial), s.inReset = false ∧ s.dec.lanes[l] = some { kind := PassKind.early, ctx := c.id, part := some p } ∧ s.pool.ctxs = [c] ∧ p.ctx.set = none :=
  ⟨erl partN, 3, ctx0, partN, by decide +kernel⟩

theorem witness_DecanterPasses_7 :
    ∃ (s : State) (l : Fin 16) (c : Ctx) (q : Option Partial), s.inReset = false ∧ s.dec.lanes[l] = some { kind := PassKind.early, ctx := c.id, part := q } ∧ s.pool.ctxs = [c] :=
  ⟨erl part1, 3, ctx0, some part1, by decide +kernel⟩

theorem witness_DecanterPasses_6 :
    ∃ (s : State) (l : Fin 16) (c : Ctx) (k : PassKind) (q : Option Partial), s.inReset = false ∧ s.dec.lanes[l] = some { kind := k, ctx := c.id, part := q } ∧ k ≠ PassKind.early ∧ s.pool.ctxs = [c] ∧ c.state = CtxState.work :=
  ⟨clsP .close (some 1), 3, {ctx0 with state := .work, set := some 1}, .close, none, by decide +kernel⟩

theorem witness_DecanterPasses_8 :
    ∃ (s : State) (src : Src) (v : Word) (x : Nat), s.inReset = false ∧ s.hears src = true ∧ x = F.DEC_CHECK_SET.of v ∧ s.setBusy x = true :=
  ⟨withF up [(F.DEC_STAT_CUR, 1)], .host, 1#32, 1, by decide +kernel⟩

theorem witness_DecanterPasses_9 :
    ∃ (s : State) (src : Src) (v : Word) (x : Nat), s.inReset = false ∧ s.hears src = true ∧ x = F.DEC_CHECK_SET.of v ∧ s.setBusy x = false ∧ s.synd = [] ∧ s.checkCode x = 1 :=
  ⟨setLoaded up, .host, 1#32, 1, by decide +kernel⟩

theorem witness_DecanterPasses_10 :
    (∃ (s : State) (src : Src) (v : Word) (x : Nat), s.inReset = false ∧ s.hears src = true ∧ x = F.DEC_SEL_SET.of v ∧ s.is (validField x) = false)
    ∧ (∃ (s : State) (src : Src) (v : Word) (x : Nat), s.inReset = false ∧ s.hears src = true ∧ x = F.DEC_SEL_SET.of v ∧ s.is (validField x) = true ∧ s.get F.DEC_STAT_CUR = x ∧ s.is F.DEC_STAT_PEND = false)
    ∧ (∃ (s : State) (src : Src) (v : Word) (x : Nat), s.inReset = false ∧ s.hears src = true ∧ x = F.DEC_SEL_SET.of v ∧ s.is (validField x) = true ∧ (s.get F.DEC_STAT_CUR ≠ x ∨ s.is F.DEC_STAT_PEND = true)) :=
  ⟨⟨up, .host, 1#32, 1, by decide +kernel⟩,
    ⟨withF up [(F.DEC_STAT_CUR, 1), (F.DEC_STAT_VALID1, 1)], .host, 1#32, 1, by decide +kernel⟩,
    ⟨withF up [(F.DEC_STAT_CUR, 0), (F.DEC_STAT_VALID1, 1)], .host, 1#32, 1, by decide +kernel⟩⟩

theorem witness_EngineDispatch_0 :
    ∃ (s : State) (n : Nat) (b : Block) (budget : Nat) (m : Nat), s.inReset = false ∧ s.stageSlot = some n ∧ s.seq.returned = [] ∧ s.dec.blocks = [b] ∧ s.blockHeld b = false ∧ b.bad = false ∧ (budget = s.get (if b.kind = PassKind.early then F.PNT_BUDGET_EARLY else F.PNT_BUDGET_PIX)) ∧ budget ≠ 0 ∧ m ≠ n :=
  ⟨withDec (served.put F.PNT_BUDGET_PIX 100) none [blk0], 4, blk0, 100, 0, by decide +kernel⟩

theorem witness_EngineDispatch_1 :
    (∃ (s : State) (n : Fin 16) (d : Disp) (m : Nat) (k : Nat), s.inReset = false ∧ (s.pe ↑n).work = none ∧ (s.pe ↑n).staged = some d ∧ s.isPost ↑n = false ∧ 1 ≤ d.kind ∧ d.kind ≤ 5 ∧ s.synd = [] ∧ m = BitVec.toNat (s.byte (peBase ↑n + 32768 * d.bank + 80)) ∧ k ≠ ↑n ∧ m % 64 ≤ 40)
    ∧ (∃ (s : State) (n : Fin 16) (d : Disp) (m : Nat) (k : Nat), s.inReset = false ∧ (s.pe ↑n).work = none ∧ (s.pe ↑n).staged = some d ∧ s.isPost ↑n = false ∧ 1 ≤ d.kind ∧ d.kind ≤ 5 ∧ s.synd = [] ∧ m = BitVec.toNat (s.byte (peBase ↑n + 32768 * d.bank + 80)) ∧ k ≠ ↑n ∧ 40 < m % 64) :=
  ⟨⟨stg (disp 1 (some 4)) 7, 7, disp 1 (some 4), 0, 0, by decide +kernel⟩,
    ⟨(stg (disp 2 (some 4)) 7).setBytes (peBase 7 + 0x50) [41], 7, disp 2 (some 4), 41, 0, by decide +kernel⟩⟩

theorem witness_EngineDispatch_2 :
    ∃ (s : State) (n : Fin 16) (k : Nat), s.inReset = false ∧ s.peServes ↑n = true ∧ (s.pe ↑n).work = none ∧ s.anyWaiting = false ∧ s.get F.SEQ_BGBUD_BG ≠ 0 ∧ s.synd = [] ∧ k ≠ ↑n :=
  ⟨served.put F.SEQ_BGBUD_BG 50, 5, 0, by decide +kernel⟩

theorem witness_EngineDispatch_3 :
    ∃ (s : State) (n : Fin 16) (d : Disp) (b : Nat) (k : Nat), s.inReset = false ∧ (s.pe ↑n).work = some d ∧ d.budget = some b ∧ b ≤ (s.pe ↑n).eng.count ∧ (s.pe ↑n).eng.doomed = false ∧ (s.pe ↑n).eng.retire = false ∧ s.isPost ↑n = false ∧ (d.kind = 2 ∨ d.kind = 3) ∧ (d.kind = 2 → s.pnt.recsHeld = [] ∧ s.seq.ended = []) ∧ d.kind = 3 ∧ k ≠ ↑n :=
  ⟨cut 3 7, 2, {disp 3 none with budget := some 7}, 7, 0, by decide +kernel⟩

theorem witness_EngineDispatch_4 :
    ∃ (s : State) (n : Fin 16) (d : Disp) (b : Nat), s.inReset = false ∧ (s.pe ↑n).work = some d ∧ d.budget = some b ∧ (s.pe ↑n).eng.count < b :=
  ⟨cut 2 8, 2, {disp 2 none with budget := some 8}, 8, by decide +kernel⟩

theorem witness_EngineDispatch_5 :
    ∃ (s : State) (old : Fin 16) (n : Fin 16) (k : Nat), s.inReset = false ∧ s.isPost ↑old = true ∧ s.is (F.SEQ_PESTAT_RETIRED ↑old) = true ∧ (∀ (m : Fin 16), m ≠ old → s.isPost ↑m = false) ∧ s.is (F.SEQ_PESTAT_RETIRED ↑n) = false ∧ (∀ (m : Fin 16), n < m → s.is (F.SEQ_PESTAT_RETIRED ↑m) = true) ∧ (s.pe ↑n).staged = none ∧ s.synd = [] ∧ k ≠ ↑n :=
  ⟨withF up [(F.SEQ_PESTAT_POST 15, 1), (F.SEQ_PESTAT_RETIRED 15, 1)], 15, 14, 0, by decide +kernel⟩

theorem witness_SequencerControl_0 :
    ∃ (s : State) (src : Src), s.inReset = false ∧ s.hears src = true ∧ s.running = false ∧ s.is F.SYS_STAT_TBLOCK = true :=
  ⟨up, .host, by decide +kernel⟩

theorem witness_SequencerControl_1 :
    ∃ (s : State) (src : Src), s.inReset = false ∧ s.hears src = true ∧ s.running = false ∧ s.is F.SYS_STAT_TBLOCK = false :=
  ⟨up.put F.SYS_STAT_TBLOCK 0, .host, by decide +kernel⟩

theorem witness_SequencerControl_2 :
    ∃ (s : State) (src : Src), s.inReset = false ∧ s.hears src = true ∧ s.running = true :=
  ⟨onFsq id, .host, by decide +kernel⟩

theorem witness_SequencerControl_3 :
    ∃ (s : State) (src : Src), s.inReset = false ∧ s.hears src = true ∧ s.running = true ∧ s.seq.fsq.stall = none ∧ s.seq.fsq.wait = none :=
  ⟨onFsq id, .host, by decide +kernel⟩

theorem witness_SequencerControl_4 :
    ∃ (s : State) (src : Src), s.inReset = false ∧ s.hears src = true ∧ s.running = true ∧ (s.seq.fsq.stall.isSome = true ∨ s.seq.fsq.wait.isSome = true) :=
  ⟨(onFsq id).setFsq {(onFsq id).seq.fsq with wait := some (.sync 4)}, .host, by decide +kernel⟩

theorem witness_SequencerControl_5 :
    ∃ (s : State) (c : Ctx), s.inReset = false ∧ s.seq.fsq.flush = true ∧ s.emi.tq = [] ∧ s.pool.ctxs = [c] ∧ c.live = true ∧ s.shotInProgress c.id = false ∧ s.lossPending c = false :=
  ⟨withCtx (up.setFsq {up.seq.fsq with flush := true}) [ctx0], ctx0, by decide +kernel⟩

theorem witness_SequencerControl_6 :
    ∃ (s : State), s.inReset = false ∧ s.emi.tq ≠ [] :=
  ⟨rowStop, by decide +kernel⟩

theorem witness_SequencerControl_7 :
    (∃ (s : State) (src : Src) (v : Word), s.inReset = false ∧ s.hears src = true ∧ F.SEQ_BANK_PGO.isOf v = false ∧ (s.is F.SEQ_BANK_FPENDV = true ∨ F.SEQ_BANK_FSEL.of v = s.get F.SEQ_BANK_FCUR) ∧ s.is F.SEQ_BANK_FPENDV = false)
    ∧ (∃ (s : State) (src : Src) (v : Word), s.inReset = false ∧ s.hears src = true ∧ F.SEQ_BANK_PGO.isOf v = false ∧ s.is F.SEQ_BANK_FPENDV = false ∧ F.SEQ_BANK_FSEL.of v ≠ s.get F.SEQ_BANK_FCUR ∧ s.running = true)
    ∧ (∃ (s : State) (src : Src) (v : Word), s.inReset = false ∧ s.hears src = true ∧ F.SEQ_BANK_PGO.isOf v = false ∧ s.is F.SEQ_BANK_FPENDV = false ∧ F.SEQ_BANK_FSEL.of v ≠ s.get F.SEQ_BANK_FCUR ∧ s.running = false) :=
  ⟨⟨up, .host, 0#32, by decide +kernel⟩,
    ⟨onFsq id, .host, fs, by decide +kernel⟩,
    ⟨up, .host, fs, by decide +kernel⟩⟩

theorem witness_SequencerControl_8 :
    (∃ (s : State) (src : Src) (v : Word), s.inReset = false ∧ s.hears src = true ∧ F.SEQ_BANK_FGO.isOf v = false ∧ (s.is F.SEQ_BANK_PPENDV = true ∨ F.SEQ_BANK_PSEL.of v = s.get F.SEQ_BANK_PCUR) ∧ s.is F.SEQ_BANK_PPENDV = false)
    ∧ (∃ (s : State) (src : Src) (v : Word), s.inReset = false ∧ s.hears src = true ∧ F.SEQ_BANK_FGO.isOf v = false ∧ s.is F.SEQ_BANK_PPENDV = false ∧ F.SEQ_BANK_PSEL.of v ≠ s.get F.SEQ_BANK_PCUR ∧ s.peInUse = true)
    ∧ (∃ (s : State) (src : Src) (v : Word), s.inReset = false ∧ s.hears src = true ∧ F.SEQ_BANK_FGO.isOf v = false ∧ s.is F.SEQ_BANK_PPENDV = false ∧ F.SEQ_BANK_PSEL.of v ≠ s.get F.SEQ_BANK_PCUR ∧ s.peInUse = false) :=
  ⟨⟨up, .host, 0#32, by decide +kernel⟩,
    ⟨served, .host, ps, by decide +kernel⟩,
    ⟨up, .host, ps, by decide +kernel⟩⟩

/-! ### Witnesses: zones and axes -/

def zq (k : ZKind) (u : Bool) (f : Pnt → Pnt) : State := withPnt (zoned up) fun p => f {p with zoneQ := [zrec k u, zrec .point false]}
def er : Early := ⟨9, 4, 0, 500, 6, 1, 2, 3, 9, [0], true, false⟩
def reg1 : State := (axis1.put F.SYS_STRAP_CFGMODE 1).setBytes (regionBase 1) [1]
def tv (m l b : Nat) : Word := BitVec.ofNat 32 (m * 2 ^ (F.AXS_TRC_MODE 1).lo + l * 2 ^ (F.AXS_TRC_LEN 1).lo + b * 2 ^ (F.AXS_TRC_BASE 1).lo)
def rsn (l : LawState) (n : Nat) : State := onAxis (withF axis1 [(F.AXS_CTRL_MODE 1, 1), (F.AXS_FTW_FTW 1, 1000)]) 1 fun x => {x with running := true, phase := 2 ^ 32 - 500, phaseAt := 100, law := l, sums := (n, 7 * one60, -900 * one60, 5)}
def smp (l : LawState) : State := onAxis axis1 1 fun x => {x with law := l, raw := 50, word := 77, plans := (⟨1,2,3⟩, ⟨70000,5,6⟩, ⟨7,8,9⟩)}
def rv (r : Nat) : Word := BitVec.ofNat 32 (r * 2 ^ (F.AXS_REC_SEL 1).lo)
def rolls : State := onAxis axis1 1 fun x => {x with running := true, phase := 5, phaseAt := 0}
def rolls5 : State := { rolls with dt := 5 }
def safeDue : State := onAxis axisOff 1 fun x => {x with closing := true}
def clrDue : State := onAxis (axis1.put (F.AXS_STAT_FAULT 1) 1) 1 fun x => {x with clr := true}
def r3000 : Reading := ⟨3000, false, false⟩
def per (r : Option Reading) (b : Nat) : State := onAxis axis1 1 fun x => {x with law := .waiting, period := some (period0 r), badRun := b, lateRun := b}
def feOver (n : Nat) : State := onAxis (withF (per (some r3000) 0) [(F.AXS_CTRL_FEEN 1, 1), (F.AXS_FE_FETIME 1, 3), (F.AXS_FE_FELIM 1, 0)]) 1 fun x => {x with feRun := n, plans := (⟨2 ^ 40, 0, 0⟩, x.plans.2)}
def rqs (q : DReq) : State := withDrv axis1 fun d => {d with reqs := [q], free := 1600}
def dq1 : DReq := ⟨1, .repeat, -7, false, 1600⟩
def snt : State := withDrv axis1 fun d => {d with sent := [⟨1, 2, 5000⟩, ⟨2, 0, 6000⟩]}
def snt1 : State := withDrv axis1 fun d => {d with sent := [⟨1, 2, 5000⟩]}
def sntRun : State := onAxis snt 1 (fun x => {x with ackRun := 1})

theorem witness_Zones_0 :
    (∃ (s : State) (r : ZRec) (q : List ZRec), s.inReset = false ∧ s.pnt.zoneQ = r :: q ∧ r.kind = ZKind.point ∧ r.item.ctx = none ∧ s.seq.ended = [] ∧ s.pnt.recsHeld = [] ∧ (∀ (z : ZRec), z ∈ q → z.kind ≠ ZKind.mark) ∧ s.synd = [] ∧ r.untested = false)
    ∧ (∃ (s : State) (r : ZRec) (q : List ZRec), s.inReset = false ∧ s.pnt.zoneQ = r :: q ∧ r.kind = ZKind.point ∧ r.item.ctx = none ∧ s.seq.ended = [] ∧ s.pnt.recsHeld = [] ∧ (∀ (z : ZRec), z ∈ q → z.kind ≠ ZKind.mark) ∧ s.synd = [] ∧ r.untested = true) :=
  ⟨⟨zq .point false id, zrec .point false, [zrec .point false], by decide +kernel⟩,
    ⟨zq .point true id, zrec .point true, [zrec .point false], by decide +kernel⟩⟩

theorem witness_Zones_1 :
    ∃ (s : State) (i : Nat) (r : ZRec) (q : List ZRec) (e : Early) (j : Nat), s.inReset = false ∧ s.pnt.zoneQ = r :: q ∧ r.kind = ZKind.withdraw ∧ r.item.ctx = none ∧ s.seq.ended = [] ∧ s.pnt.recsHeld = [] ∧ (∀ (z : ZRec), z ∈ q → z.kind ≠ ZKind.mark) ∧ s.pnt.outstanding = [e] ∧ e.spec = r.spec ∧ e.zones = [i] ∧ s.pnt.zones.nat i = 1 ∧ j ≠ i :=
  ⟨zq .withdraw false (fun p => {p with outstanding := [er], zones := [(0,1),(1,2)]}), 0, zrec .withdraw false, [zrec .point false], er, 1, by decide +kernel⟩

theorem witness_Zones_2 :
    ∃ (s : State) (t : Nat) (i : Nat) (r : ZRec) (q : List ZRec) (e : Early) (j : Nat), s.inReset = false ∧ s.pnt.zoneQ = r :: q ∧ r.kind = ZKind.confirm ∧ r.item.ctx = none ∧ s.seq.ended = [] ∧ s.pnt.recsHeld = [] ∧ (∀ (z : ZRec), z ∈ q → z.kind ≠ ZKind.mark) ∧ s.pnt.outstanding = [e] ∧ e.spec = r.spec ∧ e.zones = [i] ∧ s.pnt.zones.nat i = 1 ∧ s.holdRuns (s.zoneOut i) (s.pnt.zoneTrip.nat i) t = true ∧ j ≠ i :=
  ⟨(zq .confirm false (fun p => {p with outstanding := [er], zones := [(0,1),(1,2)], zoneTrip := [(0, 1)]})).put (F.PNT_ZHOLD_HOLD 0) 5, 5, 0, zrec .confirm false, [zrec .point false], er, 1, by decide +kernel⟩

theorem witness_Zones_3 :
    (∃ (s : State) (n : Fin 4) (t : Nat), s.inReset = false ∧ s.holdRuns (↑n) (s.pnt.outTrip.nat ↑n) t = false)
    ∧ (∃ (s : State) (n : Fin 4) (t : Nat), s.inReset = false ∧ s.holdRuns (↑n) (s.pnt.outTrip.nat ↑n) t = true) :=
  ⟨⟨withF (zq .confirm false (fun p => {p with zones := [(0,2),(1,2)], zoneTrip := [(0, 1)], outTrip := [(0, 1)]})) [(F.PNT_ZHOLD_HOLD 0, 5), (F.PNT_ZOUT_HOLDING, 15)], 0, 80000, by decide +kernel⟩,
    ⟨withF (zq .confirm false (fun p => {p with zones := [(0,2),(1,2)], zoneTrip := [(0, 1)], outTrip := [(0, 1)]})) [(F.PNT_ZHOLD_HOLD 0, 5), (F.PNT_ZOUT_HOLDING, 15)], 0, 79999, by decide +kernel⟩⟩

theorem witness_Zones_4 :
    ∃ (s : State) (src : Src), s.inReset = false ∧ s.hears src = true :=
  ⟨up, .host, by decide +kernel⟩

theorem witness_AxisCommands_0 :
    ∃ (s : State) (src : Src) (a : Fin 4) (v : Word) (b : Fin 4), s.inReset = false ∧ s.hears src = true ∧ s.is (F.AXS_CTRL_EN ↑a) = false ∧ s.axisBarred (↑a) ((F.AXS_CTRL_MODE ↑a).isOf v) = false ∧ s.is (s.axisOwn ↑a) = false ∧ s.axisOn (s.get (F.AXS_SENS_CONV ↑a)) = none ∧ (F.AXS_CTRL_CLR ↑a).isOf v = false ∧ s.synd = [] ∧ b ≠ a :=
  ⟨axisOff, .host, 1, 0x1D#32, Fin.ofNat 4 0, by decide +kernel⟩

theorem witness_AxisCommands_1 :
    ∃ (s : State) (src : Src) (a : Fin 4) (v : Word), s.inReset = false ∧ s.hears src = true ∧ s.synd = [] ∧ (s.axisBarred (↑a) ((F.AXS_CTRL_MODE ↑a).isOf v) = true ∨ s.is (F.AXS_CTRL_EN ↑a) = false ∧ (s.is (s.axisOwn ↑a) = true ∨ (s.axisOn (s.get (F.AXS_SENS_CONV ↑a))).isSome = true) ∨ s.is (F.AXS_CTRL_EN ↑a) = true ∧ (F.AXS_CTRL_MODE ↑a).isOf v ≠ s.is (F.AXS_CTRL_MODE ↑a)) :=
  ⟨up, .host, 1, 0x1D#32, by decide +kernel⟩

theorem witness_AxisCommands_2 :
    ∃ (s : State) (src : Src) (a : Fin 4) (v : Word) (b : Fin 4), s.inReset = false ∧ s.hears src = true ∧ s.is (F.AXS_CTRL_EN ↑a) = true ∧ (F.AXS_CTRL_MODE ↑a).isOf v = s.is (F.AXS_CTRL_MODE ↑a) ∧ (F.AXS_CTRL_CLR ↑a).isOf v = false ∧ b ≠ a :=
  ⟨axis1, .host, 1, 0#32, Fin.ofNat 4 0, by decide +kernel⟩

theorem witness_AxisCommands_3 :
    ∃ (s : State) (src : Src) (a : Fin 4) (v : Word), s.inReset = false ∧ s.hears src = true ∧ s.is (F.AXS_CTRL_EN ↑a) = true ∧ (F.AXS_CTRL_MODE ↑a).isOf v ≠ s.is (F.AXS_CTRL_MODE ↑a) :=
  ⟨axis1, .host, 1, 2#32, by decide +kernel⟩

theorem witness_AxisCommands_4 :
    (∃ (s : State) (src : Src) (a : Fin 4), s.inReset = false ∧ s.hears src = true ∧ s.synd = [] ∧ s.is (F.AXS_STAT_FAULT ↑a) = false)
    ∧ (∃ (s : State) (src : Src) (a : Fin 4) (v : Word) (b : Fin 4), s.inReset = false ∧ s.hears src = true ∧ s.synd = [] ∧ s.is (F.AXS_STAT_FAULT ↑a) = true ∧ s.is (F.AXS_CTRL_EN ↑a) = true ∧ (F.AXS_CTRL_EN ↑a).isOf v = true ∧ (F.AXS_CTRL_MODE ↑a).isOf v = s.is (F.AXS_CTRL_MODE ↑a) ∧ s.axisBarred (↑a) ((F.AXS_CTRL_MODE ↑a).isOf v) = false ∧ b ≠ a) :=
  ⟨⟨axis1, .host, 1, by decide +kernel⟩,
    ⟨axis1.put (F.AXS_STAT_FAULT 1) 1, .host, 1, 0x1D#32 ||| 1#32 <<< (F.AXS_CTRL_CLR 1).lo, Fin.ofNat 4 0, by decide +kernel⟩⟩

theorem witness_AxisCommands_5 :
    (∃ (s : State) (src : Src) (a : Fin 4) (v : Word), s.inReset = false ∧ s.hears src = true ∧ (s.is (F.AXS_CTRL_TRACK ↑a) = true ∨ v = 0#32 ∨ 2 ^ 32 < BitVec.toNat v * 128 * s.get (F.AXS_TIME_PERIOD ↑a)) ∧ s.is (F.AXS_CTRL_TRACK ↑a) = false)
    ∧ (∃ (s : State) (src : Src) (a : Fin 4) (v : Word) (b : Fin 4), s.inReset = false ∧ s.hears src = true ∧ s.is (F.AXS_CTRL_TRACK ↑a) = false ∧ v ≠ 0#32 ∧ BitVec.toNat v * 128 * s.get (F.AXS_TIME_PERIOD ↑a) ≤ 2 ^ 32 ∧ b ≠ a)
    ∧ (∃ (s : State) (src : Src) (a : Fin 4) (v : Word) (b : Fin 4), s.inReset = false ∧ s.hears src = true ∧ s.is (F.AXS_CTRL_TRACK ↑a) = false ∧ v ≠ 0#32 ∧ BitVec.toNat v * 128 * s.get (F.AXS_TIME_PERIOD ↑a) ≤ 2 ^ 32 ∧ (s.axis ↑a).running = true ∧ (s.axis ↑a).phaseAt < s.dt ∧ b ≠ a) :=
  ⟨⟨axis1, .host, 1, 0#32, by decide +kernel⟩,
    ⟨axis1, .host, 1, 335544#32, Fin.ofNat 4 0, by decide +kernel⟩,
    ⟨rolls5, .host, 1, 335544#32, Fin.ofNat 4 0, by decide +kernel⟩⟩

theorem witness_AxisCommands_6 :
    (∃ (s : State) (src : Src) (a : Fin 4) (b : Fin 4), s.inReset = false ∧ s.hears src = true ∧ s.is (F.AXS_CTRL_SRC ↑a) = true ∧ b ≠ a)
    ∧ (∃ (s : State) (src : Src) (a : Fin 4), s.inReset = false ∧ s.hears src = true ∧ s.is (F.AXS_CTRL_SRC ↑a) = false) :=
  ⟨⟨axis1.put (F.AXS_CTRL_SRC 1) 1, .host, 1, Fin.ofNat 4 0, by decide +kernel⟩,
    ⟨axis1, .host, 1, by decide +kernel⟩⟩

theorem witness_AxisCommands_8 :
    (∃ (s : State) (src : Src) (a : Fin 4), s.inReset = false ∧ s.hears src = true ∧ s.synd = [] ∧ (s.solo = false ∨ s.regionsOk ↑a = false))
    ∧ (∃ (s : State) (src : Src) (a : Fin 4) (b : Fin 4), s.inReset = false ∧ s.hears src = true ∧ s.synd = [] ∧ s.solo = true ∧ s.regionsOk ↑a = true ∧ b ≠ a) :=
  ⟨⟨axis1, .host, 1, by decide +kernel⟩,
    ⟨reg1, .host, 1, Fin.ofNat 4 0, by decide +kernel⟩⟩

theorem witness_AxisCommands_9 :
    (∃ (s : State) (src : Src) (a : Fin 4) (v : Word), s.inReset = false ∧ s.hears src = true ∧ ((F.AXS_TRC_MODE ↑a).of v = 3 ∨ (F.AXS_TRC_MODE ↑a).of v ≠ 0 ∧ ((F.AXS_TRC_LEN ↑a).of v = 0 ∨ 256 < (F.AXS_TRC_BASE ↑a).of v + (F.AXS_TRC_LEN ↑a).of v ∨ s.cellarTaken (↑a) ((F.AXS_TRC_BASE ↑a).of v) ((F.AXS_TRC_LEN ↑a).of v) = true)))
    ∧ (∃ (s : State) (src : Src) (a : Fin 4) (v : Word) (b : Fin 4), s.inReset = false ∧ s.hears src = true ∧ (F.AXS_TRC_MODE ↑a).of v ≠ 3 ∧ (F.AXS_TRC_MODE ↑a).of v ≠ 0 ∧ (F.AXS_TRC_LEN ↑a).of v ≠ 0 ∧ (F.AXS_TRC_BASE ↑a).of v + (F.AXS_TRC_LEN ↑a).of v ≤ 256 ∧ s.cellarTaken (↑a) ((F.AXS_TRC_BASE ↑a).of v) ((F.AXS_TRC_LEN ↑a).of v) = false ∧ b ≠ a)
    ∧ (∃ (s : State) (src : Src) (a : Fin 4) (v : Word), s.inReset = false ∧ s.hears src = true ∧ (F.AXS_TRC_MODE ↑a).of v ≠ 3 ∧ (F.AXS_TRC_MODE ↑a).of v = 0) :=
  ⟨⟨axis1, .host, 1, tv 3 1 0, by decide +kernel⟩,
    ⟨axis1, .host, 1, tv 1 6 250, Fin.ofNat 4 0, by decide +kernel⟩,
    ⟨axis1, .host, 1, tv 0 7 250, by decide +kernel⟩⟩

theorem witness_AxisPeriod_1 :
    ∃ (s : State) (a : Fin 4) (t : Nat), s.inReset = false ∧ s.isSample (↑a) t = false :=
  ⟨smp .idle, 1, 1601, by decide +kernel⟩

theorem witness_AxisCommands_7 :
    (∃ (s : State) (src : Src) (a : Fin 4) (v : Word) (r : Nat) (b : Fin 4), s.inReset = false ∧ s.hears src = true ∧ s.synd = [] ∧ r = (F.AXS_REC_SEL ↑a).of v ∧ r ≤ 1 ∧ r ≠ s.get (F.AXS_REC_CUR ↑a) ∧ s.recOk (↑a) r = true ∧ s.solo = false ∧ s.is (F.AXS_CTRL_EN ↑a) = true ∧ b ≠ a)
    ∧ (∃ (s : State) (src : Src) (a : Fin 4) (v : Word) (r : Nat), s.inReset = false ∧ s.hears src = true ∧ s.synd = [] ∧ r = (F.AXS_REC_SEL ↑a).of v ∧ (1 < r ∨ r = s.get (F.AXS_REC_CUR ↑a) ∨ s.recOk (↑a) r = false ∨ s.solo = true))
    ∧ (∃ (s : State) (src : Src) (a : Fin 4) (v : Word) (r : Nat) (b : Fin 4), s.inReset = false ∧ s.hears src = true ∧ s.synd = [] ∧ r = (F.AXS_REC_SEL ↑a).of v ∧ r ≤ 1 ∧ r ≠ s.get (F.AXS_REC_CUR ↑a) ∧ s.recOk (↑a) r = true ∧ s.solo = false ∧ s.is (F.AXS_CTRL_EN ↑a) = false ∧ b ≠ a) :=
  ⟨⟨axis1, .host, 1, rv 1, 1, Fin.ofNat 4 0, by decide +kernel⟩,
    ⟨axis1, .host, 1, rv 2, 2, by decide +kernel⟩,
    ⟨axisOff, .host, 1, rv 1, 1, Fin.ofNat 4 0, by decide +kernel⟩⟩

theorem witness_AxisCommands_10 :
    (∃ (s : State) (a : Fin 4) (t : Nat) (n : Nat) (c : Int) (q : Int) (j : Int) (wait : Bool) (b : Fin 4), s.inReset = false ∧ s.is F.SYS_STAT_TBLOCK = true ∧ s.is (F.AXS_CTRL_EN ↑a) = true ∧ s.is (F.AXS_CTRL_MODE ↑a) = true ∧ (s.axis ↑a).running = true ∧ 2 ^ 32 ≤ s.phaseSum (↑a) t ∧ s.phaseSum (↑a) t < 2 ^ 32 + s.get (F.AXS_FTW_FTW ↑a) ∧ s.is (F.AXS_CTRL_TRACK ↑a) = false ∧ (s.axis ↑a).starting = false ∧ (s.axis ↑a).sums = (n, c, q, j) ∧ (wait = Option.any (fun p => decide (p.t < t) && p.reading.isNone) (s.axis ↑a).period) ∧ wait = false ∧ 4 ≤ n ∧ b ≠ a)
    ∧ (∃ (s : State) (a : Fin 4) (t : Nat) (n : Nat) (c : Int) (q : Int) (j : Int) (wait : Bool) (b : Fin 4), s.inReset = false ∧ s.is F.SYS_STAT_TBLOCK = true ∧ s.is (F.AXS_CTRL_EN ↑a) = true ∧ s.is (F.AXS_CTRL_MODE ↑a) = true ∧ (s.axis ↑a).running = true ∧ 2 ^ 32 ≤ s.phaseSum (↑a) t ∧ s.phaseSum (↑a) t < 2 ^ 32 + s.get (F.AXS_FTW_FTW ↑a) ∧ s.is (F.AXS_CTRL_TRACK ↑a) = false ∧ (s.axis ↑a).starting = false ∧ (s.axis ↑a).sums = (n, c, q, j) ∧ (wait = Option.any (fun p => decide (p.t < t) && p.reading.isNone) (s.axis ↑a).period) ∧ wait = false ∧ (wait = true ∨ n < 4) ∧ b ≠ a) :=
  ⟨⟨rsn .idle 4, 1, 101, 4, 7 * one60, -900 * one60, 5, false, Fin.ofNat 4 0, by decide +kernel⟩,
    ⟨rsn .idle 3, 1, 101, 3, 7 * one60, -900 * one60, 5, false, Fin.ofNat 4 0, by decide +kernel⟩⟩

theorem witness_AxisPeriod_0 :
    ∃ (s : State) (a : Fin 4) (t : Nat) (n : Fin 4) (b : Fin 4), s.inReset = false ∧ s.is F.SYS_STAT_TBLOCK = true ∧ s.isSample (↑a) t = true ∧ s.is (F.AXS_CTRL_EN ↑a) = true ∧ s.get (F.AXS_TRC_MODE ↑a) = 0 ∧ s.is (F.AXS_REC_PENDV ↑a) = false ∧ s.emi.tq = [] ∧ (∀ (p : Period), (s.axis ↑a).period = some p → p.t < t) ∧ s.synd = [] ∧ (s.axis ↑a).law ≠ LawState.waiting ∧ (s.axis ↑a).law ≠ LawState.abandoned ∧ (s.axis ↑a).clr = false ∧ (s.axis ↑a).closing = false ∧ (s.axis ↑a).starting = false ∧ (s.axis ↑a).points = [] ∧ (s.axis ↑a).recNext = none ∧ s.get (F.AXS_SENS_CONV ↑a) = ↑n ∧ b ≠ a :=
  ⟨smp .idle, 1, 1600, 2, Fin.ofNat 4 0, by decide +kernel⟩

theorem witness_AxisPeriod_2 :
    ∃ (s : State) (a : Fin 4) (t : Nat) (b : Fin 4), s.inReset = false ∧ s.is F.SYS_STAT_TBLOCK = true ∧ s.isSample (↑a) t = true ∧ s.is (F.AXS_CTRL_EN ↑a) = false ∧ s.emi.tq = [] ∧ (s.axis ↑a).period = none ∧ (s.axis ↑a).clr = false ∧ (s.axis ↑a).closing = true ∧ b ≠ a :=
  ⟨safeDue, 1, 1600, Fin.ofNat 4 0, by decide +kernel⟩

theorem witness_AxisPeriod_3 :
    ∃ (s : State) (a : Fin 4) (t : Nat) (b : Fin 4), s.inReset = false ∧ s.is F.SYS_STAT_TBLOCK = true ∧ s.isSample (↑a) t = true ∧ s.is (F.AXS_CTRL_EN ↑a) = true ∧ s.get (F.AXS_TRC_MODE ↑a) = 0 ∧ s.is (F.AXS_REC_PENDV ↑a) = false ∧ s.emi.tq = [] ∧ (∀ (p : Period), (s.axis ↑a).period = some p → p.t < t) ∧ s.synd = [] ∧ (s.axis ↑a).clr = true ∧ s.is (F.AXS_STAT_FAULT ↑a) = true ∧ (s.axis ↑a).closing = false ∧ (s.axis ↑a).points = [] ∧ (s.axis ↑a).recNext = none ∧ b ≠ a :=
  ⟨clrDue, 1, 1600, Fin.ofNat 4 0, by decide +kernel⟩

theorem witness_AxisPeriod_4 :
    (∃ (s : State) (a : Fin 4) (p : Period) (b : Fin 4), s.inReset = false ∧ (s.axis ↑a).law = LawState.waiting ∧ (s.axis ↑a).period = some p ∧ p.reading.isSome = true ∧ s.lawTurn (↑a) p.t = true ∧ s.is (F.AXS_STAT_FAULT ↑a) = false ∧ s.dt + 64 ≤ p.t + 16 * s.get (F.AXS_TIME_PERIOD ↑a) ∧ (s.axis ↑a).starting = false ∧ s.synd = [] ∧ (s.is (F.AXS_CTRL_FEEN ↑a) = false ∨ (s.followError ↑a).natAbs ≤ s.get (F.AXS_FE_FELIM ↑a)) ∧ b ≠ a)
    ∧ (∃ (s : State) (a : Fin 4) (p : Period) (b : Fin 4), s.inReset = false ∧ (s.axis ↑a).law = LawState.waiting ∧ (s.axis ↑a).period = some p ∧ p.reading.isSome = true ∧ s.lawTurn (↑a) p.t = true ∧ s.is (F.AXS_STAT_FAULT ↑a) = false ∧ s.dt + 64 ≤ p.t + 16 * s.get (F.AXS_TIME_PERIOD ↑a) ∧ (s.axis ↑a).starting = false ∧ s.synd = [] ∧ s.is (F.AXS_CTRL_FEEN ↑a) = true ∧ s.get (F.AXS_FE_FELIM ↑a) < (s.followError ↑a).natAbs ∧ b ≠ a)
    ∧ (∃ (s : State) (a : Fin 4) (p : Period) (b : Fin 4), s.inReset = false ∧ (s.axis ↑a).law = LawState.waiting ∧ (s.axis ↑a).period = some p ∧ p.reading.isSome = true ∧ s.lawTurn (↑a) p.t = true ∧ s.is (F.AXS_STAT_FAULT ↑a) = false ∧ s.dt + 64 ≤ p.t + 16 * s.get (F.AXS_TIME_PERIOD ↑a) ∧ (s.axis ↑a).starting = false ∧ s.synd = [] ∧ s.is (F.AXS_CTRL_FEEN ↑a) = true ∧ s.get (F.AXS_FE_FELIM ↑a) < (s.followError ↑a).natAbs ∧ s.get (F.AXS_FE_FETIME ↑a) ≤ (s.axis ↑a).feRun + 1 ∧ b ≠ a) :=
  ⟨⟨per (some r3000) 0, 1, period0 (some r3000), Fin.ofNat 4 0, by decide +kernel⟩,
    ⟨feOver 1, 1, period0 (some r3000), Fin.ofNat 4 0, by decide +kernel⟩,
    ⟨feOver 2, 1, period0 (some r3000), Fin.ofNat 4 0, by decide +kernel⟩⟩

theorem witness_AxisPeriod_5 :
    (∃ (s : State) (a : Fin 4) (t : Nat) (p : Period) (c : Instr), s.inReset = false ∧ (s.axis ↑a).period = some p ∧ (s.axis ↑a).law = LawState.waiting ∧ s.is (F.AXS_STAT_FAULT ↑a) = false ∧ (s.axis ↑a).cycleDue = false ∧ (c = Instr.lawDeadline a t ∧ p.t + 16 * s.get (F.AXS_TIME_PERIOD ↑a) ≤ t + 64 ∨ c = Instr.lawCompute a ∧ p.reading.isSome = true ∧ s.lawTurn (↑a) p.t = true ∧ p.t + 16 * s.get (F.AXS_TIME_PERIOD ↑a) < s.dt + 64))
    ∧ (∃ (s : State) (a : Fin 4) (t : Nat) (p : Period) (c : Instr), s.inReset = false ∧ (s.axis ↑a).period = some p ∧ (s.axis ↑a).law = LawState.waiting ∧ s.is (F.AXS_STAT_FAULT ↑a) = false ∧ (s.axis ↑a).cycleDue = false ∧ (c = Instr.lawDeadline a t ∧ p.t + 16 * s.get (F.AXS_TIME_PERIOD ↑a) ≤ t + 64 ∨ c = Instr.lawCompute a ∧ p.reading.isSome = true ∧ s.lawTurn (↑a) p.t = true ∧ p.t + 16 * s.get (F.AXS_TIME_PERIOD ↑a) < s.dt + 64) ∧ 2 ≤ (s.axis ↑a).lateRun + 1) :=
  ⟨⟨per none 0, 1, 3136, period0 none, .lawDeadline 1 3136, by decide +kernel⟩,
    ⟨per none 1, 1, 3136, period0 none, .lawDeadline 1 3136, by decide +kernel⟩⟩

theorem witness_AxisPeriod_6 :
    ∃ (s : State) (a : Fin 4) (t : Nat) (p : Period), s.inReset = false ∧ (s.axis ↑a).period = some p ∧ t + 64 < p.t + 16 * s.get (F.AXS_TIME_PERIOD ↑a) :=
  ⟨per none 0, 1, 3135, period0 none, by decide +kernel⟩

theorem witness_AxisPeriod_7 :
    (∃ (s : State) (t : Nat) (q : DReq), s.inReset = false ∧ s.is F.SYS_STAT_TBLOCK = true ∧ s.drv.reqs = [q] ∧ q.axis < 4 ∧ s.firstEdge t = true)
    ∧ (∃ (s : State) (t : Nat) (q : DReq), s.inReset = false ∧ s.is F.SYS_STAT_TBLOCK = true ∧ s.drv.reqs = [q] ∧ q.axis < 4 ∧ s.firstEdge t = false) :=
  ⟨⟨rqs dq1, 1600, dq1, by decide +kernel⟩,
    ⟨rqs dq1, 1664, dq1, by decide +kernel⟩⟩

theorem witness_AxisPeriod_8 :
    (∃ (s : State) (a : Fin 4) (n : BitVec 2) (stat : Bool) (t : Nat) (f : DSent) (l : List DSent) (b : Fin 4), s.inReset = false ∧ s.drv.sent = f :: l ∧ (∀ (g : DSent), g ∈ s.drv.sent → t ≤ g.until_) ∧ f.axis = ↑a ∧ f.seq = n.toNat ∧ s.is (F.AXS_STAT_FAULT ↑a) = false ∧ stat = false ∧ b ≠ a)
    ∧ (∃ (s : State) (a : Fin 4) (n : BitVec 2) (stat : Bool) (t : Nat) (f : DSent) (l : List DSent), s.inReset = false ∧ s.drv.sent = f :: l ∧ (∀ (g : DSent), g ∈ s.drv.sent → t ≤ g.until_) ∧ f.axis = ↑a ∧ f.seq = n.toNat ∧ s.is (F.AXS_STAT_FAULT ↑a) = false ∧ stat = true) :=
  ⟨⟨snt, 1, 2#2, false, 1600, ⟨1, 2, 5000⟩, [⟨2, 0, 6000⟩], Fin.ofNat 4 0, by decide +kernel⟩,
    ⟨snt, 1, 2#2, true, 5000, ⟨1, 2, 5000⟩, [⟨2, 0, 6000⟩], by decide +kernel⟩⟩

theorem witness_AxisPeriod_9 :
    ∃ (s : State), s.inReset = false ∧ s.drv.sent = [] :=
  ⟨axis1, by decide +kernel⟩

theorem witness_AxisPeriod_10 :
    ∃ (s : State) (a : Fin 4) (n : BitVec 2) (t : Nat) (f : DSent) (l : List DSent), s.inReset = false ∧ s.drv.sent = f :: l ∧ (∀ (g : DSent), g ∈ s.drv.sent → t ≤ g.until_) ∧ f.axis < 4 ∧ (f.axis ≠ ↑a ∨ f.seq ≠ n.toNat) ∧ (s.axis f.axis).ackRun = 0 :=
  ⟨snt, 1, 3#2, 1600, ⟨1, 2, 5000⟩, [⟨2, 0, 6000⟩], by decide +kernel⟩

theorem witness_AxisPeriod_11 :
    ∃ (s : State) (t : Nat) (f : DSent), s.inReset = false ∧ s.drv.sent = [f] ∧ f.until_ < t ∧ f.axis < 4 ∧ (s.axis f.axis).ackRun = 0 :=
  ⟨snt1, 5001, ⟨1, 2, 5000⟩, by decide +kernel⟩

theorem witness_AxisPeriod_12 :
    (∃ (s : State) (t : Nat) (f : DSent) (l : List DSent), s.inReset = false ∧ s.drv.sent = f :: l ∧ f.axis < 4 ∧ t ≤ f.until_)
    ∧ (∃ (s : State) (t : Nat) (f : DSent) (l : List DSent), s.inReset = false ∧ s.drv.sent = f :: l ∧ f.axis < 4 ∧ f.until_ < t ∧ s.is (F.AXS_STAT_FAULT f.axis) = false)
    ∧ (∃ (s : State) (t : Nat) (f : DSent) (l : List DSent), s.inReset = false ∧ s.drv.sent = f :: l ∧ f.axis < 4 ∧ f.until_ < t ∧ s.is (F.AXS_STAT_FAULT f.axis) = false ∧ 2 ≤ (s.axis f.axis).ackRun + 1) :=
  ⟨⟨snt, 5000, ⟨1, 2, 5000⟩, [⟨2, 0, 6000⟩], by decide +kernel⟩,
    ⟨snt, 5001, ⟨1, 2, 5000⟩, [⟨2, 0, 6000⟩], by decide +kernel⟩,
    ⟨sntRun, 5001, ⟨1, 2, 5000⟩, [⟨2, 0, 6000⟩], by decide +kernel⟩⟩

/-! ### Witnesses: converters, meters and the Press -/

def hk : State := withF (withSns up fun x => {x with step := 1}) [(F.EMI_DRCFG_EN, 1), (F.EMI_DRCFG_CONV, 2), (F.EMI_DRCFG_INPUT, 9), (F.SNS_HKMASK_MASK 2, 0x8001), (F.SNS_CFG_STEP, 5)]
def rq_s1 (k : ConvKind) (m : Nat) : Conv := ⟨k, m, 100⟩
def asked (k : ConvKind) : State := onAdc axis1 fun a => {a with reqs := [rq_s1 k 7]}
def gap : State := withF (asked .demand) [(F.AXS_TIME_PERIOD 1, 1000)]
def idleAdc : State := onAdc up fun a => {a with reqs := [rq_s1 .host 7], free := 1700}
def busyAdc (k : ConvKind) : State := onAdc axis1 fun a => {a with runs := [rq_s1 k 7, rq_s1 .host 3], recover := some 0}
def drT : State := (busyAdc .derate).setBytes 0x840800 [2]
def drv2 : State := ((drT.setBytes 0x840820 [0, 0, 0, 0, 50]).setBytes 0x840830 [0, 4, 0, 0, 70, 0, 0, 0, 3, 1]).put (ownFld 2 7) 2
def axr_s1 (st : Bool) (b : Nat) : State := onAxis (busyAdc (.axis 1)) 1 fun x => {x with period := some {period0 none with t := 100}, starting := st, badRun := b}
def cv : Word := BitVec.ofNat 32 (2 * 2 ^ F.SNS_CONV_CONV.lo + 5 * 2 ^ F.SNS_CONV_INPUT.lo)
def owned3 : State := axis1.put (ownFld 2 4) 3
def ck : State := withSns up fun x => {x with check := some (2, 3, 4, 5, 100)}
def fm (src div idx : Nat) : Word := BitVec.ofNat 32 (src * 2 ^ (F.SNS_FMCFG_SRC 7).lo + div * 2 ^ (F.SNS_FMCFG_DIV 7).lo + idx * 2 ^ (F.SNS_FMCFG_IDX 7).lo)
def mtr : State := withF up [(F.SNS_FMGATE_GATE 7, 10000)]
def men (src : Nat) (m : Meter) : State := onMeter (withF mtr [(F.SNS_FMCFG_EN 7, 1), (F.SNS_FMCFG_SRC 7, src), (F.SNS_FMCFG_DIV 7, 3)]) fun _ => m
def strm (j : Job) : State := pressing (withJobs up 0 [j]) 3 (.stream 0 j.id)
def inp : List Byte := (List.range 40).map fun i => BitVec.ofNat 8 (i % 3)
def hst (h : PressHost) : State := pressing (up.setBytes 0x401000 h.input) 3 (.host h)
def hostC : PressHost := {host0 1 inp with ctl := 0x21}
def jr : Job := {job0 (.running 3) with items := [item0 (some 4)]}
def cRet : Ctx := {ctx0 with state := .retained}
def strm3 : State := pressing (withJobs up 3 [job0 (.running 3)]) 3 (.stream 3 6)

theorem witness_Converters_0 :
    ∃ (s : State) (t : Nat), s.inReset = false ∧ s.is F.SYS_STAT_TBLOCK = true ∧ t % (1600 * s.sns.step) = 0 ∧ (∀ (b : Nat), s.sns.stepAt = some b → b < t) :=
  ⟨hk, 1600, by decide +kernel⟩

theorem witness_Converters_1 :
    ∃ (s : State) (t : Nat), s.inReset = false ∧ t % (1600 * s.sns.step) ≠ 0 :=
  ⟨hk, 1601, by decide +kernel⟩

theorem witness_Converters_2 :
    ∃ (s : State) (n : Fin 4) (t : Nat) (q : Conv) (m : Fin 4), s.inReset = false ∧ s.is F.SYS_STAT_TBLOCK = true ∧ (firstConv (List.filter (fun x => decide (x.start ≤ t)) s.sns.adcs[n].reqs) = some q) ∧ s.convEdge ↑n = some t ∧ m ≠ n :=
  ⟨gap, 2, 100, rq_s1 .demand 7, Fin.ofNat 4 0, by decide +kernel⟩

theorem witness_Converters_3 :
    ∃ (l : List Conv) (q : Conv) (r : Conv), firstConv l = some q ∧ r ∈ l :=
  ⟨[rq_s1 .host 3, rq_s1 .derate 7, rq_s1 .demand 1], rq_s1 .derate 7, rq_s1 .host 3, by decide +kernel⟩

theorem witness_Converters_4 :
    (∃ (s : State) (n : Fin 4) (q : Conv) (x : Nat), s.sns.adcs[n].reqs = [q] ∧ x = max s.sns.adcs[n].free q.start ∧ s.axisOn ↑n = none)
    ∧ (∃ (s : State) (n : Fin 4) (q : Conv) (x : Nat) (a : Nat), s.sns.adcs[n].reqs = [q] ∧ x = max s.sns.adcs[n].free q.start ∧ s.axisOn ↑n = some a) :=
  ⟨⟨idleAdc, 2, rq_s1 .host 7, 1700, by decide +kernel⟩,
    ⟨gap, 2, rq_s1 .demand 7, 100, 1, by decide +kernel⟩⟩

theorem witness_Converters_5 :
    ∃ (s : State) (n : Fin 4) (t : Nat), s.inReset = false ∧ s.convEdge ↑n ≠ some t :=
  ⟨gap, 2, 101, by decide +kernel⟩

theorem witness_Converters_6 :
    (∃ (s : State) (n : Fin 4) (v : Int) (t : Nat) (q : Conv) (l : List Conv) (r : Reading) (m : Fin 4), s.inReset = false ∧ s.sns.adcs[n].runs = q :: l ∧ q.start + 1600 ≤ t ∧ q.input < 16 ∧ (q.kind = ConvKind.host ∨ q.kind = ConvKind.demand) ∧ s.get (ownFld (↑n) q.input) ≠ 2 ∧ (r = if v < 0 then { code := 0, ovr := false, undr := true } else if 1600000000 ≤ v then { code := 4095, ovr := true, undr := false } else { code := v.toNat / 390625, ovr := false, undr := false }) ∧ r.ovr = true ∧ q.kind = ConvKind.demand ∧ m ≠ n)
    ∧ (∃ (s : State) (n : Fin 4) (v : Int) (t : Nat) (q : Conv) (l : List Conv) (r : Reading) (m : Fin 4), s.inReset = false ∧ s.sns.adcs[n].runs = q :: l ∧ q.start + 1600 ≤ t ∧ q.input < 16 ∧ (q.kind = ConvKind.host ∨ q.kind = ConvKind.demand) ∧ s.get (ownFld (↑n) q.input) ≠ 2 ∧ (r = if v < 0 then { code := 0, ovr := false, undr := true } else if 1600000000 ≤ v then { code := 4095, ovr := true, undr := false } else { code := v.toNat / 390625, ovr := false, undr := false }) ∧ r.undr = true ∧ m ≠ n) :=
  ⟨⟨busyAdc .demand, 2, 1600000000, 1700, rq_s1 .demand 7, [rq_s1 .host 3], ⟨0xFFF, true, false⟩, Fin.ofNat 4 0, by decide +kernel⟩,
    ⟨busyAdc .host, 2, -1, 1700, rq_s1 .host 7, [rq_s1 .host 3], ⟨0, false, true⟩, Fin.ofNat 4 0, by decide +kernel⟩⟩

theorem witness_Converters_7 :
    (∃ (s : State) (n : Fin 4) (v : Int) (t : Nat) (q : Conv) (l : List Conv), s.inReset = false ∧ s.sns.adcs[n].runs = q :: l ∧ q.start + 1600 ≤ t ∧ q.input < 16 ∧ (q.kind = ConvKind.derate ∨ q.kind = ConvKind.host ∨ q.kind = ConvKind.demand) ∧ s.get (ownFld (↑n) q.input) = 2 ∧ s.synd = [] ∧ s.derateCount ≠ 0 ∧ s.derateEntry (readingOf v) ≠ s.get F.EMI_STAT_DRENT ∧ s.num (derateAt (s.derateEntry (readingOf v)) + 8) 1 < 8)
    ∧ (∃ (s : State) (n : Fin 4) (v : Int) (t : Nat) (q : Conv) (l : List Conv), s.inReset = false ∧ s.sns.adcs[n].runs = q :: l ∧ q.start + 1600 ≤ t ∧ q.input < 16 ∧ (q.kind = ConvKind.derate ∨ q.kind = ConvKind.host ∨ q.kind = ConvKind.demand) ∧ s.get (ownFld (↑n) q.input) = 2 ∧ s.synd = [] ∧ s.derateCount ≠ 0 ∧ s.derateEntry (readingOf v) = s.get F.EMI_STAT_DRENT) :=
  ⟨⟨drv2, 2, 400000000, 1700, rq_s1 .derate 7, [rq_s1 .host 3], by decide +kernel⟩,
    ⟨drv2.put F.EMI_STAT_DRENT 1, 2, 400000000, 1700, rq_s1 .derate 7, [rq_s1 .host 3], by decide +kernel⟩⟩

theorem witness_Converters_8 :
    ∃ (s : State), s.get F.EMI_STAT_DRENT = 0 ∧ s.is F.EMI_DRCFG_INV = false ∧ s.synd = [] :=
  ⟨drv2, by decide +kernel⟩

theorem witness_Converters_9 :
    (∃ (s : State) (n : Fin 4) (a : Fin 4) (v : Int) (t : Nat) (q : Conv) (l : List Conv) (p : Period) (b : Fin 4), s.inReset = false ∧ s.sns.adcs[n].runs = q :: l ∧ q.start + 1600 ≤ t ∧ q.kind = ConvKind.axis ↑a ∧ (s.axis ↑a).period = some p ∧ p.t = q.start ∧ p.reading = none ∧ 0 ≤ v ∧ v < 1600000000 ∧ s.is (F.AXS_CTRL_MODE ↑a) = false ∧ (s.axis ↑a).cycleDue = false ∧ s.is (F.AXS_SCHED_EN ↑a) = false ∧ (s.axis ↑a).starting = true ∧ b ≠ a)
    ∧ (∃ (s : State) (n : Fin 4) (a : Fin 4) (v : Int) (t : Nat) (q : Conv) (l : List Conv) (p : Period) (b : Fin 4), s.inReset = false ∧ s.sns.adcs[n].runs = q :: l ∧ q.start + 1600 ≤ t ∧ q.kind = ConvKind.axis ↑a ∧ (s.axis ↑a).period = some p ∧ p.t = q.start ∧ p.reading = none ∧ 0 ≤ v ∧ v < 1600000000 ∧ s.is (F.AXS_CTRL_MODE ↑a) = false ∧ (s.axis ↑a).cycleDue = false ∧ s.is (F.AXS_SCHED_EN ↑a) = false ∧ (s.axis ↑a).starting = false ∧ b ≠ a) :=
  ⟨⟨axr_s1 true 1, 2, 1, 0, 1700, rq_s1 (.axis 1) 7, [rq_s1 .host 3], {period0 none with t := 100}, Fin.ofNat 4 0, by decide +kernel⟩,
    ⟨axr_s1 false 1, 2, 1, 1599999999, 1700, rq_s1 (.axis 1) 7, [rq_s1 .host 3], {period0 none with t := 100}, Fin.ofNat 4 0, by decide +kernel⟩⟩

theorem witness_Converters_10 :
    (∃ (s : State) (n : Fin 4) (a : Fin 4) (v : Int) (t : Nat) (q : Conv) (l : List Conv) (p : Period), s.inReset = false ∧ s.sns.adcs[n].runs = q :: l ∧ q.start + 1600 ≤ t ∧ q.kind = ConvKind.axis ↑a ∧ (s.axis ↑a).period = some p ∧ p.t = q.start ∧ p.reading = none ∧ (v < 0 ∨ 1600000000 ≤ v) ∧ (s.axis ↑a).cycleDue = false ∧ s.is (F.AXS_STAT_FAULT ↑a) = false)
    ∧ (∃ (s : State) (n : Fin 4) (a : Fin 4) (v : Int) (t : Nat) (q : Conv) (l : List Conv) (p : Period), s.inReset = false ∧ s.sns.adcs[n].runs = q :: l ∧ q.start + 1600 ≤ t ∧ q.kind = ConvKind.axis ↑a ∧ (s.axis ↑a).period = some p ∧ p.t = q.start ∧ p.reading = none ∧ (v < 0 ∨ 1600000000 ≤ v) ∧ (s.axis ↑a).cycleDue = false ∧ s.is (F.AXS_STAT_FAULT ↑a) = false ∧ 2 ≤ (s.axis ↑a).badRun + 1) :=
  ⟨⟨axr_s1 false 0, 2, 1, -1, 1700, rq_s1 (.axis 1) 7, [rq_s1 .host 3], {period0 none with t := 100}, by decide +kernel⟩,
    ⟨axr_s1 false 1, 2, 1, 1600000000, 1700, rq_s1 (.axis 1) 7, [rq_s1 .host 3], {period0 none with t := 100}, by decide +kernel⟩⟩

theorem witness_Converters_11 :
    (∃ (s : State) (n : Fin 4) (v : Int) (t : Nat) (code : Nat) (tol : Nat) (q : Conv) (l : List Conv) (r : Nat), s.inReset = false ∧ s.sns.adcs[n].runs = q :: l ∧ q.start + 1600 ≤ t ∧ q.kind = ConvKind.check code tol ∧ q.input < 16 ∧ r = (readingOf v).code ∧ ((r : Int) - (4 * code + 2 : Nat)).natAbs ≤ tol)
    ∧ (∃ (s : State) (n : Fin 4) (v : Int) (t : Nat) (code : Nat) (tol : Nat) (q : Conv) (l : List Conv) (r : Nat), s.inReset = false ∧ s.sns.adcs[n].runs = q :: l ∧ q.start + 1600 ≤ t ∧ q.kind = ConvKind.check code tol ∧ q.input < 16 ∧ r = (readingOf v).code ∧ tol < ((r : Int) - (4 * code + 2 : Nat)).natAbs) :=
  ⟨⟨busyAdc (.check 500 2), 2, 782812499, 1700, 500, 2, rq_s1 (.check 500 2) 7, [rq_s1 .host 3], 2003, by decide +kernel⟩,
    ⟨busyAdc (.check 500 2), 2, 783203125, 1700, 500, 2, rq_s1 (.check 500 2) 7, [rq_s1 .host 3], 2005, by decide +kernel⟩⟩

theorem witness_Converters_12 :
    (∃ (s : State) (src : Src) (v : Word) (n : Fin 4) (m : Fin 4), s.inReset = false ∧ s.hears src = true ∧ F.SNS_CONV_CONV.of v = ↑n ∧ s.is F.SNS_CONV_BUSY = false ∧ m ≠ n)
    ∧ (∃ (s : State) (src : Src) (v : Word) (n : Fin 4) (m : Fin 4), s.inReset = false ∧ s.hears src = true ∧ F.SNS_CONV_CONV.of v = ↑n ∧ s.is F.SNS_CONV_BUSY = true ∧ m ≠ n) :=
  ⟨⟨up, .host, cv, 2, Fin.ofNat 4 0, by decide +kernel⟩,
    ⟨up.put F.SNS_CONV_BUSY 1, .host, cv, 2, Fin.ofNat 4 0, by decide +kernel⟩⟩

theorem witness_Converters_13 :
    (∃ (s : State) (src : Src) (n : Fin 4) (v : Word) (mask : Nat), s.inReset = false ∧ s.hears src = true ∧ mask = (F.SNS_HKMASK_MASK ↑n).of v ∧ (∃ m : Fin 16, bit mask ↑m = true ∧ s.is (ownFld ↑n ↑m) = true ∧ s.get (ownFld ↑n ↑m) ≠ 3))
    ∧ (∃ (s : State) (src : Src) (n : Fin 4) (v : Word) (mask : Nat) (m : Fin 16), s.inReset = false ∧ s.hears src = true ∧ mask = (F.SNS_HKMASK_MASK ↑n).of v ∧ (∀ (m : Fin 16), bit mask ↑m = true → s.is (ownFld ↑n ↑m) = false ∨ s.get (ownFld ↑n ↑m) = 3)) :=
  ⟨⟨axis1, .host, 2, 8#32, 8, by decide +kernel⟩,
    ⟨owned3, .host, 2, 0x8001#32, 0x8001, Fin.ofNat 16 0, by decide +kernel⟩⟩

theorem witness_Converters_14 :
    (∃ (s : State) (src : Src), s.inReset = false ∧ s.hears src = true ∧ s.is F.SNS_CHK_BUSY = false)
    ∧ (∃ (s : State) (src : Src), s.inReset = false ∧ s.hears src = true ∧ s.is F.SNS_CHK_BUSY = true) :=
  ⟨⟨up, .host, by decide +kernel⟩,
    ⟨up.put F.SNS_CHK_BUSY 1, .host, by decide +kernel⟩⟩

theorem witness_Converters_15 :
    (∃ (s : State) (t : Nat) (code : Nat) (tol : Nat) (t0 : Nat) (n : Fin 4) (m : Nat), s.inReset = false ∧ s.sns.check = some (↑n, m, code, tol, t0) ∧ t < t0 + 3200)
    ∧ (∃ (s : State) (t : Nat) (code : Nat) (tol : Nat) (t0 : Nat) (n : Fin 4) (m : Nat) (k : Fin 4), s.inReset = false ∧ s.sns.check = some (↑n, m, code, tol, t0) ∧ t0 + 3200 ≤ t ∧ k ≠ n) :=
  ⟨⟨ck, 3299, 4, 5, 100, 2, 3, by decide +kernel⟩,
    ⟨ck, 3300, 4, 5, 100, 2, 3, Fin.ofNat 4 0, by decide +kernel⟩⟩

theorem witness_Converters_16 :
    (∃ (s : State) (src : Src) (i : Fin 8) (v : Word), s.inReset = false ∧ s.hears src = true ∧ (s.is (F.SNS_FMCFG_EN ↑i) = true ∨ s.meterBarred (↑i) v = true) ∧ s.is (F.SNS_FMCFG_EN ↑i) = false)
    ∧ (∃ (s : State) (src : Src) (i : Fin 8) (v : Word) (j : Fin 8), s.inReset = false ∧ s.hears src = true ∧ s.is (F.SNS_FMCFG_EN ↑i) = false ∧ s.meterBarred (↑i) v = false ∧ j ≠ i) :=
  ⟨⟨mtr, .host, 7, fm 0 1 0, by decide +kernel⟩,
    ⟨mtr, .host, 7, fm 7 1 0, Fin.ofNat 8 0, by decide +kernel⟩⟩

theorem witness_Converters_17 :
    ∃ (s : State) (i : Fin 8) (x : Nat), s.inReset = false ∧ s.sns.meters[i].given.head? ≠ some x :=
  ⟨mtr, 7, 5, by decide +kernel⟩

theorem witness_Converters_18 :
    (∃ (s : State) (i : Fin 8) (y : Nat) (l : List Nat) (m : Meter) (j : Fin 8), s.inReset = false ∧ m = s.sns.meters[i] ∧ m.given = y :: l ∧ m.count % s.get (F.SNS_FMCFG_DIV ↑i) ≠ 0 ∧ j ≠ i)
    ∧ (∃ (s : State) (i : Fin 8) (y : Nat) (l : List Nat) (m : Meter) (j : Fin 8), s.inReset = false ∧ m = s.sns.meters[i] ∧ m.given = y :: l ∧ m.count % s.get (F.SNS_FMCFG_DIV ↑i) = 0 ∧ (∀ (k : Nat), m.last = some k → k + 409600 ≤ y) ∧ j ≠ i)
    ∧ (∃ (s : State) (i : Fin 8) (y : Nat) (l : List Nat) (m : Meter) (j : Fin 8), s.inReset = false ∧ m = s.sns.meters[i] ∧ m.given = y :: l ∧ m.count % s.get (F.SNS_FMCFG_DIV ↑i) = 0 ∧ (∃ k, m.last = some k ∧ y < k + 409600) ∧ j ≠ i) :=
  ⟨⟨men 1 ⟨4, [5632], 4, none, [], none, false⟩, 7, 5632, [], ⟨4, [5632], 4, none, [], none, false⟩, Fin.ofNat 8 0, by decide +kernel⟩,
    ⟨men 1 ⟨4, [409601, 5], 3, some 1, [1], some 1, false⟩, 7, 409601, [5], ⟨4, [409601, 5], 3, some 1, [1], some 1, false⟩, Fin.ofNat 8 0, by decide +kernel⟩,
    ⟨men 1 ⟨4, [409600], 3, some 1, [1], some 1, false⟩, 7, 409600, [], ⟨4, [409600], 3, some 1, [1], some 1, false⟩, Fin.ofNat 8 0, by decide +kernel⟩⟩

theorem witness_Converters_19 :
    (∃ (s : State) (src : Src) (i : Fin 8) (v : Word) (t : Nat) (m : Meter), s.inReset = false ∧ s.hears src = true ∧ s.is (F.SNS_FMCFG_EN ↑i) = true ∧ s.get (F.SNS_FMCFG_SRC ↑i) = 7 ∧ m = s.sns.meters[i] ∧ (∀ (l : Nat), m.prev = some l → l ≤ 1024 * ((s.at t).dt - ((s.at t).dt + 2 ^ 26 - BitVec.toNat v / 64) % 2 ^ 26) + 16 * (BitVec.toNat v % 64) + 8) ∧ (∀ (l : Nat), m.last = some l → l + 409600 ≤ 1024 * ((s.at t).dt - ((s.at t).dt + 2 ^ 26 - BitVec.toNat v / 64) % 2 ^ 26) + 16 * (BitVec.toNat v % 64) + 8) ∧ m.count % s.get (F.SNS_FMCFG_DIV ↑i) = 0)
    ∧ (∃ (s : State) (src : Src) (i : Fin 8) (v : Word) (t : Nat) (m : Meter), s.inReset = false ∧ s.hears src = true ∧ s.is (F.SNS_FMCFG_EN ↑i) = true ∧ s.get (F.SNS_FMCFG_SRC ↑i) = 7 ∧ m = s.sns.meters[i] ∧ (∃ l, m.prev = some l ∧ 1024 * ((s.at t).dt - ((s.at t).dt + 2 ^ 26 - BitVec.toNat v / 64) % 2 ^ 26) + 16 * (BitVec.toNat v % 64) + 8 < l)) :=
  ⟨⟨men 7 ⟨4, [], 3, none, [], none, false⟩, .host, 7, 0x81#32, 70000000, ⟨4, [], 3, none, [], none, false⟩, by decide +kernel⟩,
    ⟨men 7 ⟨4, [], 3, some 700000000000, [], none, false⟩, .host, 7, 0x81#32, 70000000, ⟨4, [], 3, some 700000000000, [], none, false⟩, by decide +kernel⟩⟩

theorem witness_Converters_20 :
    ∃ (s : State) (i : Fin 8), s.inReset = false ∧ (s.is (F.SNS_FMCFG_EN ↑i) = false ∨ s.is F.SYS_STAT_TBLOCK = false) :=
  ⟨mtr, 7, by decide +kernel⟩

theorem witness_Converters_21 :
    (∃ (s : State) (i : Fin 8) (m : Meter) (j : Fin 8), s.inReset = false ∧ s.is (F.SNS_FMCFG_EN ↑i) = true ∧ s.is F.SYS_STAT_TBLOCK = true ∧ m = s.sns.meters[i] ∧ (∀ (y : Nat), m.given.head? = some y → 1024 * (m.gate + 1600000 * s.get (F.SNS_FMGATE_GATE ↑i)) ≤ y) ∧ m.stamps.length < 2 ^ 26 ∧ 3 ≤ m.stamps.length ∧ j ≠ i)
    ∧ (∃ (s : State) (i : Fin 8) (m : Meter) (j : Fin 8), s.inReset = false ∧ s.is (F.SNS_FMCFG_EN ↑i) = true ∧ s.is F.SYS_STAT_TBLOCK = true ∧ m = s.sns.meters[i] ∧ (∀ (y : Nat), m.given.head? = some y → 1024 * (m.gate + 1600000 * s.get (F.SNS_FMGATE_GATE ↑i)) ≤ y) ∧ m.stamps.length < 2 ^ 26 ∧ m.stamps.length < 3 ∧ j ≠ i) :=
  ⟨⟨men 7 ⟨4, [], 3, none, [100000,200000,300001,400000], none, true⟩, 7, ⟨4, [], 3, none, [100000,200000,300001,400000], none, true⟩, Fin.ofNat 8 0, by decide +kernel⟩,
    ⟨men 7 ⟨4, [], 3, none, [100000,200000], none, true⟩, 7, ⟨4, [], 3, none, [100000,200000], none, true⟩, Fin.ofNat 8 0, by decide +kernel⟩⟩

theorem witness_PressJobs_0 :
    (∃ (s : State) (vc : PVc) (t : Nat) (t0 : Nat) (j : Job), s.inReset = false ∧ (s.stl.jobs.getD (if vc = PVc.vc0 then 0 else 3) [] = [j]) ∧ j.state = JobState.open t0 ∧ t0 + 1600 * bits (BitVec.toNat j.cfg) 24 8 ≤ t)
    ∧ (∃ (s : State) (vc : PVc) (t : Nat) (t0 : Nat) (j : Job), s.inReset = false ∧ (s.stl.jobs.getD (if vc = PVc.vc0 then 0 else 3) [] = [j]) ∧ j.state = JobState.open t0 ∧ t < t0 + 1600 * bits (BitVec.toNat j.cfg) 24 8) :=
  ⟨⟨withJobs up 3 [job0 (.open 5)], .vc3, 1605, 5, job0 (.open 5), by decide +kernel⟩,
    ⟨withJobs up 3 [job0 (.open 5)], .vc3, 1604, 5, job0 (.open 5), by decide +kernel⟩⟩

theorem witness_PressJobs_1 :
    ∃ (s : State) (e : Fin 4) (j : Job) (k : Fin 4), s.inReset = false ∧ s.prs[e] = none ∧ s.pressRetired ↑e = false ∧ s.stl.jobs.getD 0 [] = [j] ∧ j.state = JobState.closed ∧ (∀ (i : Item), i ∈ j.items → i.hole = false ∧ i.errs = 0#32) ∧ j.items ≠ [] ∧ k ≠ e :=
  ⟨withJobs up 0 [job0 .closed], 3, job0 .closed, Fin.ofNat 4 0, by decide +kernel⟩

theorem witness_PressJobs_2 :
    (∃ (s : State) (e : Fin 4) (a : Nat) (op : Nat) (ctl : Nat) (r : Region) (off : Nat) (k : Fin 4), s.inReset = false ∧ s.prs[e] = none ∧ s.pressRetired ↑e = false ∧ s.stl.jobs.getD 0 [] = [] ∧ s.stl.jobs.getD 3 [] = [] ∧ s.ringWaiting = [a] ∧ s.synd = [] ∧ ctl = s.descField a 0 ∧ op = bits ctl 0 2 ∧ bit ctl 3 = false ∧ s.ignoreWhy a = 0 ∧ progRegion (s.descField a 1) = some (r, off) ∧ r ≠ Region.regs ∧ k ≠ e)
    ∧ (∃ (s : State) (e : Fin 4) (a : Nat) (op : Nat) (ctl : Nat), s.inReset = false ∧ s.prs[e] = none ∧ s.pressRetired ↑e = false ∧ s.stl.jobs.getD 0 [] = [] ∧ s.stl.jobs.getD 3 [] = [] ∧ s.ringWaiting = [a] ∧ s.synd = [] ∧ ctl = s.descField a 0 ∧ op = bits ctl 0 2 ∧ bit ctl 3 = false ∧ s.ignoreWhy a ≠ 0) :=
  ⟨⟨ringed 1#8, 3, 0x400000, 1, 1, .shared, 0x401000, Fin.ofNat 4 0, by decide +kernel⟩,
    ⟨ringed 3#8, 3, 0x400000, 3, 3, by decide +kernel⟩⟩

theorem witness_PressJobs_3 :
    ∃ (s : State) (e : Fin 4) (vc : Nat) (j : Job) (t0 : Nat) (tab : Option Nat), s.inReset = false ∧ s.prs[e] = some { job := PressJob.stream vc j.id, started := t0, table := tab } ∧ (vc = 0 ∨ vc = 3) ∧ s.stl.jobs.getD vc [] = [j] ∧ BitVec.getLsbD j.cfg 3 = false ∧ (∀ (i : Item), i ∈ j.items → i.hole = false ∧ i.ctx = none) ∧ ((putJob { big := BitVec.getLsbD j.cfg 2, table := none } (if vc = 0 then 1 else 4) j.id t0 (List.flatMap (fun i => i.data) j.items)).length ≤ 4096) :=
  ⟨strm (job0 (.running 3)), 3, 0, job0 (.running 3), 9, none, by decide +kernel⟩

theorem witness_PressJobs_4 :
    (∃ (s : State) (e : Fin 4) (h : PressHost) (t0 : Nat) (tab : Option Nat) (out : List Byte) (a : Nat), s.inReset = false ∧ s.prs[e] = some { job := PressJob.host h, started := t0, table := tab } ∧ s.inputRead h = h.input ∧ s.synd = [] ∧ (h.desc + 32 ≤ h.dst ∨ h.dst + h.dstlen ≤ h.desc) ∧ (h.op = 1 ∧ bit h.ctl 3 = false ∧ out = putJob { big := bit h.ctl 2, table := none } 0 0 t0 h.input ∨ h.op = 2 ∧ jobHeaderOk h.input = true ∧ bit (hdrField h.input 3 1) 1 = false ∧ hdrField h.input 8 4 ≤ h.dstlen ∧ getJob { big := bit (hdrField h.input 3 1) 0, table := none } h.input = some out) ∧ out.length ≤ h.dstlen ∧ out.length < 2 ^ 32 ∧ (a < h.dst ∨ h.dst + out.length ≤ a) ∧ (a < h.desc + 24 ∨ h.desc + 32 ≤ a))
    ∧ (∃ (s : State) (e : Fin 4) (h : PressHost) (t0 : Nat) (tab : Option Nat) (out : List Byte) (a : Nat), s.inReset = false ∧ s.prs[e] = some { job := PressJob.host h, started := t0, table := tab } ∧ s.inputRead h = h.input ∧ s.synd = [] ∧ (h.desc + 32 ≤ h.dst ∨ h.dst + h.dstlen ≤ h.desc) ∧ (h.op = 1 ∧ bit h.ctl 3 = false ∧ out = putJob { big := bit h.ctl 2, table := none } 0 0 t0 h.input ∨ h.op = 2 ∧ jobHeaderOk h.input = true ∧ bit (hdrField h.input 3 1) 1 = false ∧ hdrField h.input 8 4 ≤ h.dstlen ∧ getJob { big := bit (hdrField h.input 3 1) 0, table := none } h.input = some out) ∧ out.length ≤ h.dstlen ∧ out.length < 2 ^ 32 ∧ bit h.ctl 5 = true ∧ (a < h.dst ∨ h.dst + out.length ≤ a) ∧ (a < h.desc + 24 ∨ h.desc + 32 ≤ a)) :=
  ⟨⟨hst (host0 1 inp), 3, host0 1 inp, 9, none, putJob ⟨false, none⟩ 0 0 9 inp, 0, by decide +kernel⟩,
    ⟨hst hostC, 3, hostC, 9, none, putJob ⟨false, none⟩ 0 0 9 inp, 0, by decide +kernel⟩⟩

theorem witness_PressJobs_5 :
    ∃ (s : State) (e : Fin 4) (h : PressHost) (t0 : Nat) (tab : Option Nat) (a : Nat), s.inReset = false ∧ s.prs[e] = some { job := PressJob.host h, started := t0, table := tab } ∧ h.op = 2 ∧ s.inputRead h = h.input ∧ s.synd = [] ∧ jobHeaderOk h.input = false ∧ (a < h.dst ∨ h.dst + h.dstlen ≤ a) ∧ (a < h.desc + 24 ∨ h.desc + 32 ≤ a) :=
  ⟨hst (host0 2 inp), 3, host0 2 inp, 9, none, 0, by decide +kernel⟩

theorem witness_PressJobs_6 :
    ∃ (s : State) (e : Fin 4) (h : PressHost) (t0 : Nat) (tab : Option Nat), s.inReset = false ∧ s.prs[e] = some { job := PressJob.host h, started := t0, table := tab } ∧ s.synd = [] :=
  ⟨hst (host0 2 inp), 3, host0 2 inp, 9, none, by decide +kernel⟩

theorem witness_PressJobs_7 :
    ∃ (s : State) (e : Fin 4) (c : Ctx) (j : Job) (i : Item) (t0 : Nat) (tab : Option Nat), s.inReset = false ∧ s.prs[e] = some { job := PressJob.stream 0 j.id, started := t0, table := tab } ∧ s.stl.jobs.getD 0 [] = [j] ∧ j.items = [i] ∧ i.ctx = some c.id ∧ s.pool.ctxs = [c] ∧ c.state = CtxState.retained :=
  ⟨withCtx (strm jr) [cRet], 3, cRet, jr, item0 (some 4), 9, none, by decide +kernel⟩

theorem witness_PressJobs_8 :
    ∃ (s : State) (e : Fin 4) (j : Job) (t0 : Nat) (tab : Option Nat), s.inReset = false ∧ s.prs[e] = some { job := PressJob.stream 3 j.id, started := t0, table := tab } ∧ s.stl.jobs.getD 3 [] = [j] ∧ (∀ (i : Item), i ∈ j.items → i.ctx = none) :=
  ⟨strm3, 3, job0 (.running 3), 9, none, by decide +kernel⟩

theorem witness_PressJobs_9 :
    (∃ (s : State) (src : Src) (v : Word), s.inReset = false ∧ s.hears src = true ∧ s.get F.PRS_HSIZE_SIZE ≤ F.PRS_HPROD_PROD.of v)
    ∧ (∃ (s : State) (src : Src) (v : Word), s.inReset = false ∧ s.hears src = true ∧ F.PRS_HPROD_PROD.of v < s.get F.PRS_HSIZE_SIZE) :=
  ⟨⟨ringed 1#8, .host, 4#32, by decide +kernel⟩,
    ⟨ringed 1#8, .host, 3#32, by decide +kernel⟩⟩

theorem witness_PressJobs_10 :
    (∃ (s : State) (src : Src) (vc : PVc) (v : Word), s.inReset = false ∧ s.hears src = true ∧ BitVec.getLsbD (v &&& 4278451999#32) 3 = false ∧ bits (BitVec.toNat (v &&& 4278451999#32)) 24 8 ≠ 0 ∧ bits (BitVec.toNat (v &&& 4278451999#32)) 8 10 ≠ 0 ∧ bits (BitVec.toNat (v &&& 4278451999#32)) 8 10 ≤ 512 ∧ (s.stl.bufs.getD (if vc = PVc.vc0 then 0 else 3) [] = []))
    ∧ (∃ (s : State) (src : Src) (v : Word), s.inReset = false ∧ s.hears src = true ∧ BitVec.getLsbD (v &&& 4278451999#32) 3 = false ∧ (bits (BitVec.toNat (v &&& 4278451999#32)) 24 8 = 0 ∨ bits (BitVec.toNat (v &&& 4278451999#32)) 8 10 = 0 ∨ 512 < bits (BitVec.toNat (v &&& 4278451999#32)) 8 10)) :=
  ⟨⟨up, .host, .vc3, 0x01020000#32, by decide +kernel⟩,
    ⟨up, .host, 0x00020000#32, by decide +kernel⟩⟩

/-! ### Witnesses: reset and test port -/

def inRst : State := {State.reset with inReset := true}
def inRstHigh : State := {inRst with emi := {inRst.emi with inhN := true}}
def upDr : State := {up with tap := {up.tap with state := .shiftDr}}
def armedIr : State := {armed with tap := {armed.tap with state := .exit1Ir, irShift := 0#4}}
def upCap : State := {up with tap := {up.tap with state := .captureDr}}
def solo (l : List (Fld × Nat)) : State := withF {State.reset with inReset := false} ([(F.SYS_STRAP_CFGMODE, 1), (F.TBS_BOOT_RESULT, 4)] ++ l)

theorem witness_ResetAndTestPort_1 :
    ∃ (s : State), s.inReset = true :=
  ⟨inRst, by decide +kernel⟩

theorem witness_ResetAndTestPort_2 :
    ∃ (s : State) (k : Nat) (i : Nat), s.canonical ∧ k < 8 ∧ (i ≤ 80 ∨ i = 84 ∨ 86 ≤ i ∧ i < 90 ∨ 92 ≤ i ∧ i < 96) :=
  ⟨up, 0, 0, by delta State.canonical; decide +kernel, by decide +kernel⟩

theorem witness_ResetAndTestPort_3 :
    (∃ (s : State), s.inReset = false)
    ∧ (∃ (s : State) (solo : Bool), s.inReset = true ∧ solo = true)
    ∧ (∃ (s : State) (solo : Bool), s.inReset = true ∧ solo = false) :=
  ⟨⟨up, by decide +kernel⟩,
    ⟨inRst, true, by decide +kernel⟩,
    ⟨inRstHigh, false, by decide +kernel⟩⟩

theorem witness_ResetAndTestPort_4 :
    (∃ (s : State) (tms : Bool), s.tap.state = TapState.shiftDr ∧ s.tap.instr = TapInstr.bypass ∧ tms = false ∧ s.inReset = false)
    ∧ (∃ (s : State) (tms : Bool), s.tap.state = TapState.exit1Ir ∧ tms = true ∧ s.tap.irShift = 0#4 ∧ s.is F.EMI_CTRL_ARM = true)
    ∧ (∃ (s : State) (tms : Bool), s.tap.state = TapState.captureDr ∧ s.tap.instr = TapInstr.bypass ∧ tms = false ∧ s.inReset = false) :=
  ⟨⟨upDr, false, by decide +kernel⟩,
    ⟨armedIr, true, by decide +kernel⟩,
    ⟨upCap, false, by decide +kernel⟩⟩

/-! ### Witnesses: stream link -/

def setRx (s : State) (l v : Nat) : State := s.put (rxField l) v
def lane (s : State) (l : Nat) (f : TxLane → TxLane) : State := s.modTx l f
def stg_l1 (l : Nat) (x : TxStage) : State := lane up l fun y => {y with stage := x}
def rxs (l v : Nat) : State := setRx up l v
def pres (s : State) : State := s.setBytes 0xB40000 [1#8,0#8,0#8,0#8,0#8,0#8,0#8,0#8,0#8,0#8,0#8,0#8,0#8,0#8,0#8,0#8,4#8,12#8,5#8,6#8,3#8,0#8,0#8,0#8]
def pw : State := withStl up fun x => {x with presetsWait := false}
def capv (m : List Byte) : Vector Byte 24 := Vector.ofFn fun i => m.getD i.val 0#8
def msg0 : Vector Byte 24 := capv (up.capMsg 2)
def eis : State := withF (stg_l1 2 .active) [(F.STL_STAT_TXST, 1), (F.STL_CFG_EIEN, 1), (F.STL_LANES_TXUSE, 4), (F.STL_EI_ENTRY, 10)]
def eix : State := withF eis [(F.STL_STAT_TXST, 2), (F.STL_EI_MAX, 10)]
def waitP : State := withStl ((pres (stg_l1 2 .detect)).put F.SYS_STRAP_CFGMODE 1) fun x => {x with presetsWait := true}
def itm : Item := item0 none
def actv (s : State) (l : Nat) : State := s.modTx l fun y => {y with stage := .active}
def tx1 : State := withStl ((actv up 1).put F.STL_STAT_TXST 1) fun x => {x with bufs := x.bufs.set 1 [itm]}
def frm (vc : Nat) (its : List Item) : Frame := ⟨vc, 0, 5, 0x800, 3, 0, List.replicate 32 7#8, 9, 50, 50, false, its, false⟩
def tx2 : State := tx1.modTx 1 fun y => {y with cur := some (frm 0 [])}
def cR (n : Nat) : Ctx := {ctx0 with state := .retained, owed := n}
def tx3 (n : Nat) : State := withCtx ((actv (up.put F.STL_STAT_TXST 1) 1).modTx 1 fun y => {y with cur := some (frm 0 [item0 (some 4)])}) [cR n]
def tx4 : State := tx1.modTx 1 fun y => {y with cur := some (frm 0 []), ins := some (frm 1 [])}
def hdr (vc kind len seq ttl src dest age : Nat) : List Byte := leBytes 1 (vc + 4 * kind) ++ leBytes 2 len ++ leBytes 2 seq ++ leBytes 1 ttl ++ leBytes 1 0 ++ leBytes 2 src ++ leBytes 2 dest ++ leBytes 2 age ++ leBytes 1 0
def rxf (vc kind ttl src dest age : Nat) (p : List Byte) : RxFrame :=
  let h := hdr vc kind p.length 77 ttl src dest age
  ⟨false, Vector.ofFn fun i => (h ++ [crc8Of h]).getD i.val 0#8, p, jobCrc p, BitVec.ofNat 3 (8 * ((p.length + 7) / 8) - p.length), true⟩
def rcv : State := withF (up.put (rxField 2) 4) [(F.FLE_UID_UID, 9), (F.STL_HOR_HORIZON, 1000)]
def pl : List Byte := List.replicate 32 3#8
def hf : Frame := {frm 3 [] with forwarded := true}
def held (e : Option Nat) : State := withStl up fun x => {x with heldRx := x.heldRx.set 3 [⟨78, 0, none, some hf⟩], expect := x.expect.set 3 e}
def crd : RxFrame := rxf 2 3 5 20 0xFFF 100 (leBytes 4 5 ++ leBytes 4 1)
def crdH : RxHeld := ⟨78, 0, some crd, none⟩
def heldC : State := withStl up fun x => {x with heldRx := x.heldRx.set 2 [crdH], expect := x.expect.set 2 (some 78)}
def mg : RxFrame := rxf 2 2 5 20 0xFFF 100 pl
def mrx (size prod cons : Nat) : State := withF rcv [(F.STL_MRXIDX_SIZE, size), (F.STL_MRXIDX_PROD, prod), (F.STL_MRXIDX_CONS, cons), (F.STL_MRXBASE_BASE, 0x400000)]
def rp : State := withStl (up.put F.STL_STAT_TXST 1) fun x => {x with held := x.held.set 0 [itm]}
def rp1 : State := withStl (up.put F.STL_STAT_TXST 1) fun x => {x with held := x.held.set 1 [itm], bufs := x.bufs.set 1 (List.replicate 64 {itm with data := List.replicate 1024 0#8})}

theorem witness_LinkLanes_0 :
    ∃ (s : State) (l : Fin 4) (k : Fin 4), s.inReset = false ∧ (s.txLane ↑l).stage = TxStage.pll ∧ s.is F.TBS_STAT_SLEEP = false ∧ k ≠ l :=
  ⟨stg_l1 2 .pll, 2, Fin.ofNat 4 0, by decide +kernel⟩

theorem witness_LinkLanes_1 :
    ∃ (s : State) (l : Fin 4), s.inReset = false ∧ (s.txLane ↑l).stage = TxStage.detect :=
  ⟨stg_l1 2 .detect, 2, by decide +kernel⟩

theorem witness_LinkLanes_2 :
    (∃ (s : State) (l : Fin 4) (k : Fin 4), s.inReset = false ∧ (s.txLane ↑l).stage = TxStage.detect ∧ s.synd = [] ∧ (s.solo = false ∨ s.stl.presetsWait = false) ∧ s.presetsValid = false ∧ k ≠ l)
    ∧ (∃ (s : State) (l : Fin 4) (k : Fin 4), s.inReset = false ∧ (s.txLane ↑l).stage = TxStage.detect ∧ s.synd = [] ∧ (s.solo = false ∨ s.stl.presetsWait = false) ∧ s.presetsValid = true ∧ k ≠ l)
    ∧ (∃ (s : State) (l : Fin 4) (k : Fin 4), s.inReset = false ∧ (s.txLane ↑l).stage = TxStage.detect ∧ s.synd = [] ∧ s.solo = true ∧ (s.solo = false ∨ s.stl.presetsWait = false) ∧ s.presetsValid = true ∧ k ≠ l)
    ∧ (∃ (s : State) (l : Fin 4) (k : Fin 4), s.inReset = false ∧ (s.txLane ↑l).stage = TxStage.detect ∧ s.synd = [] ∧ s.solo = true ∧ s.stl.presetsWait = true ∧ k ≠ l) :=
  ⟨⟨stg_l1 2 .detect, 2, Fin.ofNat 4 0, by decide +kernel⟩,
    ⟨pres (stg_l1 2 .detect), 2, Fin.ofNat 4 0, by decide +kernel⟩,
    ⟨(pres (stg_l1 2 .detect)).put F.SYS_STRAP_CFGMODE 1, 2, Fin.ofNat 4 0, by decide +kernel⟩,
    ⟨waitP, 2, Fin.ofNat 4 0, by decide +kernel⟩⟩

theorem witness_LinkLanes_3 :
    ∃ (s : State) (l : Fin 4) (k : Fin 4), s.inReset = false ∧ (s.txLane ↑l).stage = TxStage.train ∧ k ≠ l :=
  ⟨stg_l1 2 .train, 2, Fin.ofNat 4 0, by decide +kernel⟩

theorem witness_LinkLanes_4 :
    (∃ (s : State) (l : Fin 4) (k : Fin 4), s.inReset = false ∧ (s.txLane ↑l).stage = TxStage.announce ∧ bit (s.get F.STL_LANES_TXDOWN) ↑l = false ∧ s.stl.losses = [] ∧ k ≠ l ∧ s.get F.STL_STAT_TXST = 0)
    ∧ (∃ (s : State) (l : Fin 4) (k : Fin 4), s.inReset = false ∧ (s.txLane ↑l).stage = TxStage.announce ∧ bit (s.get F.STL_LANES_TXDOWN) ↑l = false ∧ s.stl.losses = [] ∧ k ≠ l ∧ s.get F.STL_STAT_TXST ≠ 0) :=
  ⟨⟨stg_l1 2 .announce, 2, Fin.ofNat 4 0, by decide +kernel⟩,
    ⟨(stg_l1 2 .announce).put F.STL_STAT_TXST 1, 2, Fin.ofNat 4 0, by decide +kernel⟩⟩

theorem witness_LinkLanes_5 :
    ∃ (s : State) (l : Fin 4), s.inReset = false ∧ (s.txLane ↑l).stage = TxStage.announce :=
  ⟨stg_l1 2 .announce, 2, by decide +kernel⟩

theorem witness_LinkLanes_6 :
    ∃ (s : State) (l : Fin 4), s.inReset = false ∧ (s.txLane ↑l).stage = TxStage.active ∧ s.get F.STL_STAT_TXST ≠ 2 ∧ (s.txLane ↑l).cur = none :=
  ⟨(stg_l1 2 .active).put F.STL_STAT_TXST 1, 2, by decide +kernel⟩

theorem witness_LinkLanes_7 :
    (∃ (s : State) (l : Fin 4) (m : Instr × Nat × Nat) (k : Fin 4), s.inReset = false ∧ s.synd = [] ∧ s.is F.TBS_STAT_SLEEP = false ∧ s.stl.presetsWait = false ∧ m ∈ [(Instr.signalDetect l, 0, 1), (Instr.rxAdapted l, 1, 2), (Instr.blockLock l, 2, 3), (Instr.blockLock l, 5, 4), (Instr.blockLockLoss l, 4, 1), (Instr.signalLoss l, 4, 1), (Instr.rxStageTimeout l, 1, 0), (Instr.rxStageTimeout l, 2, 1), (Instr.rxStageTimeout l, 3, 1), (Instr.eidleReceive l, 4, 5), (Instr.eidleRelockTimeout l, 5, 1)] ∧ s.rxStage ↑l = m.snd.fst ∧ k ≠ l)
    ∧ (∃ (s : State) (l : Fin 4) (m : Instr × Nat × Nat) (k : Fin 4), s.inReset = false ∧ s.synd = [] ∧ s.is F.TBS_STAT_SLEEP = false ∧ s.stl.presetsWait = false ∧ m ∈ [(Instr.signalDetect l, 0, 1), (Instr.rxAdapted l, 1, 2), (Instr.blockLock l, 2, 3), (Instr.blockLock l, 5, 4), (Instr.blockLockLoss l, 4, 1), (Instr.signalLoss l, 4, 1), (Instr.rxStageTimeout l, 1, 0), (Instr.rxStageTimeout l, 2, 1), (Instr.rxStageTimeout l, 3, 1), (Instr.eidleReceive l, 4, 5), (Instr.eidleRelockTimeout l, 5, 1)] ∧ s.rxStage ↑l = m.snd.fst ∧ k ≠ l ∧ m.fst = Instr.rxStageTimeout l) :=
  ⟨⟨setRx pw 2 0, 2, (Instr.signalDetect 2, 0, 1), Fin.ofNat 4 0, by decide +kernel⟩,
    ⟨setRx pw 2 1, 2, (Instr.rxStageTimeout 2, 1, 0), Fin.ofNat 4 0, by decide +kernel⟩⟩

theorem witness_LinkLanes_8 :
    (∃ (s : State) (l : Fin 4) (msg : Vector Byte 24), s.inReset = false ∧ s.rxStage ↑l = 3 ∧ capValid msg.toList = true ∧ ((s.rxLane ↑l).cap ≠ msg.toList ∨ (s.rxLane ↑l).run < 2))
    ∧ (∃ (s : State) (l : Fin 4) (msg : Vector Byte 24), s.inReset = false ∧ s.rxStage ↑l = 3 ∧ capValid msg.toList = true ∧ (s.rxLane ↑l).cap = msg.toList ∧ 2 ≤ (s.rxLane ↑l).run)
    ∧ (∃ (s : State) (l : Fin 4) (msg : Vector Byte 24), s.inReset = false ∧ s.rxStage ↑l = 3 ∧ capValid msg.toList = false) :=
  ⟨⟨rxs 2 3, 2, msg0, by decide +kernel⟩,
    ⟨(rxs 2 3).modRx 2 (fun r => {r with cap := msg0.toList, run := 2}), 2, msg0, by decide +kernel⟩,
    ⟨(rxs 2 3).modRx 2 (fun r => {r with cap := msg0.toList, run := 2}), 2, msg0.set 23 0x55#8, by decide +kernel⟩⟩

theorem witness_LinkLanes_9 :
    (∃ (s : State), s.inReset = false ∧ s.is F.STL_STAT_UPV = false)
    ∧ (∃ (s : State), s.inReset = false ∧ s.is F.STL_STAT_UPV = true) :=
  ⟨⟨rxs 2 4, by decide +kernel⟩,
    ⟨withF (rxs 2 4) [(F.STL_STAT_UPV, 1), (F.FLE_UID_UID, 5)], by decide +kernel⟩⟩

theorem witness_LinkLanes_10 :
    (∃ (s : State) (active : BitVec 4) (l : Fin 4) (l' : Fin 4), s.inReset = false ∧ s.stl.losses = [] ∧ s.txUse ↑l' = true ∧ active.getLsbD ↑l' = false ∧ (s.txUse ↑l = false ∨ active.getLsbD ↑l = true))
    ∧ (∃ (s : State) (active : BitVec 4) (l : Fin 4), s.inReset = false ∧ s.stl.losses = [] ∧ s.txUse ↑l = true ∧ active.getLsbD ↑l = false) :=
  ⟨⟨stg_l1 2 .active, 0b1011#4, Fin.ofNat 4 0, Fin.ofNat 4 2, by decide +kernel⟩,
    ⟨(stg_l1 2 .active).put F.STL_STAT_TXST 1, 0b1011#4, 2, by decide +kernel⟩⟩

theorem witness_LinkLanes_11 :
    (∃ (s : State), s.inReset = false ∧ s.is F.STL_CFG_EIEN = true ∧ s.get F.STL_STAT_TXST = 1 ∧ s.txBusy = false ∧ s.rxWaiting = false)
    ∧ (∃ (s : State), s.inReset = false ∧ (s.is F.STL_CFG_EIEN = false ∨ s.txBusy = true ∨ s.rxWaiting = true)) :=
  ⟨⟨eis, by decide +kernel⟩,
    ⟨eis.put F.STL_CFG_EIEN 0, by decide +kernel⟩⟩

theorem witness_LinkLanes_12 :
    ∃ (s : State), s.inReset = false ∧ s.get F.STL_STAT_TXST = 2 ∧ s.txBusy = false :=
  ⟨eix, by decide +kernel⟩

theorem witness_LinkLanes_13 :
    (∃ (s : State) (src : Src), s.inReset = false ∧ s.hears src = true ∧ s.is F.TBS_STAT_SLEEP = false)
    ∧ (∃ (s : State) (src : Src), s.inReset = false ∧ s.hears src = true ∧ s.is F.TBS_STAT_SLEEP = true) :=
  ⟨⟨eix, .host, by decide +kernel⟩,
    ⟨eix.put F.TBS_STAT_SLEEP 1, .host, by decide +kernel⟩⟩

theorem witness_LinkTraffic_0 :
    (∃ (s : State) (l : Fin 4) (it : Item), s.inReset = false ∧ s.get F.STL_STAT_TXST = 1 ∧ s.is F.STL_MTXIDX_SIZE = false ∧ s.stl.fwd.getD 1 [] = [] ∧ s.stl.jobs.getD 1 [] = [] ∧ s.stl.bufs.getD 1 [] = [it] ∧ it.hole = false ∧ it.errs = 0#32 ∧ it.slept = false ∧ it.data.length ≤ 256 ∧ s.txUse ↑l = true ∧ (s.txLane ↑l).cur = none)
    ∧ (∃ (s : State) (l : Fin 4) (it : Item), s.inReset = false ∧ s.get F.STL_STAT_TXST = 1 ∧ s.is F.STL_MTXIDX_SIZE = false ∧ s.stl.fwd.getD 1 [] = [] ∧ s.stl.jobs.getD 1 [] = [] ∧ s.stl.bufs.getD 1 [] = [it] ∧ it.hole = false ∧ it.errs = 0#32 ∧ it.slept = false ∧ it.data.length ≤ 256 ∧ s.txUse ↑l = true ∧ s.insertLane = some ↑l ∧ (∀ (k : Fin 4), s.txUse ↑k = true → (s.txLane ↑k).cur ≠ none)) :=
  ⟨⟨tx1, 1, itm, by decide +kernel⟩,
    ⟨tx2, 1, itm, by decide +kernel⟩⟩

theorem witness_LinkTraffic_1 :
    (∃ (s : State) (l : Fin 4) (f : Frame) (it : Item) (c : Ctx) (k : Fin 4), s.inReset = false ∧ (s.txLane ↑l).ins = none ∧ (s.txLane ↑l).cur = some f ∧ f.mtx = false ∧ f.items = [it] ∧ it.ctx = some c.id ∧ s.pool.ctxs = [c] ∧ c.state = CtxState.retained ∧ c.owed ≤ 1 ∧ k ≠ l)
    ∧ (∃ (s : State) (l : Fin 4) (f : Frame) (it : Item) (c : Ctx) (k : Fin 4), s.inReset = false ∧ (s.txLane ↑l).ins = none ∧ (s.txLane ↑l).cur = some f ∧ f.mtx = false ∧ f.items = [it] ∧ it.ctx = some c.id ∧ s.pool.ctxs = [c] ∧ c.state = CtxState.retained ∧ 1 < c.owed ∧ k ≠ l) :=
  ⟨⟨tx3 1, 1, frm 0 [item0 (some 4)], item0 (some 4), cR 1, Fin.ofNat 4 0, by decide +kernel⟩,
    ⟨tx3 3, 1, frm 0 [item0 (some 4)], item0 (some 4), cR 3, Fin.ofNat 4 0, by decide +kernel⟩⟩

theorem witness_LinkTraffic_2 :
    ∃ (s : State) (l : Fin 4) (f : Frame), s.inReset = false ∧ (s.txLane ↑l).ins = some f ∧ f.mtx = false ∧ f.items = [] :=
  ⟨tx4, 1, frm 1 [], by decide +kernel⟩

theorem witness_LinkTraffic_3 :
    (∃ (s : State) (l : Fin 4) (fr : RxFrame) (vc : Nat) (seq : Nat) (v : Nat), s.inReset = false ∧ s.rxStage ↑l = 4 ∧ vc = fr.field 0 1 % 4 ∧ seq = fr.field 3 2 ∧ fr.hcrcOk = true ∧ fr.len ≤ 4096 ∧ fr.ok = true ∧ fr.field 7 2 ≠ s.get F.FLE_UID_UID ∧ fr.field 9 2 ≠ s.get F.FLE_UID_UID ∧ fr.field 9 2 ≠ 4095 ∧ s.mayRelease vc seq = true ∧ s.stl.heldRx.getD vc [] = [] ∧ 1 < fr.field 5 1 ∧ fr.field 11 2 ≤ s.get F.STL_HOR_HORIZON ∧ fr.field 11 2 ≠ 65535 ∧ s.fwdBytes vc + fr.payload.length ≤ fwdSize vc ∧ v ≠ vc)
    ∧ (∃ (s : State) (l : Fin 4) (fr : RxFrame) (vc : Nat) (seq : Nat), s.inReset = false ∧ s.rxStage ↑l = 4 ∧ vc = fr.field 0 1 % 4 ∧ seq = fr.field 3 2 ∧ fr.hcrcOk = true ∧ fr.len ≤ 4096 ∧ fr.ok = true ∧ fr.field 7 2 ≠ s.get F.FLE_UID_UID ∧ fr.field 9 2 ≠ s.get F.FLE_UID_UID ∧ fr.field 9 2 ≠ 4095 ∧ s.mayRelease vc seq = true ∧ s.stl.heldRx.getD vc [] = [] ∧ fr.field 5 1 ≤ 1)
    ∧ (∃ (s : State) (l : Fin 4) (fr : RxFrame) (vc : Nat) (seq : Nat), s.inReset = false ∧ s.rxStage ↑l = 4 ∧ vc = fr.field 0 1 % 4 ∧ seq = fr.field 3 2 ∧ fr.hcrcOk = false) :=
  ⟨⟨rcv, 2, rxf 0 0 5 20 0x800 100 pl, 0, 77, 1, by decide +kernel⟩,
    ⟨rcv, 2, rxf 0 0 1 20 0x800 100 pl, 0, 77, by decide +kernel⟩,
    ⟨rcv, 2, {rxf 0 0 1 20 0x800 100 pl with hdr := (rxf 0 0 1 20 0x800 100 pl).hdr.set 14 0x77#8}, 0, 77, by decide +kernel⟩⟩

theorem witness_LinkTraffic_4 :
    ∃ (s : State) (vc : BitVec 2) (h : RxHeld) (f : Frame), s.inReset = false ∧ s.stl.heldRx.getD vc.toNat [] = [h] ∧ s.mayRelease vc.toNat h.seq = true ∧ h.own = none ∧ h.frame = some f ∧ f.vc = vc.toNat :=
  ⟨held (some 78), 3#2, ⟨78, 0, none, some hf⟩, hf, by decide +kernel⟩

theorem witness_LinkTraffic_5 :
    ∃ (s : State) (h : RxHeld) (fr : RxFrame), s.inReset = false ∧ s.stl.heldRx.getD 2 [] = [h] ∧ s.mayRelease 2 h.seq = true ∧ h.own = some fr ∧ h.frame = none ∧ fr.field 0 1 / 4 = 3 ∧ 1 ≤ (hdrField fr.payload 0 4 + 2 ^ 32 - s.get (F.STL_GRANT_GRANT 0)) % 2 ^ 32 ∧ (hdrField fr.payload 0 4 + 2 ^ 32 - s.get (F.STL_GRANT_GRANT 0)) % 2 ^ 32 < 2 ^ 31 :=
  ⟨heldC, crdH, crd, by decide +kernel⟩

theorem witness_LinkTraffic_6 :
    ∃ (s : State) (vc : BitVec 2) (e : Nat) (h : RxHeld) (f : Frame), s.inReset = false ∧ s.stl.expect.getD vc.toNat none = some e ∧ s.stl.heldRx.getD vc.toNat [] = [h] ∧ s.mayRelease vc.toNat h.seq = false ∧ h.frame = some f ∧ s.stl.losses = [] :=
  ⟨held (some 77), 3#2, 77, ⟨78, 0, none, some hf⟩, hf, by decide +kernel⟩

theorem witness_LinkTraffic_7 :
    (∃ (s : State) (g : Word) (h : Word) (d : Nat), s.inReset = false ∧ d = (BitVec.toNat g + 2 ^ 32 - s.get (F.STL_GRANT_GRANT 0)) % 2 ^ 32 ∧ h = s.reg (F.STL_GRANT_GRANT 1).off + 1#32 ∧ 1 ≤ d ∧ d < 2 ^ 31)
    ∧ (∃ (s : State) (g : Word) (h : Word) (d : Nat), s.inReset = false ∧ d = (BitVec.toNat g + 2 ^ 32 - s.get (F.STL_GRANT_GRANT 0)) % 2 ^ 32 ∧ h = s.reg (F.STL_GRANT_GRANT 1).off + 1#32 ∧ 1 ≤ d ∧ (d = 0 ∨ 2 ^ 31 ≤ d)) :=
  ⟨⟨up, 5#32, 1#32, 5, by decide +kernel⟩,
    ⟨up, 0x80000000#32, 1#32, 0x80000000, by decide +kernel⟩⟩

theorem witness_LinkTraffic_8 :
    (∃ (s : State) (fr : RxFrame) (next : Nat) (a : Nat) (b : Nat), s.inReset = false ∧ s.isMgmt fr = true ∧ s.get F.STL_MRXIDX_SIZE ≤ 64 ∧ s.synd = [] ∧ next = (s.get F.STL_MRXIDX_PROD + 1) % max 1 (s.get F.STL_MRXIDX_SIZE) ∧ a = s.get F.STL_MRXBASE_BASE + 4128 * s.get F.STL_MRXIDX_PROD ∧ s.is F.STL_MRXIDX_SIZE = true ∧ next ≠ s.get F.STL_MRXIDX_CONS ∧ (b < a ∨ a + 32 + fr.payload.length ≤ b))
    ∧ (∃ (s : State) (fr : RxFrame) (next : Nat) (a : Nat), s.inReset = false ∧ s.isMgmt fr = true ∧ s.get F.STL_MRXIDX_SIZE ≤ 64 ∧ s.synd = [] ∧ next = (s.get F.STL_MRXIDX_PROD + 1) % max 1 (s.get F.STL_MRXIDX_SIZE) ∧ a = s.get F.STL_MRXBASE_BASE + 4128 * s.get F.STL_MRXIDX_PROD ∧ (s.is F.STL_MRXIDX_SIZE = false ∨ next = s.get F.STL_MRXIDX_CONS) ∧ s.is F.STL_MRXIDX_SIZE = true) :=
  ⟨⟨mrx 4 1 0, mg, 2, 0x401020, 0, by decide +kernel⟩,
    ⟨mrx 4 1 2, mg, 2, 0x401020, by decide +kernel⟩⟩

theorem witness_LinkTraffic_9 :
    (∃ (s : State) (vc : BitVec 2) (it : Item), s.inReset = false ∧ s.stl.held.getD vc.toNat [] = [it] ∧ s.hasRoom vc.toNat it.data.length = true)
    ∧ (∃ (s : State) (vc : BitVec 2) (it : Item), s.inReset = false ∧ s.stl.held.getD vc.toNat [] = [it] ∧ s.hasRoom vc.toNat it.data.length = false) :=
  ⟨⟨rp, 0#2, itm, by decide +kernel⟩,
    ⟨rp1, 1#2, itm, by decide +kernel⟩⟩

theorem witness_LinkTraffic_10 :
    ∃ (s : State) (x : Loss) (v : Nat), s.inReset = false ∧ s.stl.losses = [x] ∧ x.cause ≠ 1 ∧ x.vc < 4 ∧ (v = if x.vc = 2 then 3 else x.vc) ∧ s.stl.held.getD v [] = [] ∧ s.hasRoom v 32 = true :=
  ⟨withStl (up.put F.STL_STAT_TXST 1) fun x => {x with losses := [ls 2 5]}, ls 2 5, 3, by decide +kernel⟩

/-! ### Witnesses: host interface -/

def q3 (l : List (Fld × Nat)) : State := withF up ([(F.HIF_QCFG_EN 3, 1), (F.HIF_QCFG_SIZE 3, 8)] ++ l)
def qv (n en : Nat) : Word := BitVec.ofNat 32 (n * 2 ^ (F.HIF_QCFG_SIZE 3).lo + en * 2 ^ (F.HIF_QCFG_EN 3).lo)
def cmd (op : Nat) (len : Nat) (d : Option Nat) : QueueCmd := ⟨op, 9, 0x1000, 0x400000, len, 0xAABBCCDD, 0, d⟩
def busy (c : QueueCmd) (l : List (Fld × Nat)) : State := let s := q3 ([(F.HIF_SQSTAT_BUSY 3, 1)] ++ l); {s with hifx := {s.hifx with cmds := s.hifx.cmds.set 3 (some c), bme := true}}
def may (s : State) : State := {s with hifx := {s.hifx with bme := true}}
def ent (op : Nat) : Vector Byte 64 := Vector.ofFn fun i => (leBytes 1 op ++ leBytes 3 0 ++ leBytes 4 9 ++ leBytes 8 0x1000 ++ leBytes 4 0x400000 ++ leBytes 4 8 ++ leBytes 40 0).getD i.val 0#8
def un (s : State) : State := {s with hifx := {s.hifx with unsig := s.hifx.unsig.set 3 2}}
def pb (s : State) (m p : Nat) : State := {s with hifx := {s.hifx with pba := p, mask := m, d3 := true}}
def hot : State := pb (may up) 0 0
def may0 (s : State) : State := {may s with hifx := {(may s).hifx with mask := 0}}

theorem witness_QueuesAndCommands_0 :
    (∃ (s : State) (src : Src) (off : BitVec 28) (len : Nat), s.inReset = false ∧ s.hears src = true ∧ bar2Shape off.toNat len = true ∧ rangeRegion off.toNat len ≠ none ∧ s.synd = [] ∧ (∀ (i : Nat), i < len → unspecified (off.toNat + i) = false))
    ∧ (∃ (s : State) (src : Src) (off : BitVec 28) (len : Nat), s.inReset = false ∧ s.hears src = true ∧ (bar2Shape off.toNat len = false ∨ rangeRegion off.toNat len = none)) :=
  ⟨⟨up.setBytes 0x400000 [1#8, 2#8, 3#8, 4#8], .host, 0x400000#28, 4, by decide +kernel⟩,
    ⟨up, .host, 0x400001#28, 4, by decide +kernel⟩⟩

theorem witness_QueuesAndCommands_1 :
    (∃ (s : State) (src : Src) (off : BitVec 28) (data : List Byte) (r : Bar2Region) (a : Nat), s.inReset = false ∧ s.hears src = true ∧ rangeRegion off.toNat data.length = some r ∧ bar2Shape off.toNat data.length = true ∧ r.readOnly = false ∧ (∀ (i : Nat), i < data.length → s.byteDest (off.toNat + i) = ByteDest.memory) ∧ s.synd = [] ∧ (a < off.toNat ∨ off.toNat + data.length ≤ a))
    ∧ (∃ (s : State) (src : Src) (off : BitVec 28) (data : List Byte) (r : Bar2Region), s.inReset = false ∧ s.hears src = true ∧ rangeRegion off.toNat data.length = some r ∧ bar2Shape off.toNat data.length = true ∧ r.readOnly = false ∧ r = Bar2Region.broadcast ∧ s.anyRefused off.toNat data.length = false ∧ s.solo = false ∧ s.synd = [])
    ∧ (∃ (s : State) (src : Src) (off : BitVec 28) (data : List Byte) (r : Bar2Region), s.inReset = false ∧ s.hears src = true ∧ rangeRegion off.toNat data.length = some r ∧ bar2Shape off.toNat data.length = true ∧ (r.readOnly = true ∨ s.anyRefused off.toNat data.length = true)) :=
  ⟨⟨up, .host, 0x400000#28, [1#8, 2#8, 3#8, 4#8], .shared, 0, by decide +kernel⟩,
    ⟨up, .host, 0x300010#28, [1#8, 2#8, 3#8, 4#8], .broadcast, by decide +kernel⟩,
    ⟨up, .host, 0x2000000#28, [1#8, 2#8, 3#8, 4#8], .journal, by decide +kernel⟩⟩

theorem witness_QueuesAndCommands_2 :
    (∃ (s : State) (src : Src) (q : Fin 8) (v : Word) (n : Nat), s.inReset = false ∧ s.hears src = true ∧ n = s.get (F.HIF_QCFG_SIZE ↑q) ∧ n ≤ 4096 ∧ s.solo = false ∧ s.is (F.HIF_QCFG_EN ↑q) = true ∧ BitVec.toNat v < n ∧ ringDist (s.get (F.HIF_SQSTAT_TAIL ↑q)) (s.get (F.HIF_SQSTAT_HEAD ↑q)) n ≤ ringDist (BitVec.toNat v) (s.get (F.HIF_SQSTAT_HEAD ↑q)) n)
    ∧ (∃ (s : State) (src : Src) (q : Fin 8) (v : Word) (n : Nat), s.inReset = false ∧ s.hears src = true ∧ n = s.get (F.HIF_QCFG_SIZE ↑q) ∧ n ≤ 4096 ∧ s.solo = false ∧ (s.is (F.HIF_QCFG_EN ↑q) = false ∨ n ≤ BitVec.toNat v) ∧ s.is (F.HIF_QCFG_EN ↑q) = true)
    ∧ (∃ (s : State) (src : Src) (q : Fin 8) (n : Nat), s.inReset = false ∧ s.hears src = true ∧ n = s.get (F.HIF_QCFG_SIZE ↑q) ∧ n ≤ 4096 ∧ s.solo = true)
    ∧ (∃ (s : State) (src : Src) (q : Fin 8) (v : Word) (n : Nat), s.inReset = false ∧ s.hears src = true ∧ n = s.get (F.HIF_QCFG_SIZE ↑q) ∧ n ≤ 4096 ∧ s.solo = false ∧ s.is (F.HIF_QCFG_EN ↑q) = true ∧ BitVec.toNat v < n ∧ ringDist (BitVec.toNat v) (s.get (F.HIF_SQSTAT_HEAD ↑q)) n < ringDist (s.get (F.HIF_SQSTAT_TAIL ↑q)) (s.get (F.HIF_SQSTAT_HEAD ↑q)) n) :=
  ⟨⟨q3 [], .host, 3, 5#32, 8, by decide +kernel⟩,
    ⟨q3 [], .host, 3, 8#32, 8, by decide +kernel⟩,
    ⟨(q3 []).put F.SYS_STRAP_CFGMODE 1, .host, 3, 8, by decide +kernel⟩,
    ⟨q3 [(F.HIF_SQSTAT_TAIL 3, 5), (F.HIF_SQSTAT_HEAD 3, 2)], .host, 3, 3#32, 8, by decide +kernel⟩⟩

theorem witness_QueuesAndCommands_3 :
    (∃ (s : State) (src : Src) (q : Fin 8) (v : Word) (n : Nat), s.inReset = false ∧ s.hears src = true ∧ n = s.get (F.HIF_QCFG_SIZE ↑q) ∧ n ≤ 4096 ∧ s.solo = false ∧ s.is (F.HIF_QCFG_EN ↑q) = true ∧ BitVec.toNat v < n ∧ ringDist (BitVec.toNat v) (s.get (F.HIF_CQSTAT_HEAD ↑q)) n ≤ ringDist (s.get (F.HIF_CQSTAT_TAIL ↑q)) (s.get (F.HIF_CQSTAT_HEAD ↑q)) n)
    ∧ (∃ (s : State) (src : Src) (q : Fin 8) (v : Word) (n : Nat), s.inReset = false ∧ s.hears src = true ∧ n = s.get (F.HIF_QCFG_SIZE ↑q) ∧ n ≤ 4096 ∧ s.solo = false ∧ (s.is (F.HIF_QCFG_EN ↑q) = false ∨ n ≤ BitVec.toNat v ∨ ringDist (s.get (F.HIF_CQSTAT_TAIL ↑q)) (s.get (F.HIF_CQSTAT_HEAD ↑q)) n < ringDist (BitVec.toNat v) (s.get (F.HIF_CQSTAT_HEAD ↑q)) n) ∧ s.is (F.HIF_QCFG_EN ↑q) = true ∧ BitVec.toNat v < n) :=
  ⟨⟨q3 [(F.HIF_CQSTAT_TAIL 3, 2)], .host, 3, 2#32, 8, by decide +kernel⟩,
    ⟨q3 [(F.HIF_CQSTAT_TAIL 3, 2)], .host, 3, 3#32, 8, by decide +kernel⟩⟩

theorem witness_QueuesAndCommands_4 :
    (∃ (s : State) (src : Src) (q : Fin 8) (v : Word) (n : Nat), s.inReset = false ∧ s.hears src = true ∧ n = (F.HIF_QCFG_SIZE ↑q).of v ∧ s.solo = false ∧ 2 ≤ n ∧ n ≤ 4096 ∧ s.is (F.HIF_QCFG_EN ↑q) = false)
    ∧ (∃ (s : State) (src : Src) (q : Fin 8) (v : Word) (n : Nat), s.inReset = false ∧ s.hears src = true ∧ n = (F.HIF_QCFG_SIZE ↑q).of v ∧ (s.solo = true ∨ n < 2 ∨ 4096 < n) ∧ s.solo = false) :=
  ⟨⟨up, .host, 3, qv 8 1, 8, by decide +kernel⟩,
    ⟨up, .host, 3, qv 1 1, 1, by decide +kernel⟩⟩

theorem witness_QueuesAndCommands_5 :
    (∃ (s : State) (src : Src) (q : Fin 8) (v : Word), s.inReset = false ∧ s.hears src = true ∧ s.solo = false ∧ s.is (F.HIF_QCFG_EN ↑q) = true ∧ (v ^^^ s.reg (F.HIF_QCFG_EN ↑q).off) &&& 536870911#32 = 0#32 ∧ s.hifx.cmds[q] = none)
    ∧ (∃ (s : State) (src : Src) (q : Fin 8) (v : Word), s.inReset = false ∧ s.hears src = true ∧ s.solo = false ∧ s.is (F.HIF_QCFG_EN ↑q) = true ∧ (v ^^^ s.reg (F.HIF_QCFG_EN ↑q).off) &&& 536870911#32 = 0#32 ∧ s.hifx.cmds[q] ≠ none) :=
  ⟨⟨q3 [], .host, 3, qv 8 0, by decide +kernel⟩,
    ⟨busy (cmd 1 0 none) [], .host, 3, qv 8 0, by decide +kernel⟩⟩

theorem witness_QueuesAndCommands_6 :
    (∃ (s : State) (q : Fin 8) (e : Vector Byte 64) (h : Nat), s.inReset = false ∧ s.is (F.HIF_QCFG_EN ↑q) = true ∧ s.hifx.stopping[q] = false ∧ s.hifx.cmds[q] = none ∧ h = s.get (F.HIF_SQSTAT_HEAD ↑q) ∧ h ≠ s.get (F.HIF_SQSTAT_TAIL ↑q) ∧ s.mayDma = true ∧ s.cmdsRunning < 4 ∧ s.queueTurn ↑q = true ∧ s.get (F.HIF_QCFG_SIZE ↑q) ≤ 4096 ∧ s.cmdOk e.toList = true)
    ∧ (∃ (s : State) (q : Fin 8) (e : Vector Byte 64) (h : Nat), s.inReset = false ∧ s.is (F.HIF_QCFG_EN ↑q) = true ∧ s.hifx.stopping[q] = false ∧ s.hifx.cmds[q] = none ∧ h = s.get (F.HIF_SQSTAT_HEAD ↑q) ∧ h ≠ s.get (F.HIF_SQSTAT_TAIL ↑q) ∧ s.mayDma = true ∧ s.cmdsRunning < 4 ∧ s.queueTurn ↑q = true ∧ s.get (F.HIF_QCFG_SIZE ↑q) ≤ 4096 ∧ s.cmdOk e.toList = false) :=
  ⟨⟨may (q3 [(F.HIF_SQSTAT_TAIL 3, 2)]), 3, ent 2, 0, by decide +kernel⟩,
    ⟨may (q3 [(F.HIF_SQSTAT_TAIL 3, 2)]), 3, ent 5, 0, by decide +kernel⟩⟩

theorem witness_QueuesAndCommands_7 :
    (∃ (s : State) (q : Fin 8) (c : QueueCmd), s.inReset = false ∧ s.hifx.cmds[q] = some c ∧ c.done = none ∧ s.hifx.d3 = false ∧ c.opcode = 1)
    ∧ (∃ (s : State) (q : Fin 8) (c : QueueCmd) (data : List Byte) (a : Nat), s.inReset = false ∧ s.hifx.cmds[q] = some c ∧ c.done = none ∧ s.hifx.d3 = false ∧ c.opcode = 2 ∧ s.mayDma = true ∧ data.length = c.len ∧ c.len % 4 = 0 ∧ s.synd = [] ∧ (∀ (i : Nat), i < c.len → s.byteDest (c.doff + i) = ByteDest.memory) ∧ (a < c.doff ∨ c.doff + c.len ≤ a))
    ∧ (∃ (s : State) (q : Fin 8) (c : QueueCmd) (data : List Byte) (err : DmaErr) (a : Nat), s.inReset = false ∧ s.hifx.cmds[q] = some c ∧ c.done = none ∧ s.hifx.d3 = false ∧ c.opcode = 2 ∧ s.mayDma = true ∧ data.length < c.len ∧ data.length % 4 = 0 ∧ s.synd = [] ∧ (∀ (i : Nat), i < data.length → s.byteDest (c.doff + i) = ByteDest.memory) ∧ (a < c.doff ∨ c.doff + data.length ≤ a) ∧ err = DmaErr.aborted)
    ∧ (∃ (s : State) (q : Fin 8) (c : QueueCmd) (data : List Byte) (err : DmaErr) (a : Nat), s.inReset = false ∧ s.hifx.cmds[q] = some c ∧ c.done = none ∧ s.hifx.d3 = false ∧ c.opcode = 2 ∧ s.mayDma = true ∧ data.length < c.len ∧ data.length % 4 = 0 ∧ s.synd = [] ∧ (∀ (i : Nat), i < data.length → s.byteDest (c.doff + i) = ByteDest.memory) ∧ (a < c.doff ∨ c.doff + data.length ≤ a) ∧ err = DmaErr.timeout)
    ∧ (∃ (s : State) (q : Fin 8) (c : QueueCmd) (a : Nat), s.inReset = false ∧ s.hifx.cmds[q] = some c ∧ c.done = none ∧ s.hifx.d3 = false ∧ c.opcode = 4 ∧ s.synd = [] ∧ (∀ (i : Nat), i < c.len → s.byteDest (c.doff + i) = ByteDest.memory) ∧ c.len % 4 = 0 ∧ (a < c.doff ∨ c.doff + c.len ≤ a))
    ∧ (∃ (s : State) (q : Fin 8) (c : QueueCmd), s.inReset = false ∧ s.hifx.cmds[q] = some c ∧ c.done = none ∧ s.hifx.d3 = false ∧ c.opcode = 3 ∧ s.mayDma = true ∧ s.synd = [] ∧ (∀ (i : Nat), i < c.len → unspecified (c.doff + i) = false) ∧ 1 ≤ c.len) :=
  ⟨⟨busy (cmd 1 0 none) [], 3, cmd 1 0 none, by decide +kernel⟩,
    ⟨busy (cmd 2 8 none) [], 3, cmd 2 8 none, [1#8,2#8,3#8,4#8,5#8,6#8,7#8,8#8], 0, by decide +kernel⟩,
    ⟨busy (cmd 2 8 none) [], 3, cmd 2 8 none, [1#8,2#8,3#8,4#8], .aborted, 0, by decide +kernel⟩,
    ⟨busy (cmd 2 8 none) [], 3, cmd 2 8 none, [1#8,2#8,3#8,4#8], .timeout, 0, by decide +kernel⟩,
    ⟨busy (cmd 4 8 none) [], 3, cmd 4 8 none, 0, by decide +kernel⟩,
    ⟨busy (cmd 3 8 none) [], 3, cmd 3 8 none, by decide +kernel⟩⟩

theorem witness_QueuesAndCommands_8 :
    ∃ (s : State) (q : Fin 8) (c : QueueCmd) (st : Nat) (tail : Nat) (next : Nat), s.inReset = false ∧ s.hifx.cmds[q] = some c ∧ c.done = some st ∧ s.mayDma = true ∧ tail = s.get (F.HIF_CQSTAT_TAIL ↑q) ∧ next = (tail + 1) % max 1 (s.get (F.HIF_QCFG_SIZE ↑q)) ∧ next ≠ s.get (F.HIF_CQSTAT_HEAD ↑q) ∧ s.get (F.HIF_QCFG_SIZE ↑q) ≤ 4096 ∧ s.hifx.stopping[q] = false ∧ s.get (F.HIF_QCFG_CQAGG ↑q) = 0 :=
  ⟨busy (cmd 3 8 (some 1)) [(F.HIF_CQSTAT_TAIL 3, 7), (F.HIF_CQSTAT_HEAD 3, 3)], 3, cmd 3 8 (some 1), 1, 7, 0, by decide +kernel⟩

theorem witness_QueuesAndCommands_9 :
    (∃ (s : State) (q : Fin 8), s.inReset = false ∧ s.is (F.HIF_QCFG_CQTIME ↑q) = true ∧ s.hifx.unsig[q] ≠ 0 ∧ s.solo = false ∧ s.mayMsg = true ∧ (s.mayMsg = false ∨ bit s.hifx.mask ↑q = true))
    ∧ (∃ (s : State) (q : Fin 8), s.inReset = false ∧ (s.is (F.HIF_QCFG_CQTIME ↑q) = false ∨ s.hifx.unsig[q] = 0))
    ∧ (∃ (s : State) (q : Fin 8), s.inReset = false ∧ s.is (F.HIF_QCFG_CQTIME ↑q) = true ∧ s.hifx.unsig[q] ≠ 0 ∧ s.solo = false ∧ s.mayMsg = true ∧ bit s.hifx.mask ↑q = false) :=
  ⟨⟨un (may (q3 [(F.HIF_QCFG_CQTIME 3, 1)])), 3, by decide +kernel⟩,
    ⟨un (q3 [(F.HIF_QCFG_CQTIME 3, 0)]), 3, by decide +kernel⟩,
    ⟨un (may0 (q3 [(F.HIF_QCFG_CQTIME 3, 1)])), 3, by decide +kernel⟩⟩

theorem witness_HostEvents_0 :
    (∃ (s : State) (src : Src) (v : Word) (rise : Nat), s.inReset = false ∧ s.hears src = true ∧ rise = BitVec.toNat (v &&& 4194048#32 &&& ~~~s.reg F.HIF_EVEN_EN.off &&& s.reg F.HIF_EVSTAT_CAUSE.off &&& 4193792#32) ∧ s.solo = false ∧ s.mayMsg = true)
    ∧ (∃ (s : State) (src : Src) (v : Word) (rise : Nat), s.inReset = false ∧ s.hears src = true ∧ rise = BitVec.toNat (v &&& 4194048#32 &&& ~~~s.reg F.HIF_EVEN_EN.off &&& s.reg F.HIF_EVSTAT_CAUSE.off &&& 4193792#32) ∧ s.solo = false ∧ s.mayMsg = true ∧ rise = 0)
    ∧ (∃ (s : State) (src : Src) (v : Word) (rise : Nat), s.inReset = false ∧ s.hears src = true ∧ rise = BitVec.toNat (v &&& 4194048#32 &&& ~~~s.reg F.HIF_EVEN_EN.off &&& s.reg F.HIF_EVSTAT_CAUSE.off &&& 4193792#32) ∧ s.solo = true)
    ∧ (∃ (s : State) (src : Src) (v : Word) (rise : Nat), s.inReset = false ∧ s.hears src = true ∧ rise = BitVec.toNat (v &&& 4194048#32 &&& ~~~s.reg F.HIF_EVEN_EN.off &&& s.reg F.HIF_EVSTAT_CAUSE.off &&& 4193792#32) ∧ s.solo = false ∧ s.mayMsg = true ∧ s.hifx.mask = 0) :=
  ⟨⟨(may up).setReg F.HIF_EVSTAT_CAUSE.off 0x200#32, .host, 0x300#32, 0x200, by decide +kernel⟩,
    ⟨may up, .host, 0xFFFFFFFF#32, 0, by decide +kernel⟩,
    ⟨up.put F.SYS_STRAP_CFGMODE 1, .host, 0x300#32, 0, by decide +kernel⟩,
    ⟨(may0 up).setReg F.HIF_EVSTAT_CAUSE.off 0x200#32, .host, 0x300#32, 0x200, by decide +kernel⟩⟩

theorem witness_HostEvents_1 :
    (∃ (s : State) (speed : BitVec 4) (width : BitVec 4), s.inReset = false ∧ s.solo = false ∧ speed ≠ 0#4 ∧ speed ≤ 3#4 ∧ width.toNat ∈ [1, 2, 4, 8])
    ∧ (∃ (s : State) (speed : BitVec 4) (width : BitVec 4), s.inReset = false ∧ (s.solo = true ∨ speed = 0#4 ∨ 3#4 < speed ∨ ¬width.toNat ∈ [1, 2, 4, 8]) ∧ s.solo = false ∧ speed ≠ 0#4) :=
  ⟨⟨up, 3#4, 8#4, by decide +kernel⟩,
    ⟨up, 4#4, 8#4, by decide +kernel⟩⟩

theorem witness_HostEvents_2 :
    (∃ (s : State), s.inReset = false ∧ FMap.wf resetVal s.regs = true ∧ s.solo = false)
    ∧ (∃ (s : State), s.inReset = false ∧ FMap.wf resetVal s.regs = true ∧ s.solo = true)
    ∧ (∃ (s : State) (a : Nat), s.inReset = false ∧ FMap.wf resetVal s.regs = true ∧ s.solo = false ∧ 16384 ≤ a ∧ a < 32768) :=
  ⟨⟨busy (cmd 1 0 none) [], by decide +kernel⟩,
    ⟨(busy (cmd 1 0 none) []).put F.SYS_STRAP_CFGMODE 1, by decide +kernel⟩,
    ⟨busy (cmd 1 0 none) [], 0x4000, by decide +kernel⟩⟩

theorem witness_HostEvents_3 :
    (∃ (s : State), s.inReset = false ∧ s.solo = false ∧ s.hifx.bme = true ∧ s.msixOn = true ∧ s.hifx.mask = 0 ∧ (s.hifx.d3 = true ∨ s.msixOn = false))
    ∧ (∃ (s : State), s.inReset = false ∧ s.solo = false ∧ s.hifx.d3 = false ∧ s.msixOn = true ∧ s.hifx.mask = 0)
    ∧ (∃ (s : State), s.inReset = false ∧ s.solo = true) :=
  ⟨⟨pb (may up) 0 5, by decide +kernel⟩,
    ⟨{(pb up 0 5) with hifx := {(pb up 0 5).hifx with d3 := false}}, by decide +kernel⟩,
    ⟨up.put F.SYS_STRAP_CFGMODE 1, by decide +kernel⟩⟩

theorem witness_HostEvents_4 :
    ∃ (s : State), s.inReset = false ∧ s.hears Src.host = true ∧ s.solo = true :=
  ⟨up.put F.SYS_STRAP_CFGMODE 1, by decide +kernel⟩

theorem witness_HostEvents_5 :
    (∃ (s : State) (v : Fin 32), s.inReset = false ∧ s.hears Src.host = true ∧ s.solo = false ∧ bit s.hifx.mask ↑v = true ∧ s.mayMsg = true ∧ s.hifx.pba = 2 ^ v.val)
    ∧ (∃ (s : State) (v : Fin 32), s.inReset = false ∧ s.hears Src.host = true ∧ s.solo = false ∧ bit s.hifx.mask ↑v = true ∧ s.hifx.pba = 0 ∧ s.mayMsg = true)
    ∧ (∃ (s : State) (v : Fin 32), s.inReset = false ∧ s.hears Src.host = true ∧ s.solo = false ∧ bit s.hifx.mask ↑v = false) :=
  ⟨⟨{may up with hifx := {(may up).hifx with mask := 0xFFFFFFFF, pba := 4}}, 2, by decide +kernel⟩,
    ⟨{may up with hifx := {(may up).hifx with mask := 4, pba := 0}}, 2, by decide +kernel⟩,
    ⟨{may up with hifx := {(may up).hifx with mask := 0xFFFFFFFB, pba := 4}}, 2, by decide +kernel⟩⟩

theorem witness_HostEvents_6 :
    ∃ (s : State) (off : BitVec 28) (o : BitVec 20) (size : Nat) (v : Word) (data : List Byte) (q : Fin 8) (n : Fin 32) (c : Instr), s.inReset = false ∧ s.hears Src.host = false ∧ c ∈ [Instr.registerWrite Src.host (RegAddr.bar0 o) size v, Instr.registerWrite Src.host (RegAddr.bar4 o) size v, Instr.bar2Write Src.host off data, Instr.sqDoorbell Src.host q v, Instr.cqDoorbell Src.host q v, Instr.msixUnmask n] :=
  ⟨hot, 0x400000#28, 0x8#20, 4, 1#32, [1#8], 3, 2, Instr.registerWrite .host (.bar0 0x8#20) 4 1#32, by decide +kernel⟩

theorem witness_HostEvents_7 :
    ∃ (s : State) (src : Src) (o : BitVec 20) (n : Fin 32) (i : Fin 3) (k : Nat), s.inReset = false ∧ s.hears src = true ∧ s.solo = false ∧ o.toNat = 32768 + 16 * ↑n + 4 * ↑i ∧ k ≠ 4 * ↑n + ↑i :=
  ⟨up, .host, 0x81F8#20, 31, 2, 0, by decide +kernel⟩

theorem witness_HostEvents_8 :
    ∃ (s : State) (src : Src) (o : BitVec 20) (size : Nat), s.inReset = false ∧ s.hears src = true ∧ o.toNat < 65536 ∧ (s.solo = true ∨ size ≠ 4 ∨ o.toNat % 4 ≠ 0 ∨ 33280 ≤ o.toNat ∧ o.toNat < 49152 ∨ 49160 ≤ o.toNat) :=
  ⟨up, .host, 0x8200#20, 4, by decide +kernel⟩

theorem witness_HostEvents_9 :
    (∃ (s : State) (o : BitVec 20) (n : Fin 32), s.inReset = false ∧ s.hears Src.host = true ∧ s.solo = false ∧ o.toNat = 32768 + 16 * ↑n + 12)
    ∧ (∃ (s : State) (o : BitVec 20), s.inReset = false ∧ s.hears Src.host = true ∧ s.solo = false ∧ o.toNat = 49152) :=
  ⟨⟨{(pb (may up) 0x80000000 5) with hifx := {(pb (may up) 0x80000000 5).hifx with d3 := false}}, 0x81FC#20, 31, by decide +kernel⟩,
    ⟨{(pb (may up) 0x80000000 5) with hifx := {(pb (may up) 0x80000000 5).hifx with d3 := false}}, 0xC000#20, by decide +kernel⟩⟩

theorem witness_HostEvents_10 :
    (∃ (s : State), s.inReset = false ∧ s.solo = false)
    ∧ (∃ (s : State), s.inReset = false ∧ s.solo = false ∧ s.hifx.cfg = []) :=
  ⟨⟨up, by decide +kernel⟩,
    ⟨{State.reset with inReset := false}, by decide +kernel⟩⟩

/-! ### Witnesses: bring-up, faults and registers -/

def dn : State := withF {State.reset with inReset := false} []
def busyArmed : State := (armed.put (F.AXS_CTRL_EN 1) 1).put F.SEQ_STAT_RUN 1
def lossWait : State := withCtx (shotsOn (queued up 0 [.loss 5 90000 90000]) [{shot0 with owners := [4]}] true) [ctx0]
def soloW : State := withStl (solo []) fun x => {x with presetsWait := true}
def img0 : List Byte := leBytes 4 0x42584E58 ++ leBytes 2 1 ++ leBytes 2 0 ++ List.replicate 100 0#8
def bst : State := withF up [(F.TBS_BOOT_RESULT, 3), (F.TBS_BOOT_CAUSE0, 2), (F.STL_STAT_TXST, 1)]
def bst7 : State := withStl bst fun x => {x with bootAt := some 7}
def asleep : State := withF up [(F.SYS_STAT_TBLOCK, 0), (F.TBS_STAT_LOCK, 0), (F.TBS_STAT_SLEEP, 1), (F.TBS_CFG_RXWAKE, 1)]
def convWait : State := withSns up fun x => {x with adcs := x.adcs.set 2 ({x.adcs[2] with reqs := [⟨.host, 7, 5⟩]})}
def fr0 : FaultRec := ⟨7, 3, 0x123456, true, false, false, false, 0, 0, 500, 1, 2, []⟩
def flt (l : List (Fld × Nat)) : State := withF ({up with flt := {up.flt with detected := [fr0]}}.put F.FLT_CFG_VC3 0) l
def fr1 : FaultRec := {fr0 with ctxs := [4]}
def replaying : State := withCtx {up with flt := {up.flt with detected := [fr1]}} [{ctx0 with reprocess := true, state := .closed}]
def rooted : State := {up with flt := {up.flt with roots := [⟨7, 3, none, 40⟩, ⟨7, 2, none, 50⟩]}}
def e1 : State := up.setErrors 0x20000 (errorSyndrome 4 9#8)
def e3 : Word := errorSyndrome 4 9#8 ^^^ errorSyndrome 5 9#8 ^^^ errorSyndrome 6 9#8
def sy (l : List Nat) : State := withF {up with fle := {up.fle with syncs := l}} [(F.FLE_SYNC_MINSP, 2)]
def win (l : List (Fld × Nat)) : State := withF {up with fle := {up.fle with drops := 3}} ([(F.FLE_SSIZE_SIZE, 64), (F.FLE_SBASE_BASE, 0x410000)] ++ l)
def no (k : Nat) : Notice := ⟨k, 5, 7, 8, 9, 10, 11, 12, (1,2), (3,4), 99⟩
def rpt (k : Nat) : State := {up with fle := {up.fle with notices := [no k]}}.put F.STL_STAT_TXST 1
def late_y4 : State := {up with dt := 0x500000007}

theorem witness_TimeBaseAndBoot_0 :
    (∃ (s : State), s.inReset = false ∧ (s.is F.SYS_STAT_TBLOCK = true ∨ s.is F.TBS_STAT_SLEEP = true))
    ∧ (∃ (s : State), s.inReset = false ∧ s.is F.SYS_STAT_TBLOCK = false ∧ s.is F.TBS_STAT_SLEEP = false) :=
  ⟨⟨up, by decide +kernel⟩,
    ⟨dn, by decide +kernel⟩⟩

theorem witness_TimeBaseAndBoot_1 :
    (∃ (s : State), s.inReset = false ∧ s.is F.SYS_STAT_TBLOCK = true)
    ∧ (∃ (s : State) (a : Fin 4), s.inReset = false ∧ s.is F.SYS_STAT_TBLOCK = true ∧ s.is (F.AXS_CTRL_EN ↑a) = true) :=
  ⟨⟨up, by decide +kernel⟩,
    ⟨busyArmed, Fin.ofNat 4 1, by decide +kernel⟩⟩

theorem witness_TimeBaseAndBoot_2 :
    (∃ (s : State) (c : Ctx), s.inReset = false ∧ s.is F.SYS_STAT_TBLOCK = true ∧ s.emi.tq = [] ∧ s.pool.ctxs = [c] ∧ c.live = true ∧ s.lossPending c = false)
    ∧ (∃ (s : State) (c : Ctx), s.inReset = false ∧ s.is F.SYS_STAT_TBLOCK = true ∧ s.emi.tq = [] ∧ s.pool.ctxs = [c] ∧ c.live = true ∧ s.lossPending c = true) :=
  ⟨⟨withCtx up [ctx0], ctx0, by decide +kernel⟩,
    ⟨lossWait, ctx0, by decide +kernel⟩⟩

theorem witness_TimeBaseAndBoot_3 :
    ∃ (s : State) (slot0 : List Byte) (slot1 : List Byte), s.inReset = false ∧ s.booting = true ∧ s.stl.presetsWait = true ∧ candidates slot0 slot1 = [] :=
  ⟨soloW, [], [], by decide +kernel⟩

theorem witness_TimeBaseAndBoot_4 :
    ∃ (s : State) (slot0 : List Byte) (slot1 : List Byte), s.inReset = false ∧ s.booting = true ∧ (s.tryBoot (candidates slot0 slot1)).slot = none :=
  ⟨soloW, [], [], by decide +kernel⟩

theorem witness_TimeBaseAndBoot_5 :
    (∃ (s : State) (slot0 : List Byte) (slot1 : List Byte), s.inReset = false ∧ s.booting = true ∧ magicOk slot0 = false ∧ magicOk slot1 = false)
    ∧ (∃ (s : State) (slot0 : List Byte) (slot1 : List Byte), s.inReset = false ∧ s.booting = true ∧ magicOk slot0 = true ∧ versionOk slot0 = true ∧ s.headerCause slot0 ≠ 0 ∧ magicOk slot1 = false) :=
  ⟨⟨soloW, [], [], by decide +kernel⟩,
    ⟨soloW, img0, [], by decide +kernel⟩⟩

theorem witness_TimeBaseAndBoot_6 :
    ∃ (s : State) (t : Nat), s.inReset = false ∧ s.get F.TBS_BOOT_RESULT = 3 ∧ s.txActive = true ∧ s.stl.held.getD 3 [] = [] ∧ s.hasRoom 3 32 = true ∧ (∀ (b : Nat), s.stl.bootAt = some b → b + 1638400000 ≤ t) :=
  ⟨bst, 99, by decide +kernel⟩

theorem witness_TimeBaseAndBoot_7 :
    ∃ (s : State) (t : Nat) (b : Nat), s.inReset = false ∧ s.stl.bootAt = some b ∧ t < b + 1638400000 :=
  ⟨bst7, 1638400006, 7, by decide +kernel⟩

theorem witness_TimeBaseAndBoot_8 :
    (∃ (s : State) (src : Src), s.inReset = false ∧ s.hears src = true ∧ s.solo = false)
    ∧ (∃ (s : State) (src : Src), s.inReset = false ∧ s.hears src = true ∧ s.solo = true) :=
  ⟨⟨up, .host, by decide +kernel⟩,
    ⟨solo [], .postmaster, by decide +kernel⟩⟩

theorem witness_TimeBaseAndBoot_9 :
    (∃ (s : State) (src : Src) (v : Word), s.inReset = false ∧ s.hears src = true ∧ s.is F.TBS_STAT_SLEEP = false ∧ F.TBS_CTRL_WAKE.isOf v = false ∧ s.maySleep = true)
    ∧ (∃ (s : State) (src : Src) (v : Word), s.inReset = false ∧ s.hears src = true ∧ s.is F.TBS_STAT_SLEEP = false ∧ (F.TBS_CTRL_WAKE.isOf v = true ∨ s.maySleep = false))
    ∧ (∃ (s : State) (src : Src) (v : Word) (l : Fin 4) (q : Conv), s.inReset = false ∧ s.hears src = true ∧ s.is F.TBS_STAT_SLEEP = false ∧ F.TBS_CTRL_WAKE.isOf v = false ∧ s.maySleep = true ∧ q ∈ s.sns.adcs[l].reqs) :=
  ⟨⟨up, .host, 1#32, by decide +kernel⟩,
    ⟨up, .host, 3#32, by decide +kernel⟩,
    ⟨convWait, .host, 1#32, 2, ⟨.host, 7, 5⟩, by decide +kernel⟩⟩

theorem witness_TimeBaseAndBoot_10 :
    (∃ (s : State) (src : Src), s.inReset = false ∧ s.synd = [] ∧ s.hears src = true ∧ s.is F.TBS_STAT_SLEEP = false ∧ (s.is F.TBS_STAT_SLEEP = false ∨ s.is F.TBS_CFG_RXWAKE = false))
    ∧ (∃ (s : State) (src : Src), s.inReset = false ∧ s.synd = [] ∧ s.hears src = true ∧ s.is F.TBS_STAT_SLEEP = true ∧ s.is F.TBS_CFG_RXWAKE = true) :=
  ⟨⟨up, .host, by decide +kernel⟩,
    ⟨asleep, .host, by decide +kernel⟩⟩

theorem witness_FaultsAndCompany_0 :
    (∃ (s : State) (i : Nat) (e : Nat) (d : FaultRec) (k : Nat), s.inReset = false ∧ s.flt.detected[i]? = some d ∧ s.isolated d = true ∧ s.is F.FLT_CFG_VC3 = false ∧ e = s.get F.FLT_LOGIDX_PROD ∧ k < 8 ∧ (e + 1) % 256 ≠ s.get F.FLT_LOGIDX_CONS)
    ∧ (∃ (s : State) (i : Nat) (e : Nat) (d : FaultRec) (k : Nat), s.inReset = false ∧ s.flt.detected[i]? = some d ∧ s.isolated d = true ∧ s.is F.FLT_CFG_VC3 = false ∧ e = s.get F.FLT_LOGIDX_PROD ∧ k < 8 ∧ (e + 1) % 256 = s.get F.FLT_LOGIDX_CONS) :=
  ⟨⟨flt [], 0, 0, fr0, 0, by decide +kernel⟩,
    ⟨flt [(F.FLT_LOGIDX_PROD, 255)], 0, 255, fr0, 0, by decide +kernel⟩⟩

theorem witness_FaultsAndCompany_1 :
    ∃ (s : State) (i : Nat) (d : FaultRec), s.inReset = false ∧ s.flt.detected[i]? = some d ∧ s.isolated d = false :=
  ⟨replaying, 0, fr1, by decide +kernel⟩

theorem witness_FaultsAndCompany_2 :
    ∃ (s : State) (m : Fin 8), s.inReset = false ∧ (∀ (r : Root), r ∈ s.flt.roots → ¬(r.cause = 7 ∧ r.inst = ↑m)) :=
  ⟨up, 3, by decide +kernel⟩

theorem witness_FaultsAndCompany_3 :
    ∃ (s : State) (m : Fin 8) (x : Root) (r : Root), s.inReset = false ∧ (List.find? (fun r => decide (r.cause = 7) && decide (r.inst = ↑m)) s.flt.roots = some x) ∧ r ∈ s.flt.roots ∧ (¬(r.cause = 7 ∧ r.inst = ↑m)) ∧ s.is F.SYS_STAT_TBLOCK = true :=
  ⟨rooted, 3, ⟨7, 3, none, 40⟩, ⟨7, 2, none, 50⟩, by decide +kernel⟩

theorem witness_FaultsAndCompany_4 :
    (∃ (s : State) (a : BitVec 28) (m : Nat) (w : Nat) (es : List (Nat × Byte)) (v : Nat) (b : Nat), s.inReset = false ∧ memIndex a.toNat = some m ∧ w = a.toNat / 32 ∧ rsDecode (s.errors w) = some es ∧ es ≠ [] ∧ v ≠ w ∧ b / 32 ≠ w)
    ∧ (∃ (s : State) (a : BitVec 28) (m : Nat) (w : Nat) (es : List (Nat × Byte)), s.inReset = false ∧ memIndex a.toNat = some m ∧ w = a.toNat / 32 ∧ rsDecode (s.errors w) = some es ∧ es = []) :=
  ⟨⟨e1, 0x400000#28, 3, 0x20000, [(4, 9#8)], 0, 0, by decide +kernel⟩,
    ⟨up, 0x400000#28, 3, 0x20000, [], by decide +kernel⟩⟩

theorem witness_FaultsAndCompany_5 :
    ∃ (s : State) (a : BitVec 28) (m : Nat) (w : Nat) (j : Fin 36) (x : Nat), s.inReset = false ∧ memIndex a.toNat = some m ∧ w = a.toNat / 32 ∧ s.errors w = 0#32 ∧ ↑j < 32 ∧ (x ≠ 32 * w + ↑j ∨ 32 ≤ ↑j) :=
  ⟨up, 0x400000#28, 3, 0x20000, 4, 0, by decide +kernel⟩

theorem witness_FaultsAndCompany_6 :
    ∃ (s : State) (a : BitVec 28), s.inReset = false ∧ memIndex a.toNat = some 3 ∧ rsDecode (s.errors (a.toNat / 32)) = none :=
  ⟨up.setErrors 0x20000 e3, 0x400000#28, by decide +kernel⟩

theorem witness_FaultsAndCompany_7 :
    (∃ (s : State), s.inReset = false ∧ s.is F.SYS_STAT_TBLOCK = true)
    ∧ (∃ (s : State), s.inReset = false ∧ s.is F.SYS_STAT_TBLOCK = false) :=
  ⟨⟨up, by decide +kernel⟩,
    ⟨dn, by decide +kernel⟩⟩

theorem witness_FaultsAndCompany_8 :
    (∃ (s : State) (t : Nat), s.inReset = false ∧ s.is F.SYS_STAT_TBLOCK = true ∧ (∀ (l : Nat), l ∈ s.fle.syncs.head? → l + 1600000 * s.get F.FLE_SYNC_MINSP ≤ t))
    ∧ (∃ (s : State) (t : Nat), s.inReset = false ∧ s.is F.SYS_STAT_TBLOCK = true ∧ (∃ l, l ∈ s.fle.syncs.head? ∧ t < l + 1600000 * s.get F.FLE_SYNC_MINSP)) :=
  ⟨⟨sy [100], 3200100, by decide +kernel⟩,
    ⟨sy [100], 3200099, by decide +kernel⟩⟩

theorem witness_FaultsAndCompany_9 :
    (∃ (s : State) (p : Nat) (n : Nat) (base : Nat), s.inReset = false ∧ s.is F.SYS_STAT_TBLOCK = true ∧ n = s.get F.FLE_SSIZE_SIZE ∧ p = s.get F.FLE_SIDX_SPROD ∧ base = s.get F.FLE_SBASE_BASE ∧ n ≠ 0 ∧ s.suspectFree ≠ 0 ∧ s.synd = [])
    ∧ (∃ (s : State) (p : Nat) (n : Nat) (base : Nat), s.inReset = false ∧ s.is F.SYS_STAT_TBLOCK = true ∧ n = s.get F.FLE_SSIZE_SIZE ∧ p = s.get F.FLE_SIDX_SPROD ∧ base = s.get F.FLE_SBASE_BASE ∧ n ≠ 0 ∧ s.suspectFree = 0) :=
  ⟨⟨win [(F.FLE_SUS_EN, 1)], 0, 64, 0x410000, by decide +kernel⟩,
    ⟨win [(F.FLE_SUS_EN, 1), (F.FLE_SIDX_SCONS, 1)], 0, 64, 0x410000, by decide +kernel⟩⟩

theorem witness_FaultsAndCompany_10 :
    (∃ (s : State) (n : Nat) (x : Notice), s.inReset = false ∧ s.is F.SYS_STAT_TBLOCK = true ∧ s.fle.notices = [x] ∧ x.window ≤ n ∧ (x.kind = 1 ∨ x.kind = 2) ∧ s.stl.held.getD 3 [] = [] ∧ s.hasRoom 3 32 = true)
    ∧ (∃ (s : State) (n : Nat) (x : Notice), s.inReset = false ∧ s.is F.SYS_STAT_TBLOCK = true ∧ s.fle.notices = [x] ∧ n < x.window) :=
  ⟨⟨rpt 1, 7, no 1, by decide +kernel⟩,
    ⟨rpt 1, 6, no 1, by decide +kernel⟩⟩

theorem witness_RegisterAccess_0 :
    (∃ (s : State) (src : Src) (off : BitVec 20) (size : Nat), s.inReset = false ∧ s.hears src = true ∧ (size ≠ 4 ∨ off.toNat % 4 ≠ 0))
    ∧ (∃ (s : State) (src : Src) (off : BitVec 20) (size : Nat), s.inReset = false ∧ s.hears src = true ∧ size = 4 ∧ off.toNat % 4 = 0 ∧ 368640 ≤ off.toNat ∧ off.toNat < 376832)
    ∧ (∃ (s : State) (src : Src) (off : BitVec 20) (size : Nat), s.inReset = false ∧ s.hears src = true ∧ size = 4 ∧ off.toNat % 4 = 0 ∧ 368640 ≤ off.toNat ∧ (off.toNat < 368640 ∨ 376832 ≤ off.toNat) ∧ findReg off.toNat = none)
    ∧ (∃ (s : State) (src : Src) (off : BitVec 20) (size : Nat), s.inReset = false ∧ s.hears src = true ∧ size = 4 ∧ off.toNat % 4 = 0 ∧ (off.toNat < 368640 ∨ 376832 ≤ off.toNat) ∧ s.solo = true ∧ 16384 ≤ off.toNat ∧ off.toNat < 32768) :=
  ⟨⟨up, .host, 0x34000#20, 2, by decide +kernel⟩,
    ⟨up, .postmaster, 0x5A004#20, 4, by decide +kernel⟩,
    ⟨up, .host, 0xFFFFC#20, 4, by decide +kernel⟩,
    ⟨up.put F.SYS_STRAP_CFGMODE 1, .host, 0x4000#20, 4, by decide +kernel⟩⟩

theorem witness_RegisterAccess_1 :
    (∃ (s : State) (src : Src) (v : Word) (m : BitVec 20 × RegId × Word), s.inReset = false ∧ s.hears src = true ∧ m ∈ [(212992, RegId.ctxCfg, 3#32), (245760, RegId.pntCfg, 511#32), (294912, RegId.snsCfg, 1023#32), (311324, RegId.seqWtmo, 4294967295#32), (360448, RegId.fltCfg, 3#32), (376840, RegId.fleSync, 16777215#32)] ∧ badValue m.snd.fst v = true)
    ∧ (∃ (s : State) (src : Src) (v : Word) (m : BitVec 20 × RegId × Word), s.inReset = false ∧ s.hears src = true ∧ m ∈ [(212992, RegId.ctxCfg, 3#32), (245760, RegId.pntCfg, 511#32), (294912, RegId.snsCfg, 1023#32), (311324, RegId.seqWtmo, 4294967295#32), (360448, RegId.fltCfg, 3#32), (376840, RegId.fleSync, 16777215#32)] ∧ badValue m.snd.fst v = false) :=
  ⟨⟨up, .host, 0x3#32, (0x34000, RegId.ctxCfg, 0x3#32), by decide +kernel⟩,
    ⟨up, .host, 0x155#32, (0x3C000, RegId.pntCfg, 0x1FF#32), by decide +kernel⟩⟩

theorem witness_RegisterAccess_3 :
    (∃ (s : State) (rd : Reader) (m : BitVec 20 × Nat × Nat), s.inReset = false ∧ (rd = Reader.host → s.hears Src.host = true) ∧ m ∈ [(48, 52, s.dt), (311312, 311316, s.seq.fsq.tc), (376844, 376848, s.fle.syncs.headD 0)] ∧ (rd = Reader.host ∨ rd = Reader.postmaster))
    ∧ (∃ (s : State) (rd : Reader) (m : BitVec 20 × Nat × Nat), s.inReset = false ∧ (rd = Reader.host → s.hears Src.host = true) ∧ m ∈ [(48, 52, s.dt), (311312, 311316, s.seq.fsq.tc), (376844, 376848, s.fle.syncs.headD 0)] ∧ rd ≠ Reader.host ∧ rd ≠ Reader.postmaster) :=
  ⟨⟨late_y4, .host, (0x30, 0x34, 0x500000007), by decide +kernel⟩,
    ⟨late_y4, .fsq, (0x30, 0x34, 0x500000007), by decide +kernel⟩⟩

theorem witness_RegisterAccess_4 :
    (∃ (s : State) (rd : Reader) (off : BitVec 20) (size : Nat), s.inReset = false ∧ (rd = Reader.host → s.hears Src.host = true) ∧ (size ≠ 4 ∨ off.toNat % 4 ≠ 0 ∨ findReg off.toNat = none ∧ (off.toNat < 368640 ∨ 376832 ≤ off.toNat)) ∧ (rd = Reader.host ∨ rd = Reader.postmaster))
    ∧ (∃ (s : State) (rd : Reader) (off : BitVec 20) (size : Nat), s.inReset = false ∧ (rd = Reader.host → s.hears Src.host = true) ∧ (size ≠ 4 ∨ off.toNat % 4 ≠ 0 ∨ findReg off.toNat = none ∧ (off.toNat < 368640 ∨ 376832 ≤ off.toNat)) ∧ rd ≠ Reader.host ∧ rd ≠ Reader.postmaster) :=
  ⟨⟨up, .host, 0x30#20, 2, by decide +kernel⟩,
    ⟨up, .pe 3, 0x30#20, 8, by decide +kernel⟩⟩

/-! ### Witnesses: the machine -/

theorem witness_CanonicalKept : ∃ s t : State, s.canonical ∧ step s = .next t :=
  ⟨State.reset, State.reset, by delta State.canonical; decide +kernel, rfl⟩

theorem witness_ResetAndTestPort_inReset :
    (∃ (c : Instr) (s : State), s.inReset = true ∧ c ≠ .resetAssert ∧ (∀ m, c ≠ .resetRelease m) ∧ (∀ a b d, c ≠ .testPortClock a b d)
      ∧ c ≠ .testReset ∧ (∀ l t, c ≠ .permitEdge l t) ∧ c ≠ .hardInhibitAssert ∧ (∀ t, c ≠ .hardInhibitRelease t))
      ∧ ∃ s : State, s.tap.instr = .extest :=
  ⟨⟨.fireSlot, { State.reset with inReset := true }, rfl, nofun, fun _ => nofun, fun _ _ _ => nofun, nofun, fun _ _ => nofun, nofun,
    fun _ => nofun⟩, { up with tap := { up.tap with instr := .extest } }, rfl⟩

theorem witness_ResetAndTestPort_port :
    (∃ s : State, s.tap.state = .exit1Ir ∧ s.tap.irShift = 0#4 ∧ s.is F.EMI_CTRL_ARM = true)
      ∧ ∃ s : State, s.tap.state = .shiftDr ∧ s.tap.instr = .bypass :=
  ⟨⟨{ armed with tap := { armed.tap with state := .exit1Ir, irShift := 0#4 } }, by decide +kernel⟩,
    { up with tap := { up.tap with state := .shiftDr } }, by decide +kernel⟩

theorem witness_EncodingRoundTrip_encode :
    ∃ (i : Instr) (e : Eng) (q : Parts), i.parts = some (e, q) ∧ legal i = true :=
  ⟨.li (.pe 0) pT 20#6 (.ext 0xFFFF#32), _, _, rfl, by decide⟩

theorem witness_Predicates_false :
    ∃ (i : Instr) (e : Eng) (q : Parts) (s : State),
      i.parts = some (e, q) ∧ legal i = true ∧ s.fetches e (extLen q.ext) ∧ (s.eng e).holds q.pred = false :=
  ⟨.addi .fsq pF 1#6 2#6 (.short 5#9), _, _, onFsq id, rfl, by decide, by delta State.fetches; decide +kernel, by decide +kernel⟩

theorem witness_ShiftResults_status :
    ∃ (n : Fin 16) (p : Pred) (rd ra rb : BitVec 6) (b : AluSrc) (h : ShSrc) (s t : State) (i : Instr),
      i ∈ [Instr.add (.pe n) p rd ra b, .sub (.pe n) p rd ra b, .adds (.pe n) p rd ra b, .subs (.pe n) p rd ra b,
        .iAnd (.pe n) p rd ra b, .iOr (.pe n) p rd ra b, .iXor (.pe n) p rd ra b, .shl (.pe n) p rd ra h, .shr (.pe n) p rd ra h,
        .shra (.pe n) p rd ra h, .shls (.pe n) p rd ra h, .mul (.pe n) p rd ra rb, .muls (.pe n) p rd ra rb,
        .mulhs (.pe n) p rd ra rb]
      ∧ (s.eng (.pe n)).bad = [] ∧ (∃ len, s.runs (.pe n) p len [] ∧ i.parts.map (fun q => extLen q.2.ext) = some len)
      ∧ exec i s = .next t :=
  ⟨2, pT, 7#6, 5#6, 6#6, .reg 6#6, .imm6 3#6, bg id, _,
    .subs (.pe 2) pT 7#6 5#6 (.reg 6#6), by simp, by decide +kernel,
    ⟨1, by delta State.runs State.fetches; decide +kernel, rfl⟩, rfl⟩

theorem witness_Inhibits_release :
    ∃ (s u : State) (t tf tf' : Nat), s.inReset = false ∧ s.is F.EMI_STAT_INH = true ∧ exec (.hardInhibitRelease t) s = .next u
      ∧ u.follows s tf ∧ tf < 16 * (t + 1600) ∧ u.follows s tf' ∧ 16 * (t + 1600) ≤ tf' :=
  ⟨withF armed [(F.EMI_STAT_INH, 1)], result (exec (.hardInhibitRelease 5) (withF armed [(F.EMI_STAT_INH, 1)])), 5, 25679, 25680,
    by decide +kernel, by decide +kernel, rfl, by delta State.follows; decide +kernel⟩

theorem witness_GatesAndBins_closing :
    (∃ (s : State) (ch : Fin 512) (t : Nat) (g : Gate), s.inReset = false ∧ s.cal.pending = [] ∧ g ∈ s.ret.gates ∧ g.closed = false
      ∧ g.ch = ch ∧ g.closes ≤ t) :=
  ⟨listening, 5, 5000, ⟨7, 5, 2, 0, 5000, none, false, false, 0⟩, by decide +kernel⟩

theorem witness_HostEvents_reads :
    ∃ (s : State) (off2 : BitVec 28) (o : BitVec 20) (size len : Nat) (c : Instr), s.inReset = false ∧ s.hifx.d3 = true
      ∧ c ∈ [Instr.readClear .host (.bar0 o), .ignoredRead .host (.bar4 o) size, .bar2Read .host off2 len] :=
  ⟨hot, 0x400000#28, 8#20, 4, 4, .readClear .host (.bar0 8#20), by decide +kernel⟩

theorem witness_RegisterAccess_read :
    ∃ (off : BitVec 20) (d : RegDesc) (i j : Nat) (s : State), s.inReset = false ∧ off.toNat % 4 = 0 ∧ off.toNat < 0x5A000
      ∧ findReg off.toNat = some (d, i, j) ∧ s.hifHidden off.toNat = false
      ∧ d.id ∉ [RegId.sysDtlo, .seqTclo, .fleNstat, .fleSynclo, .prsStat] :=
  ⟨0x3400C#20, ⟨.ctxPeak, 0x3400C, 0, 1, 0, 0, 1, 0, 0, 0, 0xFFFF, 0⟩, 0, 0, up, by decide +kernel⟩

/-! ### A stream job whose output is too long for a frame -/

theorem length_cutBlocks (n : Nat) (bs : List Byte) (h : bs.length ≤ 4096 * n) :
    (cutBlocks n bs).length = (bs.length + 4095) / 4096 := by
  induction n generalizing bs with
  | zero => cases bs <;> simp_all [cutBlocks]
  | succ n ih =>
    cases bs with
    | nil => simp [cutBlocks]
    | cons b bs =>
      have hd := ih ((b :: bs).drop 4096) (by rw [List.length_drop]; omega)
      have : (cutBlocks (n + 1) (b :: bs)).length = (cutBlocks n ((b :: bs).drop 4096)).length + 1 := by rw [cutBlocks, List.length_cons]; simp
      rw [this, hd, List.length_drop]
      simp only [List.length_cons]
      omega

theorem length_leBytes (n v : Nat) : (leBytes n v).length = n := by
  induction n generalizing v <;> simp_all [leBytes]

theorem length_putBlocks (dsize : Nat) (primed : Dict) (input : List Byte) :
    4 * ((input.length + 4095) / 4096) ≤ (putBlocks dsize primed input).length := by
  have hb : ∀ l : List (Nat × List Byte), ∀ k,
      4 * l.length ≤ (l.flatMap fun x => putBlock dsize primed (x.1 + 1 = k) x.2).length := by
    intro l k
    induction l with
    | nil => simp
    | cons x l ih =>
      simp only [List.flatMap_cons, List.length_append, List.length_cons, putBlock, length_leBytes] at ih ⊢
      omega
  have hc := length_cutBlocks (input.length / 4096 + 1) input (by omega)
  refine Nat.le_trans (Nat.le_of_eq ?_) (hb _ _)
  rw [List.length_zip, List.length_range, Nat.min_self, hc]

/-- A running stream job of 1,025 items of 4,096 bytes. -/
def long (cfg : Word) : Job := ⟨6, List.replicate 1025 { item0 none with data := List.replicate 4096 7#8 }, cfg, .running 3, 0⟩

theorem long_output (k : Coder) (src seq t : Nat) (cfg : Word) :
    4096 < (putJob k src seq t ((long cfg).items.flatMap fun i => i.data)).length := by
  have hl : ((long cfg).items.flatMap fun i => i.data).length = 1025 * 4096 := by
    rw [long, List.flatMap_replicate]; simp only [List.length_flatten, List.map_replicate, List.length_replicate, List.sum_replicate_nat]
  have := length_putBlocks k.dsize k.primed ((long cfg).items.flatMap fun i => i.data)
  rw [hl] at this
  simp only [putJob, List.length_append, length_leBytes]
  omega

theorem long_hyps (cfg : Word) (h3 : cfg.getLsbD 3 = false) (b : Bool) (h1 : cfg.getLsbD 1 = b) :
    ∃ (s : State) (e : Fin 4) (vc : Nat) (j : Job) (t0 : Nat) (tab : Option Nat), s.inReset = false
      ∧ s.prs[e] = some { job := PressJob.stream vc j.id, started := t0, table := tab } ∧ (vc = 0 ∨ vc = 3)
      ∧ s.stl.jobs.getD vc [] = [j] ∧ j.cfg.getLsbD 3 = false ∧ j.cfg.getLsbD 1 = b ∧ (∀ i ∈ j.items, i.hole = false ∧ i.ctx = none)
      ∧ 4096 < (putJob ⟨j.cfg.getLsbD 2, none⟩ (if vc = 0 then 1 else 4) j.id t0 (j.items.flatMap fun i => i.data)).length :=
  ⟨strm (long cfg), 3, 0, long cfg, 9, none, rfl, rfl, .inl rfl, rfl, h3, h1,
    fun i hi => by rw [long] at hi; rw [List.eq_of_mem_replicate hi]; exact ⟨rfl, rfl⟩, long_output _ _ _ _ _⟩

theorem witness_PressJobs_long :
    ∀ b : Bool, ∃ (s : State) (e : Fin 4) (vc : Nat) (j : Job) (t0 : Nat) (tab : Option Nat), s.inReset = false
      ∧ s.prs[e] = some { job := PressJob.stream vc j.id, started := t0, table := tab } ∧ (vc = 0 ∨ vc = 3)
      ∧ s.stl.jobs.getD vc [] = [j] ∧ j.cfg.getLsbD 3 = false ∧ j.cfg.getLsbD 1 = b ∧ (∀ i ∈ j.items, i.hole = false ∧ i.ctx = none)
      ∧ 4096 < (putJob ⟨j.cfg.getLsbD 2, none⟩ (if vc = 0 then 1 else 4) j.id t0 (j.items.flatMap fun i => i.data)).length
  | true => long_hyps 0x01000402#32 (by decide) true (by decide)
  | false => long_hyps 0x01000400#32 (by decide) false (by decide)

/-! ### A boot image -/

/-- A public key: that of RFC 6979, A.2.5. -/
def bootKey : List Byte := beBytes 32 0x60FED4BA255A9D31C961EB74C6356D68C049B8923B61FA6CE669622E60F29FB6
  ++ beBytes 32 0x7903FE1008B8BC99A41AE9E95628BC64F2F1B20C2D7E9F5177A3C294D4462299

/-- The signature of the image below under that key. -/
def bootSig : List Byte := beBytes 32 0xEFD48B2AACB6A8FD1140DD9CD45E81D69D2C877B56AAF991C34D0EA84EAF3716
  ++ beBytes 32 0xBBF0A9686BA32D400C002B752A52720694F0F50ECC6F40F4B1B8C4CF7764CEB9

/-- The digest of its section. -/
def bootDigest : List Byte := beBytes 32 0x374708FFF7719DD5979EC875D56CD2286F6D3CF7EC317A3B25632AAB28EC37BB

/-- The hash of the key. -/
def bootHash : List Byte := beBytes 32 0xD6C23E2744A840CB3A5A14B6554CCE7C070057C4E3298CB93577DE687EECE659

/-- A unit in SOLO that boots, the hash of the key programmed and locked, its presets not placed. -/
def bootW : State := (List.range 8).foldl (fun s k => s.put (F.TBS_KHASH_HASH k) (leNat ((bootHash.drop (4 * k)).take 4)))
  (soloW.put F.TBS_CFG_KLOCK 1)

/-- A signed image of one DATA section of 16 zero bytes at the Postmaster's MANAGE entry. -/
def image : List Byte :=
  leBytes 4 0x42584E58 ++ leBytes 2 1 ++ leBytes 2 1 ++ leBytes 4 7 ++ leBytes 4 2064 ++ bootKey ++ bootSig
    ++ [2#8, 0#8, 0#8, 0#8] ++ leBytes 4 2048 ++ leBytes 4 16 ++ leBytes 4 0x2E0040 ++ bootDigest
    ++ List.replicate (2048 - 192) 0#8 ++ List.replicate 16 0#8

/-- The hash that the image's signature covers. -/
theorem image_hash : sha256 (image.take 80 ++ (image.drop 144).take 1904)
    = beBytes 32 0x0B59E10B7BD1480927329FE8F68E38499F51161805166BA031B43568C0B654D8 := by decide +kernel

theorem image_key : (image.drop 16).take 64 = bootKey := by decide +kernel

theorem image_signed : signatureOk image = true := by
  have hs : (image.drop 80).take 64 = bootSig := by decide +kernel
  rw [signatureOk, image_key, hs, image_hash]
  decide +kernel

theorem image_keyOk : bootW.keyOk image = true := by
  have h : sha256 bootKey = bootHash := by decide +kernel
  rw [State.keyOk, image_key, h]
  decide +kernel

theorem image_header : bootW.headerCause image = 0 := by
  simp only [State.headerCause, image_keyOk, image_signed]
  decide +kernel

theorem image_digest : digestOk image ⟨2, 2048, 16, 0x2E0040, bootDigest, 0⟩ = true := by
  have hb : sectionBytes image ⟨2, 2048, 16, 0x2E0040, bootDigest, 0⟩ = List.replicate 16 0#8 := by decide +kernel
  rw [digestOk, hb]
  decide +kernel

theorem witness_TimeBaseAndBoot_image :
    ∃ (s : State) (slot0 slot1 : List Byte) (k : Nat) (img : List Byte), s.inReset = false ∧ s.booting = true ∧ s.stl.presetsWait = true
      ∧ candidates slot0 slot1 = [(k, img)] ∧ s.headerCause img = 0 ∧ (∀ x ∈ imgSections img, x.type ≠ 1)
      ∧ (s.tryBoot (candidates slot0 slot1)).slot = some k := by
  have hc : candidates image [] = [(0, image)] := by decide +kernel
  refine ⟨bootW, image, [], 0, image, by decide +kernel, by decide +kernel, by decide +kernel, hc, image_header, by decide +kernel, ?_⟩
  have ho : bootOrder image = [⟨2, 2048, 16, 0x2E0040, bootDigest, 0⟩] := by decide +kernel
  rw [hc, State.tryBoot, image_header, ho]
  simp only [State.placeAll, image_digest]
  rfl

/-! ### Ill-formed commands: one for each check -/

theorem test_ill_time : wellFormed (.lateCommand 0 (2 ^ 64)) = false ∧ wellFormed (.lateCommand 0 (2 ^ 64 - 1)) = true := by decide
theorem test_ill_size : wellFormed (.registerWrite .host (.bar0 0x34000#20) 3 0#32) = false ∧ wellFormed (.registerWrite .host (.bar0 0x34000#20) 4 0#32) = true := by
  decide
theorem test_ill_read_size : wellFormed (.ignoredRead .host (.bar0 0x30#20) 0) = false ∧ wellFormed (.ignoredRead .host (.bar0 0x30#20) 2) = true := by decide
theorem test_ill_length : wellFormed (.bar2Read .host 0x400000#28 0) = false ∧ wellFormed (.bar2Read .host 0x400000#28 4097) = false
    ∧ wellFormed (.bar2Read .host 0x400000#28 4096) = true := by decide
theorem test_ill_write_length : wellFormed (.bar2Write .host 0x400000#28 []) = false := by decide
theorem test_ill_register : wellFormed (.scrubRead (.reg .fsq 97) [] false) = false ∧ wellFormed (.scrubRead (.reg .fsq 96) [] false) = true := by
  decide
theorem test_ill_upset_zero : wellFormed (.scrubRead (.bar2 0x400000#28) [(3, 0#8)] false) = false := by decide
theorem test_ill_upset_twice : wellFormed (.scrubRead (.bar2 0x400000#28) [(3, 1#8), (3, 2#8)] false) = false
    ∧ wellFormed (.scrubRead (.bar2 0x400000#28) [(3, 1#8), (4, 2#8)] false) = true := by decide
theorem test_ill_slot (l : List Byte) (h : 16777216 < l.length) : wellFormed (.bootFail l []) = false := by
  change (slotOk l && slotOk []) = false
  simp only [slotOk, Bool.and_eq_false_iff, decide_eq_false_iff_not]
  omega
theorem test_ill_frame (fr : RxFrame) (h : 65535 < fr.payload.length) : wellFormed (.mgmtReceive fr 0) = false := by
  change (frameOk fr && timeOk 0) = false
  simp only [frameOk, Bool.and_eq_false_iff, decide_eq_false_iff_not]
  omega
theorem test_ill_engine : wellFormed (.fire (.pe 3) pT 4#6 none) = false ∧ wellFormed (.fire .fsq pT 4#6 none) = true := by decide
theorem test_ill_odd_pair : wellFormed (.fire .fsq pT 5#6 none) = false := by decide
theorem test_ill_register_number : wellFormed (.mov .fsq pT 32#6 1#6) = false ∧ wellFormed (.mov (.pe 0) pT 32#6 1#6) = true := by decide
theorem test_ill_illegal : wellFormed (.illegalInstruction .fsq 0#32 0#32) = false
    ∧ wellFormed (.illegalInstruction .fsq 0x2C000000#32 0#32) = true := by decide

/-! ### Words of the tables of chapter 11, field by field: OP, PN, PQ, X, operands -/

theorem test_decode_br : decodeInstr .fsq 0b000001_0_000_0_00000_0000000100000001#32 0#32 = some (.br .fsq pT 257#16) := by decide
theorem test_decode_loop : decodeInstr (.pe 1) 0b000100_0_000_1_00000_0000000000001001#32 7#32 = some (.iLoop (.pe 1) pT (.imm 7#32) 9#16) := by
  decide
theorem test_decode_tsti :
    decodeInstr .fsq 0b001001_1_010_0_011_100_000101_111111111#32 0#32 = some (.tsti .fsq ⟨true, 2#3⟩ 3#3 .ltu 5#6 (.short 511#9)) := by decide
theorem test_decode_mfs : decodeInstr .fsq 0b010011_0_000_0_000101_01001_0000000000#32 0#32 = some (.mfs .fsq pT 5#6 9#5) := by decide
theorem test_decode_mts : decodeInstr (.pe 1) 0b010100_0_000_0_000101_00010_0000000000#32 0#32 = some (.mts (.pe 1) pT 5#6 2#5) := by decide
theorem test_decode_xst : decodeInstr (.pe 1) 0b010110_0_000_1_000101_000110_000000000#32 64#32 = some (.xst (.pe 1) pT 5#6 6#6 (.ext 64#32)) := by
  decide
theorem test_decode_gate : decodeInstr .fsq 0b011011_0_000_0_000100_000110_000000000#32 0#32 = some (.gate .fsq pT 4#6 6#6 none) := by decide
theorem test_decode_setpt : decodeInstr .fsq 0b011111_0_000_1_000100_10_0000000000000#32 33#32 = some (.setpt .fsq pT 4#6 2#2 (some 33#32)) := by
  decide
theorem test_decode_waita : decodeInstr .fsq 0b100010_0_000_0_000100_11_01_101_00000000#32 0#32 = some (.waita .fsq pT 4#6 3#2 1#2 5#3) := by decide
theorem test_decode_xor : decodeInstr (.pe 1) 0b101000_0_000_0_000001_000010_000011_110#32 0#32 = some (.iXor (.pe 1) pT 1#6 2#6 (.reg 3#6)) := by
  decide
theorem test_decode_shra : decodeInstr (.pe 1) 0b101011_0_000_0_000001_000010_010_011111#32 0#32 = some (.shra (.pe 1) pT 1#6 2#6 (.imm6 31#6)) := by
  decide
theorem test_decode_mulhs : decodeInstr (.pe 1) 0b110000_0_000_0_000001_000010_000011_010#32 0#32 = some (.mulhs (.pe 1) pT 1#6 2#6 3#6) := by
  decide
theorem test_decode_divu : decodeInstr (.pe 1) 0b110001_0_000_0_000001_000010_000011_001#32 0#32 = some (.divu (.pe 1) pT 1#6 2#6 3#6) := by decide
theorem test_decode_mta :
    decodeInstr (.pe 1) 0b110011_0_000_0_101_000010_101000_0_00000#32 0#32 = some (.mta (.pe 1) pT 5#3 2#6 40#6 false) := by decide
theorem test_decode_mta_shift_beyond_40 : decodeInstr (.pe 1) 0b110011_0_000_0_101_000010_101001_0_00000#32 0#32 = none := by decide
theorem test_decode_ld :
    decodeInstr (.pe 1) 0b111000_0_000_0_000001_0010_01_01_1_000011#32 0#32 = some (.ld (.pe 1) pT 1#6 2#4 1#2 1#2 true (.short 3#6)) := by decide
theorem test_decode_emit : decodeInstr (.pe 1) 0b111011_0_000_0_00000001_0010_1_00000000#32 0#32 = some (.emit (.pe 1) pT 1#8 2#4 true) := by decide
theorem test_decode_reserved_bit : decodeInstr (.pe 1) 0b111011_0_000_0_00000001_0010_1_00000001#32 0#32 = none := by decide
theorem test_no_table_word : decodeTableWord 32 5 = none := rfl

/-! ### The spec's worked examples -/

/-- The block of "ABABABA" (12_press.md). -/
theorem test_press_block :
    putBlock 4096 [] true [0x41#8, 0x42#8, 0x41#8, 0x42#8, 0x41#8, 0x42#8, 0x41#8]
      = [0x05#8, 0x40#8, 0x07#8, 0x00#8, 0x41#8, 0x84#8, 0x00#8, 0x14#8, 0x08#8] := by decide +kernel

/-- The same block decoded. -/
theorem test_press_decode :
    decodeBlock 4096 [] [0x41#8, 0x84#8, 0x00#8, 0x14#8, 0x08#8] 7
      = some [0x41#8, 0x42#8, 0x41#8, 0x42#8, 0x41#8, 0x42#8, 0x41#8] := by decide +kernel

/-- Slot 5,000 (04_contexts_and_histograms.md). -/
theorem test_slot_address : slotBase 5000 + 364 = 0x0920176C := by decide

/-- The quotients of the centroid (11_instruction_reference.md). -/
theorem test_centroid_quotients : divOf 10240#32 6#32 = 1706#32 ∧ divOf 596608#32 40#32 = 14915#32 := by decide

/-- Steps 3 and 10 of the matched filter (05_decanter.md). -/
theorem test_filter_root : isqrt 131072 = 362 ∧ 137078 * isqrt 131072 / 65536 = 757 := by decide +kernel

/-- Two errors in a word of memory are found, three are not (R37). -/
theorem test_rs_two : rsDecode (errorSyndrome 4 9#8 ^^^ errorSyndrome 35 7#8) = some [(4, 9#8), (35, 7#8)] := by decide +kernel

/-- SHA-256 of "abc" (FIPS 180-4). -/
theorem test_sha256_abc : sha256 [0x61#8, 0x62#8, 0x63#8]
    = beBytes 32 0xBA7816BF8F01CFEA414140DE5DAE2223B00361A396177A9CB410FF61F20015AD := by decide +kernel

/-- The signature of "sample" on P-256 with SHA-256 (RFC 6979, A.2.5), and the same one bit off. -/
theorem test_ecdsa_sample :
    let h := sha256 [0x73#8, 0x61#8, 0x6D#8, 0x70#8, 0x6C#8, 0x65#8]
    let r := beBytes 32 0xEFD48B2AACB6A8FD1140DD9CD45E81D69D2C877B56AAF991C34D0EA84EAF3716
    ecdsaVerify bootKey h (r ++ beBytes 32 0xF7CB1C942D657C41D436C7A1B6E29F65F3E900DBB9AFF4064DC4AB2F843ACDA8) = true
      ∧ ecdsaVerify bootKey h (r ++ beBytes 32 0xF7CB1C942D657C41D436C7A1B6E29F65F3E900DBB9AFF4064DC4AB2F843ACDA9) = false := by
  decide +kernel

/-! ### Single steps -/

/-- ADDI adds a sign-extended immediate, and wraps. -/
theorem test_addi_wraps :
    ((result (exec (.addi .fsq pT 3#6 4#6 (.short 0x1FF#9)) (onFsq id))).eng .fsq).rd 3 = 0xFFFFFFFF#32 := by decide +kernel

/-- SHRA by more than 31 leaves copies of the sign. -/
theorem test_shra_far :
    ((result (exec (.shra (.pe 2) pT 3#6 4#6 (.imm6 40#6)) (bg fun g => g.wr 4 0x80000000#32))).eng (.pe 2)).rd 3 = 0xFFFFFFFF#32 := by
  decide +kernel

/-- A division of the most negative number by −1. -/
theorem test_div_limits : divOf 0x80000000#32 0xFFFFFFFF#32 = 0x7FFFFFFF#32 ∧ divOf 5#32 0#32 = 0x7FFFFFFF#32 := by decide

/-- XST to the shared memory puts the least significant byte first. -/
theorem test_xst_bytes :
    (result (exec (.xst .fsq pT 5#6 6#6 (.short 0#9)) (onFsq fun g => (g.wr 5 0x80120034#32).wr 6 0x400000#32))).bytes 0x400000 4
      = [0x34#8, 0x00#8, 0x12#8, 0x80#8] := by decide +kernel

/-- A FIRE enters the timed queue at TC plus its offset, with a carry of sub-ticks. -/
theorem test_fire_time :
    let s := onFsq fun g => g.wr 4 1#32
    ((result (exec (.fire .fsq pT 4#6 (some 0x2F#32)) (s.setFsq { s.seq.fsq with tc := 5, sub := 3 }))).emi.tq.map fun c => (c.tc, c.sub))
      = [(8, 2)] := by decide +kernel

/-- A register reads its reset value (CTX_CFG). -/
theorem test_reset_value : State.reset.reg 0x34000 = 1#32 := by decide +kernel

/-- A write to an address without a register is ignored and counted. -/
theorem test_ignored_write : (result (exec (.registerWrite .host (.bar0 0xFFFFC#20) 4 5#32) up)).get F.SYS_IGNORED_COUNT = 1 := by decide +kernel

/-- A disarmed unit arms under its conditions, and not without a permit. -/
theorem test_arm : (result (exec (.arm .host) armable)).is F.EMI_STAT_ARMED = true
    ∧ (result (exec (.arm .host) up)).is F.EMI_STAT_ARMED = false := by decide +kernel

/-- The step on an empty queue idles. -/
theorem test_idle : step State.reset = .next State.reset := rfl
end Sys2Proof.Tests
end

/-!
PROOFS. Edges on PERMIT_IN: what a valid edge leaves (R78, R79, R82), and PERMOK after two of them.
-/
namespace Sys2Proof.Machine

/-! ### What a stamp for the meters leaves alone -/

/-- A flag depends on the registers alone. -/
theorem State.is_eq_of_regs {s u : State} (h : u.regs = s.regs) (f : Fld) : u.is f = s.is f := by
  unfold State.is State.get State.reg; rw [h]

/-- A meter replaced leaves alone all but the meters. -/
theorem State.setMeter_frame (s : State) (i : Nat) (m : Meter) (n : Sns) :
    { s.setMeter i m with sns := n } = { s with sns := n } := by
  unfold State.setMeter; split <;> rfl

/-- A stamp leaves alone all but the meters (R328). -/
theorem State.feed_frame (s : State) (src idx x : Nat) (n : Sns) : { s.feed src idx x with sns := n } = { s with sns := n } := by
  refine foldl_same (fun t : State => { t with sns := n }) _ (fun t i => ?_) _ s
  split
  · exact State.setMeter_frame t i _ n
  · rfl

@[simp] theorem State.feed_inReset (s : State) (src idx x : Nat) : (s.feed src idx x).inReset = s.inReset :=
  (congrArg State.inReset (s.feed_frame src idx x s.sns) :)

@[simp] theorem State.feed_regs (s : State) (src idx x : Nat) : (s.feed src idx x).regs = s.regs :=
  (congrArg State.regs (s.feed_frame src idx x s.sns) :)

@[simp] theorem State.feed_emi (s : State) (src idx x : Nat) : (s.feed src idx x).emi = s.emi :=
  (congrArg State.emi (s.feed_frame src idx x s.sns) :)

@[simp] theorem State.feed_pending (s : State) (src idx x : Nat) : (s.feed src idx x).pending = s.pending :=
  (congrArg State.pending (s.feed_frame src idx x s.sns) :)

/-! ### Valid edges -/

/-- A transition at t is an edge that counts as valid: the time base is locked, the level changes, and the last valid edge, if any, lies
2 µs or more before (R78). -/
structure State.ValidEdge (s : State) (level : Bool) (t : Nat) : Prop where
  locked : s.is F.SYS_STAT_TBLOCK = true
  changes : level ≠ s.emi.permit
  spaced : ∀ l, s.emi.lastEdge = some l → l + 3200 ≤ t

/-- A valid edge precedes t by no more than 10 µs (R82). -/
def State.edgeWithin (s : State) (t : Nat) : Bool := s.emi.lastEdge.any fun l => t ≤ l + 16000

/-- What a valid edge leaves before PERMOK is judged: the level, the edge's time, its echo, the watchdog, and a stamp for the meters. -/
def State.takeEdge (s : State) (level : Bool) (t : Nat) : State :=
  ({ s.at t with emi := { s.emi with
      permit := level, lastEdge := some t, echoes := s.emi.echoes ++ [t + 1600], watch := s.emi.watch || s.edgeWithin t } }).feed
    2 0 (coarseStamp t)

@[simp] theorem State.takeEdge_inReset (s : State) (level : Bool) (t : Nat) : (s.takeEdge level t).inReset = s.inReset := by
  simp [State.takeEdge]

@[simp] theorem State.takeEdge_regs (s : State) (level : Bool) (t : Nat) : (s.takeEdge level t).regs = s.regs := by
  simp [State.takeEdge]

@[simp] theorem State.takeEdge_pending (s : State) (level : Bool) (t : Nat) : (s.takeEdge level t).pending = s.pending := by
  simp [State.takeEdge]

@[simp] theorem State.takeEdge_emi (s : State) (level : Bool) (t : Nat) :
    (s.takeEdge level t).emi = { s.emi with
      permit := level, lastEdge := some t, echoes := s.emi.echoes ++ [t + 1600], watch := s.emi.watch || s.edgeWithin t } := by
  simp [State.takeEdge]

/-- A valid edge is taken, and sets PERMOK where another precedes it by no more than 10 µs. -/
theorem State.permitEdge_of_validEdge {s : State} {level : Bool} {t : Nat} (h : s.ValidEdge level t) :
    s.permitEdge level t =
      if s.edgeWithin t then (s.takeEdge level t).put F.EMI_STAT_PERMOK 1 else s.takeEdge level t := by
  obtain ⟨hlock, hlevel, hspaced⟩ := h
  have hlock' (d : Nat) (e : Emi) : State.is { s with dt := d, emi := e } F.SYS_STAT_TBLOCK = true := hlock
  cases hlast : s.emi.lastEdge with
  | none => simp [State.permitEdge, State.takeEdge, State.edgeWithin, State.at, hlevel, hlock, hlock', hlast]
  | some l =>
    have hsoon : ¬ t < l + 3200 := Nat.not_lt.mpr (hspaced l hlast)
    simp [State.permitEdge, State.takeEdge, State.edgeWithin, State.at, hlevel, hlock, hlock', hlast, hsoon]

/-- Out of reset, PERMIT_EDGE of a valid edge answers its effect. -/
theorem exec_permitEdge_of_validEdge {s : State} {level : Bool} {t : Nat} (hr : s.inReset = false) (h : s.ValidEdge level t) :
    exec (.permitEdge level t) s = .next (s.permitEdge level t) := by
  have hpending : (s.permitEdge level t).pending = s.pending := by
    rw [State.permitEdge_of_validEdge h]; split <;> simp
  change execPermitEdge level t s = _
  rw [execPermitEdge, if_neg (by simp [hr]), act_live s _ hr hpending]

/-- A valid edge puts nothing into reset. -/
theorem State.permitEdge_inReset {s : State} {level : Bool} {t : Nat} (h : s.ValidEdge level t) :
    (s.permitEdge level t).inReset = s.inReset := by
  rw [State.permitEdge_of_validEdge h]; split <;> simp

/-- A valid edge leaves the flags of the registers other than EMI_STAT. -/
theorem State.permitEdge_is_off {s : State} {level : Bool} {t : Nat} (h : s.ValidEdge level t) (f : Fld)
    (hf : f.off ≠ F.EMI_STAT_PERMOK.off) : (s.permitEdge level t).is f = s.is f := by
  have htaken : (s.takeEdge level t).is f = s.is f := State.is_eq_of_regs (s.takeEdge_regs level t) f
  rw [State.permitEdge_of_validEdge h]
  split
  · rw [State.is_put_off _ _ _ _ hf, htaken]
  · exact htaken

/-- After a valid edge the permit's level, times and watchdog are those of the edge taken. -/
theorem State.permitEdge_emi {s : State} {level : Bool} {t : Nat} (h : s.ValidEdge level t) :
    (s.permitEdge level t).emi = (s.takeEdge level t).emi := by
  rw [State.permitEdge_of_validEdge h]; split <;> simp

/-- A valid edge that another precedes by no more than 10 µs sets PERMOK. -/
theorem State.permitEdge_permok {s : State} {level : Bool} {t : Nat} (h : s.ValidEdge level t) (hw : s.edgeWithin t = true) :
    (s.permitEdge level t).is F.EMI_STAT_PERMOK = true := by
  rw [State.permitEdge_of_validEdge h, if_pos hw]
  exact State.is_putB _ F.EMI_STAT_PERMOK true (by decide) (by decide)

/-- After a valid edge, the opposite level 2 µs later or more is a valid edge again. -/
theorem State.ValidEdge.next {s : State} {a b : Bool} {t1 t2 : Nat} (h : s.ValidEdge a t1) (hb : b ≠ a) (ht : t1 + 3200 ≤ t2) :
    (s.permitEdge a t1).ValidEdge b t2 where
  locked := by rw [State.permitEdge_is_off h _ (by decide), h.locked]
  changes := by simpa [State.permitEdge_emi h] using hb
  spaced := by simpa [State.permitEdge_emi h] using ht

/-- After a valid edge, the edges of the next 10 µs are within the limit of R82. -/
theorem State.edgeWithin_permitEdge {s : State} {level : Bool} {t1 t2 : Nat} (h : s.ValidEdge level t1) (ht : t2 ≤ t1 + 16000) :
    (s.permitEdge level t1).edgeWithin t2 = true := by
  simpa [State.edgeWithin, State.permitEdge_emi h] using ht

/-- Settles O29: the first edge is recorded as the last valid one, so the second is valid and follows it within 10 µs. -/
theorem permitOkAfterTwoEdges : Obligations.PermitOkAfterTwoEdges := by
  intro s u v a b t1 t2 hlock hreset hlast ha hb hmin hmax hu hv
  have h1 : s.ValidEdge a t1 := ⟨hlock, ha, fun l hl => by simpa [hl] using hlast⟩
  have h2 := h1.next hb hmin
  have hreset2 : (s.permitEdge a t1).inReset = false := (State.permitEdge_inReset h1).trans hreset
  rw [exec_permitEdge_of_validEdge hreset h1] at hu
  obtain rfl := Host.Outcome.next.inj hu
  rw [exec_permitEdge_of_validEdge hreset2 h2] at hv
  obtain rfl := Host.Outcome.next.inj hv
  exact State.permitEdge_permok h2 (State.edgeWithin_permitEdge h1 hmax)

end Sys2Proof.Machine

/-!
PROOFS. What a fetch leaves alone, and what an instruction on registers that runs answers (R356, R373, R376).
-/
namespace Sys2Proof.Machine

/-! ### What a fetch leaves of the registers -/

/-- The fault block ends where the next one begins. -/
theorem faultReg_iff {a : Nat} : faultReg a = true ↔ 0x58000 ≤ a ∧ a < 0x5C000 := by simp [faultReg]

/-- A write of a fault register leaves the registers outside the fault block. -/
theorem State.reg_put_of_faultReg (s : State) {f : Fld} (v : Nat) {a : Nat} (hf : faultReg f.off = true)
    (ha : faultReg a = false) : (s.put f v).reg a = s.reg a :=
  State.reg_setReg_other s f.off a _ (by rintro rfl; simp [hf] at ha)

/-- FLT_STAT follows the roots in the fault block alone. -/
theorem State.reg_showRoots (s : State) {a : Nat} (ha : faultReg a = false) : s.showRoots.reg a = s.reg a := by
  unfold State.showRoots State.putB
  iterate 4 rw [State.reg_put_of_faultReg _ _ (by decide) ha]

/-- A log entry's DEPS lies in the fault block (R537). -/
theorem faultReg_logDeps {e : Nat} (h : e < 256) : faultReg (logDeps e).off = true :=
  faultReg_iff.mpr (by dsimp only [logDeps]; omega)

/-- A dependent fault is counted in the fault block alone (R540). -/
theorem State.reg_absorb (s : State) (r : Root) (n : Nat) {a : Nat} (ha : faultReg a = false) :
    (s.absorb r n).reg a = s.reg a := by
  have hcount : (s.countN (F.FLT_CNT_COUNT 1) n).reg a = s.reg a := State.reg_put_of_faultReg s _ (by decide) ha
  unfold State.absorb
  cases r.entry with
  | none => exact hcount
  | some e =>
    by_cases he : e < 256
    · simp only [he, if_true]
      exact (State.reg_put_of_faultReg _ _ (faultReg_logDeps he) ha).trans hcount
    · simpa only [he, if_false] using hcount

/-- A detection changes registers of the fault block alone (R532, R540). -/
theorem State.reg_raiseIn (s : State) (f : FaultRec) (mem : Option Nat) {a : Nat} (ha : faultReg a = false) :
    (s.raiseIn f mem).reg a = s.reg a := by
  unfold State.raiseIn
  split
  · exact State.reg_absorb s _ 1 ha
  · dsimp only
    split
    · rw [State.reg_showRoots _ ha]
      exact State.reg_put_of_faultReg s _ (by decide) ha
    · rfl

/-- The memories of R543 are numbered 0 to 7. -/
theorem memIndex_getD_le (x : Nat) : (memIndex x).getD 0 ≤ 7 := by
  unfold memIndex
  repeat' split
  all_goals simp

/-- A corrected word is counted in FLT_CORR (R37). -/
theorem State.reg_correct (s : State) (w : Nat) (es : List (Nat × Byte)) {a : Nat} (ha : faultReg a = false) :
    (s.correct w es).reg a = s.reg a := by
  have hcorr : faultReg (F.FLT_CORR_COUNT ((memIndex (32 * w)).getD 0)).off = true := by
    have := memIndex_getD_le (32 * w)
    exact faultReg_iff.mpr (by dsimp only [F.FLT_CORR_COUNT]; omega)
  unfold State.correct
  refine (State.reg_put_of_faultReg _ _ hcorr ha).trans ?_
  exact foldl_same (fun t : State => t.reg a) _ (fun t e => by split <;> rfl) es s

/-- An uncorrectable word is counted in FLT_UNC and detected (R40). -/
theorem State.reg_uncorrectable (s : State) (w : Nat) (acq : Bool) (n : Nat) {a : Nat} (ha : faultReg a = false) :
    (s.uncorrectable w acq n).reg a = s.reg a := by
  have hunc : faultReg (F.FLT_UNC_COUNT ((memIndex (32 * w)).getD 0)).off = true := by
    have := memIndex_getD_le (32 * w)
    exact faultReg_iff.mpr (by dsimp only [F.FLT_UNC_COUNT]; omega)
  exact (State.reg_raiseIn _ _ _ ha).trans (State.reg_put_of_faultReg s _ hunc ha)

/-- A read of a range of memory leaves the registers outside the fault block. -/
theorem State.reg_touchRange (s : State) (x n : Nat) {a : Nat} (ha : faultReg a = false) :
    (s.touchRange x n).reg a = s.reg a := by
  refine foldl_same (fun t : State => t.reg a) _ (fun t w => ?_) _ s
  unfold State.touch
  split
  · rfl
  · exact State.reg_correct t w _ ha
  · exact State.reg_uncorrectable t w false 0 ha

@[simp] theorem State.regs_setPe (s : State) (n : Nat) (p : Pe) : (s.setPe n p).regs = s.regs := by
  unfold State.setPe; split <;> rfl

@[simp] theorem State.emi_setPe (s : State) (n : Nat) (p : Pe) : (s.setPe n p).emi = s.emi := by
  unfold State.setPe; split <;> rfl

@[simp] theorem State.regs_counted (s : State) (e : Eng) : (s.counted e).regs = s.regs := by
  cases e <;> simp [State.counted]

@[simp] theorem State.emi_counted (s : State) (e : Eng) : (s.counted e).emi = s.emi := by
  cases e <;> simp [State.counted]

@[simp] theorem State.emi_setEng (s : State) (e : Eng) (g : Engine) : (s.setEng e g).emi = s.emi := by
  cases e <;> simp [State.setEng, State.setFsq]

/-- A field depends on the registers alone. -/
theorem State.get_eq_of_regs {s u : State} (h : u.regs = s.regs) (f : Fld) : u.get f = s.get f := by
  unfold State.get State.reg; rw [h]

/-- A fetch leaves the fields outside the fault block. -/
theorem State.get_fetched (s : State) (e : Eng) (len : Nat) (f : Fld) (hf : faultReg f.off = false) :
    (s.fetched e len).get f = s.get f := by
  rw [State.fetched, State.get_eq_of_regs (State.regs_counted _ e), State.get, State.reg_touchRange s _ _ hf, State.get]

@[simp] theorem State.emi_fetched (s : State) (e : Eng) (len : Nat) : (s.fetched e len).emi = s.emi := by
  simp [State.fetched]

/-- A Point Engine's registers replaced show in its SEQ_PESTAT alone. -/
theorem State.get_setEng_pe (s : State) (n : Fin 16) (g : Engine) (f : Fld) (hf : f.off ≠ (F.SEQ_PESTAT_AOV n.val).off) :
    (s.setEng (.pe n) g).get f = s.get f := by
  simp only [State.setEng, State.putB]
  rw [State.get_put_off _ (F.SEQ_PESTAT_MSAT _) _ _ hf, State.get_put_off _ (F.SEQ_PESTAT_AOV _) _ _ hf,
    State.get_put_off _ (F.SEQ_PESTAT_TCAUSE _) _ _ hf]
  exact State.get_eq_of_regs (State.regs_setPe _ _ _) f

/-! ### What a fetch leaves of an engine -/

theorem State.rd_fetched (s : State) (e : Eng) (len r : Nat) : ((s.fetched e len).eng e).rd r = (s.eng e).rd r := by
  rw [State.eng_fetched]; cases e <;> rfl

theorem State.shiftVal_fetched (s : State) (e : Eng) (len : Nat) (b : ShSrc) :
    ((s.fetched e len).eng e).shiftVal b = (s.eng e).shiftVal b := by
  cases b <;> simp only [Engine.shiftVal, State.rd_fetched]

/-! ### What an instruction on registers answers -/

/-- Out of reset, a state that an instruction on registers left is what its command answers. -/
theorem act_after {s : State} (h : s.inReset = false) (e : Eng) (len : Nat) (f : Engine → Engine) :
    act s (s.after e len f) = .next (s.after e len f) :=
  act_live s _ h (State.pending_after s e len f)

/-- Two changes that agree on the engine as fetched leave the same state. -/
theorem State.after_congr (s : State) (e : Eng) (len : Nat) {f g : Engine → Engine}
    (h : f ((s.fetched e len).eng e) = g ((s.fetched e len).eng e)) : s.after e len f = s.after e len g := by
  rw [State.after, h, State.after]

/-- An instruction on general registers that runs answers its change of the engine. -/
theorem act_regOp_runs {s : State} {e : Eng} {p : Pred} {len : Nat} {rs : List Nat} (h : s.runs e p len ((s.eng e).genNos rs))
    (f : Engine → Engine) : act s (s.regOp e p len true rs f) = .next (s.after e len f) := by
  obtain ⟨⟨hreset, -⟩, -⟩ := id h
  rw [State.regOp_runs s e p len rs f h, act_after hreset]

end Sys2Proof.Machine

/-!
PROOFS. The shifts' results, and the status bits that ALU, shift and multiply instructions leave (R347, R397, R398).
-/
namespace Sys2Proof.Machine

/-! ### Numbers limited to 32 bits -/

/-- Limiting to 32 bits takes the nearest number of 32 bits. -/
theorem sat32_eq (x : Int) : sat32 x = BitVec.ofInt 32 (max (-2147483648) (min 2147483647 x)) := by
  unfold sat32 satInt clampInt
  apply congrArg
  split
  · omega
  · split <;> omega

/-- A product by 2^32 or more of a word other than 0 limits to the bound of the word's sign. -/
theorem sat32_mul_two_pow_of_le {x : Word} {k : Nat} (hk : 32 ≤ k) (hx : x ≠ 0#32) :
    sat32 (x.toInt * 2 ^ k) = if x.msb then 0x80000000#32 else 0x7FFFFFFF#32 := by
  have hpow : (2 ^ 32 : Int) ≤ 2 ^ k := by exact_mod_cast Nat.pow_le_pow_right (n := 2) (by decide) hk
  have hx0 : x.toInt ≠ 0 := fun h => hx (BitVec.eq_of_toInt_eq (by simpa using h))
  rw [sat32_eq, BitVec.msb_eq_toInt]
  by_cases hneg : x.toInt < 0
  · have hlow : x.toInt * 2 ^ k ≤ -1 * 2 ^ k := Int.mul_le_mul_of_nonneg_right (by omega) (by omega)
    have hlimit : max (-2147483648) (min 2147483647 (x.toInt * 2 ^ k)) = -2147483648 := by omega
    rw [hlimit, decide_eq_true hneg]
    rfl
  · have hhigh : 1 * 2 ^ k ≤ x.toInt * 2 ^ k := Int.mul_le_mul_of_nonneg_right (by omega) (by omega)
    have hlimit : max (-2147483648) (min 2147483647 (x.toInt * 2 ^ k)) = 2147483647 := by omega
    rw [hlimit, decide_eq_false hneg]
    rfl

/-! ### Words shifted -/

/-- SHL fills with zeros from below. -/
theorem getLsbD_shl (x : Word) (k : Nat) {i : Nat} (hi : i < 32) :
    (x <<< k).getLsbD i = (decide (k ≤ i) && x.getLsbD (i - k)) := by
  rw [BitVec.getLsbD_shiftLeft, decide_eq_true hi, Bool.true_and, ← decide_not]
  simp only [Nat.not_lt]

/-- SHRA fills with copies of the sign bit. -/
theorem getLsbD_shra (x : Word) (k : Nat) {i : Nat} (hi : i < 32) :
    (x.sshiftRight k).getLsbD i = if i + k < 32 then x.getLsbD (i + k) else x.msb := by
  rw [BitVec.getLsbD_sshiftRight, decide_eq_false (Nat.not_le.mpr hi), Nat.add_comm k i]
  rfl

/-- SHRA by 32 or more leaves copies of the sign bit alone. -/
theorem shra_of_le {x : Word} {k : Nat} (hk : 32 ≤ k) : x.sshiftRight k = if x.msb then 0xFFFFFFFF#32 else 0#32 := by
  apply BitVec.eq_of_getLsbD_eq
  intro i hi
  have hik : ¬ i + k < 32 := by omega
  rw [getLsbD_shra x k hi, if_neg hik]
  cases x.msb
  · simp
  · change true = (BitVec.allOnes 32).getLsbD i
    rw [BitVec.getLsbD_allOnes, decide_eq_true hi]

/-! ### Shifts executed -/

/-- A shift that runs writes the function of its operands as they were. -/
theorem act_shift_runs {s : State} {n : Fin 16} {p : Pred} {ra : BitVec 6} {b : ShSrc}
    (h : s.runs (.pe n) p 1 ((s.eng (.pe n)).genNos (ra.toNat :: shiftReads b))) (rd : BitVec 6) (f : Word → Nat → Word) :
    act s (s.shift (.pe n) p rd ra b true f) = .next (s.after (.pe n) 1 fun g =>
      g.wr rd.toNat (f ((s.eng (.pe n)).rd ra.toNat) ((s.eng (.pe n)).shiftVal b))) := by
  rw [State.shift, act_regOp_runs h]
  congr 1
  exact State.after_congr s _ 1 (by rw [State.rd_fetched, State.shiftVal_fetched])

/-! ### Status bits -/

/-- The status bits of PE_STAT: AOV, MSAT, DSAT (R347). -/
def Engine.status (g : Engine) : Bool × Bool × Bool := (g.aov, g.msat, g.dsat)

@[simp] theorem Engine.status_wr (g : Engine) (r : Nat) (v : Word) : (g.wr r v).status = g.status := rfl

@[simp] theorem Engine.status_rotate (g : Engine) (rot : Bool) : (g.rotate rot).status = g.status := by
  cases rot <;> rfl

@[simp] theorem Engine.status_setLc (g : Engine) (i : Nat) (v : Word) : (g.setLc i v).status = g.status := by
  unfold Engine.setLc; split <;> rfl

/-- The back-edge tests of R382 leave the status bits. -/
theorem Engine.status_backEdge (g : Engine) (i n : Nat) : (g.backEdge i n).1.status = g.status := by
  induction n generalizing g with
  | zero => rfl
  | succ n ih =>
    unfold Engine.backEdge
    split
    · dsimp only
      split
      · rfl
      · split
        · exact (Engine.status_setLc _ _ _).trans (Engine.status_rotate _ _)
        · rw [ih]
          exact (Engine.status_setLc _ _ _).trans (Engine.status_rotate _ _)
    · rfl

@[simp] theorem Engine.status_next (g : Engine) (len : Nat) : (g.next len).status = g.status :=
  g.status_backEdge g.pc 4

@[simp] theorem State.status_fetched (s : State) (e : Eng) (len : Nat) :
    ((s.fetched e len).eng e).status = (s.eng e).status := by
  rw [State.eng_fetched]; cases e <;> rfl

/-- An instruction that changes no status bit of its engine's registers leaves the engine with its status bits. -/
theorem State.status_after (s : State) (e : Eng) (len : Nat) {f : Engine → Engine} (hf : ∀ g, (f g).status = g.status) :
    ((s.after e len f).eng e).status = (s.eng e).status := by
  simp [State.after, hf]

/-- The ALU, shift and multiply instructions of an engine on given operands (R397). -/
def arithmetic (n : Fin 16) (p : Pred) (rd ra rb : BitVec 6) (b : AluSrc) (h : ShSrc) : List Instr :=
  [.add (.pe n) p rd ra b, .sub (.pe n) p rd ra b, .adds (.pe n) p rd ra b, .subs (.pe n) p rd ra b, .iAnd (.pe n) p rd ra b,
    .iOr (.pe n) p rd ra b, .iXor (.pe n) p rd ra b, .shl (.pe n) p rd ra h, .shr (.pe n) p rd ra h, .shra (.pe n) p rd ra h,
    .shls (.pe n) p rd ra h, .mul (.pe n) p rd ra rb, .muls (.pe n) p rd ra rb, .mulhs (.pe n) p rd ra rb]

/-- An instruction of len words reads general registers and writes one result to RD, and that is all it does. -/
def WritesResult (i : Instr) (n : Fin 16) (p : Pred) (rd : BitVec 6) (len : Nat) : Prop :=
  ∃ (rs : List Nat) (v : Engine → Word), ∀ s, exec i s = act s (s.regOp (.pe n) p len true rs fun g => g.wr rd.toNat (v g))

/-- The words of an ALU instruction, by its fields. -/
theorem extLen_aluParts (p : Pred) (fn : Nat) (rd ra : BitVec 6) (b : AluSrc) : extLen (aluParts p fn rd ra b).ext = aluLen b := by
  cases b <;> rfl

/-- A shift has no extension. -/
theorem extLen_shiftParts (p : Pred) (fn : Nat) (rd ra : BitVec 6) (b : ShSrc) : extLen (shiftParts p fn rd ra b).ext = 1 := by
  cases b <;> rfl

/-- Every ALU, shift and multiply instruction writes one result, whatever its operands. -/
theorem writesResult_of_mem_arithmetic {n : Fin 16} {p : Pred} {rd ra rb : BitVec 6} {b : AluSrc} {h : ShSrc} {i : Instr}
    (hi : i ∈ arithmetic n p rd ra rb b h) {len : Nat} (hlen : i.parts.map (fun q => extLen q.2.ext) = some len) :
    WritesResult i n p rd len := by
  simp only [arithmetic, List.mem_cons, List.not_mem_nil, or_false] at hi
  rcases hi with rfl | rfl | rfl | rfl | rfl | rfl | rfl | rfl | rfl | rfl | rfl | rfl | rfl | rfl
  all_goals
    simp only [Instr.parts, Option.map_some, Option.some.injEq, extLen_aluParts, extLen_shiftParts] at hlen
    subst hlen
    exact ⟨_, _, fun _ => rfl⟩

/-- With no parity error, an instruction that writes one result leaves the status bits. -/
theorem WritesResult.status {i : Instr} {n : Fin 16} {p : Pred} {rd : BitVec 6} {len : Nat} (hi : WritesResult i n p rd len)
    {s t : State} (hbad : (s.eng (.pe n)).bad = []) (hruns : s.runs (.pe n) p len []) (ht : exec i s = .next t) :
    (t.eng (.pe n)).status = (s.eng (.pe n)).status := by
  obtain ⟨rs, v, hexec⟩ := hi
  obtain ⟨hfetches, hholds, -⟩ := hruns
  have hreads : s.runs (.pe n) p len ((s.eng (.pe n)).genNos rs) := ⟨hfetches, hholds, fun r _ => by simp [hbad]⟩
  rw [hexec, act_regOp_runs hreads] at ht
  obtain rfl := Host.Outcome.next.inj ht
  exact State.status_after s _ len fun g => Engine.status_wr g _ _

/-- Settles O21: a shift that runs writes its function of the operands, and no arithmetic instruction writes more than a register. -/
theorem shiftResults : Obligations.ShiftResults := by
  refine ⟨?_, ?_⟩
  · intro n p rd ra b s hruns x k hx hk
    subst hx hk
    refine ⟨⟨_, act_shift_runs hruns rd (fun x k => x <<< k), ?_, ?_⟩, ⟨_, act_shift_runs hruns rd (fun x k => x >>> k), ?_, ?_⟩,
      ⟨_, act_shift_runs hruns rd (fun x k => x.sshiftRight k), ?_, ?_⟩,
      ⟨_, act_shift_runs hruns rd (fun x k => sat32 (x.toInt * 2 ^ k)), ?_, ?_⟩⟩
    · exact fun i hi => getLsbD_shl _ _ hi
    · exact fun hk => BitVec.shiftLeft_eq_zero hk
    · exact fun i _ => by rw [BitVec.getLsbD_ushiftRight, Nat.add_comm]
    · exact fun hk => BitVec.ushiftRight_eq_zero hk
    · exact fun i hi => getLsbD_shra _ _ hi
    · exact shra_of_le
    · exact sat32_eq _
    · exact sat32_mul_two_pow_of_le
  · rintro n p rd ra rb b h s t i hi hbad ⟨len, hruns, hlen⟩ ht
    have hstatus := (writesResult_of_mem_arithmetic hi hlen).status hbad hruns ht
    simpa only [Engine.status, Prod.mk.injEq] using hstatus

end Sys2Proof.Machine

/-!
PROOFS. NORM counts sign bits, EXPB takes the least count of a block (R400).
-/
namespace Sys2Proof.Machine

/-! ### The count of sign bits -/

/-- A run of sign bits below bit n is no longer than n. -/
theorem signRun_le {w : Nat} (v : BitVec w) (n : Nat) : signRun v n ≤ n := by
  induction n with
  | zero => exact Nat.le_refl 0
  | succ n ih => unfold signRun; split <;> omega

/-- The bits of a run equal the sign bit. -/
theorem getLsbD_of_lt_signRun {w : Nat} {v : BitVec w} {n i : Nat} (h : i < signRun v n) : v.getLsbD (n - 1 - i) = v.msb := by
  induction n generalizing i with
  | zero => exact absurd h (Nat.not_lt_zero i)
  | succ n ih =>
    unfold signRun at h
    split at h
    next htop =>
      cases i with
      | zero => simpa using htop
      | succ i => simpa [Nat.sub_sub, Nat.add_comm 1 i] using ih (Nat.lt_of_succ_lt_succ h)
    next => exact absurd h (Nat.not_lt_zero i)

/-- The bit that ends a run differs from the sign bit. -/
theorem getLsbD_signRun_ne {w : Nat} {v : BitVec w} {n : Nat} (h : signRun v n < n) : v.getLsbD (n - 1 - signRun v n) ≠ v.msb := by
  induction n with
  | zero => exact absurd h (Nat.not_lt_zero _)
  | succ n ih =>
    unfold signRun at h ⊢
    split at h
    next htop =>
      rw [if_pos htop]
      simpa [Nat.sub_sub, Nat.add_comm 1] using ih (Nat.lt_of_succ_lt_succ h)
    next htop => rwa [if_neg htop]

/-- NORM of a word is at most 31. -/
theorem normOf_word_le (v : Word) : normOf v ≤ 31 := signRun_le v 31

/-! ### The least count of a block -/

/-- The block of n registers from RA is the registers RA + i. -/
theorem mem_span {r n x : Nat} : x ∈ span r n ↔ ∃ i, i < n ∧ r + i = x := by simp [span]

/-- The least count is that of a register of the block, or the bound 31, and no more than either. -/
theorem Engine.blockNorm_spec (g : Engine) (r k : Nat) :
    g.blockNorm r k ∈ 31 :: (span r k).map (fun x => normOf (g.rd x))
      ∧ ∀ c ∈ 31 :: (span r k).map (fun x => normOf (g.rd x)), g.blockNorm r k ≤ c :=
  List.min?_eq_some_iff.mp List.min?_cons'

/-- The least count is no more than that of a register of the block. -/
theorem Engine.blockNorm_le (g : Engine) {r k i : Nat} (hi : i < k) : g.blockNorm r k ≤ normOf (g.rd (r + i)) :=
  (g.blockNorm_spec r k).2 _ (List.mem_cons_of_mem _ (List.mem_map_of_mem (mem_span.mpr ⟨i, hi, rfl⟩)))

/-- The least count of a block that is not empty is that of one of its registers. -/
theorem Engine.blockNorm_attained (g : Engine) {r k : Nat} (hk : 0 < k) : ∃ i, i < k ∧ g.blockNorm r k = normOf (g.rd (r + i)) := by
  rcases List.mem_cons.mp (g.blockNorm_spec r k).1 with hbound | hmem
  · have hle := g.blockNorm_le (r := r) hk
    exact ⟨0, hk, Nat.le_antisymm hle (hbound ▸ normOf_word_le _)⟩
  · obtain ⟨x, hx, heq⟩ := List.mem_map.mp hmem
    obtain ⟨i, hi, rfl⟩ := mem_span.mp hx
    exact ⟨i, hi, heq.symm⟩

theorem State.blockNorm_fetched (s : State) (e : Eng) (len r k : Nat) :
    ((s.fetched e len).eng e).blockNorm r k = (s.eng e).blockNorm r k := by
  simp only [Engine.blockNorm, State.rd_fetched]

/-! ### NORM and EXPB executed -/

theorem State.normReads_fetched (s : State) (e : Eng) (len : Nat) (src : NormSrc) :
    ((s.fetched e len).eng e).normReads src = (s.eng e).normReads src := by
  cases src with
  | reg ra => exact State.genNos_fetched s e len _
  | acc an => rfl

/-- NORM that runs writes the count of its source. -/
theorem exec_norm_runs {s : State} {n : Fin 16} {p : Pred} {src : NormSrc}
    (h : s.runs (.pe n) p 1 ((s.eng (.pe n)).normReads src)) (rd : BitVec 6) :
    exec (.norm (.pe n) p rd src) s
      = .next (s.after (.pe n) 1 fun g => g.wr rd.toNat (BitVec.ofNat 32 (g.normVal src))) := by
  obtain ⟨⟨hreset, -⟩, -⟩ := id h
  rw [← State.normReads_fetched s _ 1] at h
  rw [← act_after hreset]
  change act s (s.issue _ p 1 true (fun g => g.normReads src) _) = _
  rw [State.issue_runs s _ p 1 _ _ h]
  rfl

/-- The effect of EXPB (R400). -/
def State.expb (s : State) (e : Eng) (rd : BitVec 6) (r k : Nat) (g : Engine) : State :=
  if k = 0 then (s.count (F.SEQ_CNT_COUNT 7)).goOn e g 1
  else s.goOn e (g.wr rd.toNat (BitVec.ofNat 32 (g.blockNorm r k))) 1

/-- EXPB issues its effect. -/
theorem exec_expb (e : Eng) (p : Pred) (rd ra k : BitVec 6) (s : State) :
    exec (.expb e p rd ra k) s = act s (s.issue e p 1 (legal (.expb e p rd ra k))
      (fun g => g.genNos (span ra.toNat k.toNat)) fun s g => s.expb e rd ra.toNat k.toNat g) := rfl

/-- On a Point Engine, EXPB is legal where its block is empty or ends with D63 (R400). -/
theorem legal_expb (n : Fin 16) (p : Pred) (rd ra k : BitVec 6) :
    legal (.expb (.pe n) p rd ra k) = decide (k.toNat = 0 ∨ ra.toNat + k.toNat ≤ 64) := by
  simp [legal, Eng.isFsq]

/-- EXPB that is legal and runs has its effect. -/
theorem exec_expb_runs {s : State} {n : Fin 16} {p : Pred} {ra k : BitVec 6} (hk : k.toNat = 0 ∨ ra.toNat + k.toNat ≤ 64)
    (h : s.runs (.pe n) p 1 ((s.eng (.pe n)).genNos (span ra.toNat k.toNat))) (rd : BitVec 6) :
    exec (.expb (.pe n) p rd ra k) s
      = act s ((s.fetched (.pe n) 1).expb (.pe n) rd ra.toNat k.toNat ((s.fetched (.pe n) 1).eng (.pe n))) := by
  rw [← State.genNos_fetched s _ 1] at h
  rw [exec_expb, legal_expb, decide_eq_true hk, State.issue_runs s _ p 1 (fun g => g.genNos _) _ h]

/-- EXPB of a block that is not empty writes the least count. -/
theorem exec_expb_block {s : State} {n : Fin 16} {p : Pred} {ra k : BitVec 6} (hpos : 0 < k.toNat) (hend : ra.toNat + k.toNat ≤ 64)
    (h : s.runs (.pe n) p 1 ((s.eng (.pe n)).genNos (span ra.toNat k.toNat))) (rd : BitVec 6) :
    exec (.expb (.pe n) p rd ra k) s = .next (s.after (.pe n) 1 fun g =>
      g.wr rd.toNat (BitVec.ofNat 32 ((s.eng (.pe n)).blockNorm ra.toNat k.toNat))) := by
  obtain ⟨⟨hreset, -⟩, -⟩ := id h
  rw [exec_expb_runs (.inr hend) h, ← act_after hreset, State.expb, if_neg (Nat.ne_of_gt hpos), State.blockNorm_fetched]
  rfl

/-- EXPB with N = 0 only counts (R400). -/
theorem exec_expb_empty {s : State} {n : Fin 16} {p : Pred} (h : s.runs (.pe n) p 1 []) (rd ra : BitVec 6) :
    exec (.expb (.pe n) p rd ra 0#6) s = .next (((s.fetched (.pe n) 1).count (F.SEQ_CNT_COUNT 7)).goOn (.pe n)
      ((s.fetched (.pe n) 1).eng (.pe n)) 1) := by
  obtain ⟨⟨hreset, -⟩, -⟩ := id h
  rw [exec_expb_runs (.inl rfl) h]
  exact act_live s _ hreset (by simp [State.expb, State.goOn])

/-- SEQ_CNT7 is no engine's SEQ_PESTAT. -/
theorem ignoredOff_ne_pestat (n : Fin 16) : (F.SEQ_CNT_COUNT 7).off ≠ (F.SEQ_PESTAT_AOV n.val).off := by
  dsimp only [F.SEQ_CNT_COUNT, F.SEQ_PESTAT_AOV]; omega

/-- A fetched instruction that an engine ignores is counted once. -/
theorem countsOne_goOn_fetched (s : State) (n : Fin 16) (len : Nat) (g : Engine) :
    CountsOne (F.SEQ_CNT_COUNT 7) s (((s.fetched (.pe n) len).count (F.SEQ_CNT_COUNT 7)).goOn (.pe n) g len) := by
  rw [CountsOne, State.goOn, State.get_setEng_pe _ n _ _ (ignoredOff_ne_pestat n), State.get_count _ _ (by decide),
    State.get_fetched s _ len _ (by decide)]

/-- EXPB of a block that runs past D63 takes the ILLEGAL trap whatever the predicate. -/
theorem answers_expb_illegal {s : State} {n : Fin 16} (h : s.fetches (.pe n) 1) {ra k : BitVec 6} (hpos : 0 < k.toNat)
    (hend : 64 < ra.toNat + k.toNat) (p : Pred) (rd : BitVec 6) :
    Answers (.expb (.pe n) p rd ra k) s ((s.fetched (.pe n) 1).trapAt (.pe n) 1 3) := by
  have hreset := h.1
  have hillegal : ¬ (k.toNat = 0 ∨ ra.toNat + k.toNat ≤ 64) := by omega
  rw [Answers, exec_expb, legal_expb, decide_eq_false hillegal, State.issue_illegal s _ p 1 _ _ h]
  simp [act, hreset]

/-- Settles O22: NORM by the run of sign bits, EXPB by its three courses. -/
theorem normAndExpb : Obligations.NormAndExpb := by
  refine ⟨?_, ?_, ?_, ?_, ?_, ?_⟩
  · exact fun n p rd ra s hruns => exec_norm_runs (src := .reg ra) hruns rd
  · exact fun n p rd an s hruns => exec_norm_runs (src := .acc an) hruns rd
  · intro w v _
    have hbelow (i : Nat) : w - 2 - i = w - 1 - 1 - i := by omega
    exact ⟨signRun_le v _, fun i hi => hbelow i ▸ getLsbD_of_lt_signRun hi, fun hend => hbelow _ ▸ getLsbD_signRun_ne hend⟩
  · exact fun n p rd ra k s hpos hend hruns =>
      ⟨_, exec_expb_block hpos hend hruns rd, fun i hi => Engine.blockNorm_le _ hi, Engine.blockNorm_attained _ hpos⟩
  · exact fun n p rd ra s hruns =>
      ⟨_, exec_expb_empty hruns rd ra, by simp [State.goOn], countsOne_goOn_fetched s n 1 _, by simp [State.goOn]⟩
  · exact fun n p rd ra k s hend hpos hfetches => answers_expb_illegal hfetches hpos hend p rd

end Sys2Proof.Machine
